-- ==== Sys2Proof/Word.lean ====
section
/-! DEFINITION. The plainest types of the model: bytes, the parties that send commands, and the values an
access carries. -/

namespace Sys2Proof

/-- One byte. -/
abbrev Byte := BitVec 8

/-- A party that writes and reads objects: host port A, host port B, the Kettle console (R17, R28). -/
inductive Party where
  | a
  | b
  | console
  deriving DecidableEq, Repr

/-- The number of a party, used where a selector is held per party (R382). -/
def Party.num : Party → Nat
  | .a => 0
  | .b => 1
  | .console => 2

/-- The port a party writes through: 0 for A, 1 for B, none for the console. -/
def Party.port? : Party → Option Nat
  | .a => some 0
  | .b => some 1
  | .console => none

/-- The value of one object in an access (R381): a number, which for F32 and F64 is the pattern of its bits
and for TIME96 a count of nanoseconds, or the byte string of a DOMAIN object. -/
inductive Val where
  | num (v : Int)
  | bytes (b : List Byte)
  deriving DecidableEq, Repr

end Sys2Proof
end

