-- ==== Sys2Proof/Syntax.lean ====
section
/-! DEFINITION. The commands of the block: one constructor per row of the table of operations and events. Who sends a
command is its first operand where the row is an access; what the world outside decides (a raw code, returned bits,
a result of a measurement) is an operand too. -/

namespace Sys2Proof

/-- A checker's report to the fault collector (R424, R425): code, unit and detail word; whether it was injected: 0 no,
1 purely (INJ), 3 over a real error (INJ and REAL) (R451). -/
structure Report where
  code : Nat
  unit : Nat
  detail : Nat := 0
  inj : Nat := 0
  deriving DecidableEq, Repr

/-- An item handed to the queue manager (R262, R268): the class it is charged to and its body words. -/
structure Item where
  cls : Nat
  body : List Nat
  deriving DecidableEq, Repr

/-- A received Ethernet frame (R340), its tag and check already seen by the MAC. -/
structure EthFrame where
  dst : Nat
  src : Nat
  vlan : Option Nat
  etherType : Nat
  fcsOk : Bool
  payload : List Byte
  deriving DecidableEq, Repr

/-- A PTP message seen at a port (R323, R325): its kind, the clock that sent it, domain, sequence number, the
correction and time stamps it carries in ns, and an Announce's data set for comparison. -/
structure PtpMsg where
  kind : Nat
  master : Nat
  domain : Nat
  seq : Nat
  twoStep : Bool
  time : Int
  corr : Int
  rxTime : Int
  dataset : List Nat
  deriving DecidableEq, Repr

/-- Everything the block can be commanded to do: one constructor per row of spec/opcode_table.json. -/
inductive Instr where
  /-- CH_CMD_OFF (R38): The OFF channel command takes a channel or top-level hearth to Off: gates low, DAC at zero-force code, sequence stopped, injection ended. -/
  | chCmdOff (p : Party) (u : Nat)
  /-- CH_CMD_MONITOR (R38): The MONITOR channel command takes a channel to Monitor, stopping regulation but still publishing results. -/
  | chCmdMonitor (p : Party) (u : Nat)
  /-- CH_CMD_SOURCE (R40): The SOURCE channel command starts regulation from the idle switch state if the entry conditions hold, and is refused otherwise. -/
  | chCmdSource (p : Party) (u : Nat)
  /-- CH_CMD_HOLD (R41): The HOLD channel command freezes the target and pauses the sequence engine. -/
  | chCmdHold (p : Party) (u : Nat)
  /-- CH_CMD_RESUME (R39): The RESUME channel command returns a channel in Hold to Source and applies any pending setpoint; it is refused in every other state. -/
  | chCmdResume (p : Party) (u : Nat)
  /-- CH_CMD_CALIBRATE (R38): The CALIBRATE channel command passes the channel's converters to the calibration engine. -/
  | chCmdCalibrate (p : Party) (u : Nat)
  /-- SAMPLE_CORRECTED (R140): A converted sample pair is corrected and copied to the engine, accumulators, lock-in, autorange and acquisition unit. -/
  | sampleCorrected (u : Nat) (vIn : BitVec 16) (iIn : BitVec 16) (spare : Option (BitVec 16))
  /-- ENGINE_DECISION (R49): In the channel's slot the engine predicts the regulated variable and decides the switch state and edge code, or a linear stage's DAC code. -/
  | engineDecision (u : Nat)
  /-- IDLE_FORCED (R65): Four consecutive missed decisions command the idle state at the following cv. -/
  | idleForced (u : Nat)
  /-- DEFERRED_EDGE (R55): An edge deferred by the minimum interval lands at the earliest allowed time. -/
  | deferredEdge (u : Nat)
  /-- BAND_LOCK_TIMEOUT (R61): No edge to high for 16 × Tt clears BAND_LOCKED. -/
  | bandLockTimeout (u : Nat)
  /-- COEFFICIENT_WRITE (R72): A dictionary write to a control coefficient is used from the slots of the next cv. -/
  | coefficientWrite (p : Party) (u : Nat) (code : Nat) (v : Int)
  /-- FF_DATA_WRITE (R59): A write of FF_DATA changes the selected feed-forward entry and advances ENTRY when autoincrement is on. -/
  | ffDataWrite (p : Party) (u : Nat) (v : Int)
  /-- FF_DATA_READ (R59): A read of FF_DATA returns the selected entry and advances ENTRY when autoincrement is on. -/
  | ffDataRead (p : Party) (u : Nat)
  /-- OSC_DETECTION (R76): N consecutive qualifying excursion cycles make an oscillation detection with its reaction. -/
  | oscDetection (u : Nat)
  /-- FB_STUCK_DETECT (R79): A converter code unchanged over STUCK_COUNT samples with edges is a stuck converter, which shuts the damper. -/
  | fbStuckDetect (u : Nat)
  /-- KELVIN_HALF_PERIOD (R80): The sense-check current reverses every 8,192 samples, and the Kelvin window test is evaluated. -/
  | kelvinHalfPeriod (u : Nat)
  /-- FB_SAT_DETECT (R81): SAT_COUNT consecutive saturated samples or errors are persistent saturation, which shuts the damper. -/
  | fbSatDetect (u : Nat)
  /-- INJ_MODE_START (R87): A write of a non-zero INJ_MODE in Source starts a test-signal injection run. -/
  | injModeStart (p : Party) (u : Nat) (mode : Int)
  /-- INJ_MODE_STOP (R87): A write of INJ_MODE 0 ends a running injection at the next cv with INJ_STATUS 2. -/
  | injModeStop (p : Party) (u : Nat)
  /-- INJ_COUNT_END (R87): An injection run ends after INJ_COUNT samples. -/
  | injCountEnd (u : Nat)
  /-- COUNTER_CLEAR_WRITE (R534): A write of 0 clears a counter whose Meaning says write 0 to clear, and any other value is refused. -/
  | counterClearWrite (p : Party) (index : Nat) (sub : Nat) (v : Int)
  /-- STICKY_FLAG_CLEAR (R534): A write of 1 clears a sticky flag whose Meaning says write 1 to clear. -/
  | stickyFlagClear (p : Party) (index : Nat) (sub : Nat) (v : Int)
  /-- RANGE_WRITE (R93): A write of I_RANGE or V_RANGE starts a range change or cancels a pending one. -/
  | rangeWrite (p : Party) (u : Nat) (volt : Bool) (r : Int)
  /-- AUTORANGE_UP (R95): AR_UP_COUNT consecutive samples above AR_UP request the next less sensitive range, or set OVER_TOP. -/
  | autorangeUp (u : Nat) (volt : Bool)
  /-- AUTORANGE_DOWN (R95): AR_DWELL below AR_DOWN requests the next more sensitive range when its conditions hold. -/
  | autorangeDown (u : Nat) (volt : Bool)
  /-- RANGE_LINK_TRANSFER_START (R99): A range-link transfer starts its LOAD frame with the patterns of all 16 positions. -/
  | rangeLinkTransferStart (k : Nat)
  /-- RANGE_LINK_CHECK_DONE (R99): The end of CHECK compares the returned bits and latches, repeats or declares a lasting fault. -/
  | rangeLinkCheckDone (k : Nat) (load : BitVec 128) (ret : BitVec 128)
  /-- T_MAKE_ELAPSED (R104): T_MAKE after the MAKE latch, the channel joins the next transfer with its BREAK pattern. -/
  | tMakeElapsed (u : Nat) (volt : Bool)
  /-- REFRESH_TRANSFER (R102): REFRESH cv without a transfer start a refresh transfer of the patterns in force. -/
  | refreshTransfer (k : Nat)
  /-- SE_CMD_WRITE (R110): A write of SE_CMD requests or withdraws the stove's STAGE_EN, and is refused while ILK_N is low or the stove is fenced. -/
  | seCmdWrite (p : Party) (k : Nat) (v : Int)
  /-- STAGE_EN_MISMATCH (R111): SE_PIN low for 1 µs while driven high takes the stove's sourcing channels Off and reports the mismatch. -/
  | stageEnMismatch (k : Nat)
  /-- ILK_N_LOW (R112): ILK_N low for 200 ns forces the stove's gates low, STAGE_EN low and DACs to zero-force, and takes channels Off. -/
  | ilkNLow (k : Nat)
  /-- ILK_N_HIGH (R113): ILK_N returning high ends the interlock, and nothing restarts by itself. -/
  | ilkNHigh (k : Nat)
  /-- MEMBER_WRITE (R117): A write of a hearth MEMBER entry adds or removes a member after its checks. -/
  | memberWrite (p : Party) (h : Nat) (e : Nat) (v : Int)
  /-- HEARTH_RESHARE (R128): At cv f+3 after a leaf fence, the fabric puts the new active set, fractions, leader and capacity in force. -/
  | hearthReshare (h : Nat)
  /-- LP_MODE_WRITE (R138): A write of LP_MODE switches the channel's converters to or from quarter rate, and they settle. -/
  | lpModeWrite (p : Party) (u : Nat) (v : Int)
  /-- LP_SETTLE_END (R138): 4,096 cv after an LP_MODE write, the converters deliver samples again and STALE clears. -/
  | lpSettleEnd (u : Nat)
  /-- APERTURE_END (R149): An aperture reaches its length or line cycles, and its results are published. -/
  | apertureEnd (u : Nat)
  /-- LINE_TIMEOUT (R147): No line event within LINE_TIMEOUT closes the aperture with NO_LINE. -/
  | lineTimeout (u : Nat)
  /-- AP_RUN_WRITE (R146): A write of AP_RUN starts free-running apertures, or abandons the running one. -/
  | apRunWrite (p : Party) (u : Nat) (v : Int)
  /-- ACC_RUN (R154): ACC_CMD 1 runs the accumulator from the next sample edge. -/
  | accRun (p : Party) (u : Nat) (energy : Bool)
  /-- ACC_STOP (R154): ACC_CMD 2 stops the accumulator. -/
  | accStop (p : Party) (u : Nat) (energy : Bool)
  /-- ACC_CLEAR (R154): ACC_CMD 3 clears the accumulator and stamps ACC_SINCE. -/
  | accClear (p : Party) (u : Nat) (energy : Bool)
  /-- ACC_CLEAR_AND_RUN (R154): ACC_CMD 4 clears the accumulator and runs it. -/
  | accClearAndRun (p : Party) (u : Nat) (energy : Bool)
  /-- LOCKIN_SETTLE_END (R156): After LI_SETTLE reference turns, the lock-in starts integrating a window. -/
  | lockinSettleEnd (u : Nat)
  /-- LOCKIN_WINDOW_END (R157): A completed window of LI_CYCLES turns publishes the impedance results. -/
  | lockinWindowEnd (u : Nat)
  /-- SELFCAL_START (R160): SC_CMD 1 issues CALIBRATE to every channel in reach and takes in the spares. -/
  | selfcalStart (p : Party)
  /-- SELFCAL_COMPLETE (R161): After 2,100,000 cv the converters take new factors or are marked failed, and channels return to Off. -/
  | selfcalComplete (failed : List Nat)
  /-- ROTATION_START (R168): ROT_INTERVAL elapsed or ROT_EN written to 1 starts the self-calibration of a spare for the next rotatable role. -/
  | rotationStart (k : Nat)
  /-- ROT_EN_WRITE (R168): A write of ROT_EN starts or disables spare rotation. -/
  | rotEnWrite (p : Party) (k : Nat) (v : Int)
  /-- SPARE_CAL_DONE (R168): The spare's self-calibration ends, and on a pass the spare is switched to the role's sense pins for matching. -/
  | spareCalDone (k : Nat) (pass : Bool)
  /-- MATCH_COMPLETE (R169): MATCH_COUNT samples counted form the offset difference and decide the swap. -/
  | matchComplete (k : Nat)
  /-- CONVERTER_SWAP (R170): At the edge 12 cv after the last matching sample, the spare takes the role. -/
  | converterSwap (k : Nat)
  /-- FREED_CAL_DONE (R168): The freed converter's self-calibration ends, and it becomes a free spare or failed. -/
  | freedCalDone (k : Nat) (pass : Bool)
  /-- SUBSTITUTION (R171): A free calibrated spare takes the role of a failed converter at the next sample edge. -/
  | substitution (k : Nat)
  /-- AUX_START (R181): AUX_START starts the stove's auxiliary sequence, or counts an overrun. -/
  | auxStart (p : Party) (k : Nat)
  /-- AUX_ENTRY_END (R179): An auxiliary entry's conversion ends, its result is updated, and the next entry, sequence-done or repeat follows. -/
  | auxEntryEnd (k : Nat) (code : Nat)
  /-- URG_CMD (R182): URG_CMD makes an urgent conversion that interrupts the running entry. -/
  | urgCmd (p : Party) (k : Nat)
  /-- URG_ENTRY_END (R182): The urgent conversion ends, URG_CODE is updated, and the interrupted entry or a held start proceeds. -/
  | urgEntryEnd (k : Nat) (code : Nat)
  /-- COMPARATOR_CROSSING (R183): An auxiliary comparator crossing raises its flue event and may start the sequence. -/
  | comparatorCrossing (k : Nat) (c : Nat) (high : Bool)
  /-- TEST_DAC_ROUTE_WRITE (R186): A write of TD_ROUTE routes the test DAC into a channel's V converter or VSP ball. -/
  | testDacRouteWrite (p : Party) (k : Nat) (v : Int)
  /-- SEG_DATA_WRITE (R191): A write of SEG_DATA places bytes in the selected segment unless it is active. -/
  | segDataWrite (p : Party) (bytes : List Byte)
  /-- SEG_DESC_WRITE (R191): A write of KIND, NEXT, LEN, UF_ACTION or SAFE_SEG changes a segment descriptor unless it is active. -/
  | segDescWrite (p : Party) (sub : Nat) (v : Int)
  /-- FILLED_WRITE (R217): A write of FILLED marks a stream segment ready and schedules it when it lands in time. -/
  | filledWrite (p : Party) (v : Int)
  /-- SQ_CMD_START (R195): SQ_CMD START begins the program at ENTRY in the slot of the next cv. -/
  | sqCmdStart (p : Party) (u : Nat)
  /-- SQ_CMD_STOP (R195): SQ_CMD STOP abandons the step in progress and takes the engine to Idle. -/
  | sqCmdStop (p : Party) (u : Nat)
  /-- SQ_CMD_JUMP (R218): SQ_CMD JUMP makes a jump request to JUMP_TARGET for the next waveform boundary. -/
  | sqCmdJump (p : Party) (u : Nat)
  /-- STEP_FORCE (R202): A FORCE step applies its mode, target, limits, ranges, band and state together. -/
  | stepForce (u : Nat)
  /-- STEP_RAMP (R204): A RAMP step moves the target linearly to its end value over N cv. -/
  | stepRamp (u : Nat)
  /-- RAMP_END (R201): A RAMP completes after N cv and its successor starts. -/
  | rampEnd (u : Nat)
  /-- STEP_SINE (R215): A SINE step puts the generator's frequency, phase, amplitude and offset in force. -/
  | stepSine (u : Nat)
  /-- SINE_DURATION_END (R201): A SINE step's duration elapses and its successor starts. -/
  | sineDurationEnd (u : Nat)
  /-- STEP_SWEEP (R213): A SWEEP step starts running points from its list segment. -/
  | stepSweep (u : Nat)
  /-- SWEEP_POINT_START (R213): A sweep point's values take effect together in its slot. -/
  | sweepPointStart (u : Nat)
  /-- POINT_DELAY_END (R213): The source delay of a point elapses, and its aperture starts or the next point follows. -/
  | pointDelayEnd (u : Nat)
  /-- POINT_COMPLETE (R213): A point's aperture and lock-in wait complete, and its kind 2 record is written. -/
  | pointComplete (u : Nat)
  /-- STEP_DWELL (R201): A DWELL step waits its duration. -/
  | stepDwell (u : Nat)
  /-- DWELL_END (R201): The DWELL duration elapses and the successor starts. -/
  | dwellEnd (u : Nat)
  /-- STEP_MEASURE (R209): A MEASURE step starts its own aperture and any lock-in wait. -/
  | stepMeasure (u : Nat)
  /-- MEASURE_COMPLETE (R209): The aperture and lock-in wait complete, and the kind 1 record is written. -/
  | measureComplete (u : Nat)
  /-- STEP_WAIT (R206): A WAIT step begins waiting for its flue, time, block mean or accumulator condition. -/
  | stepWait (u : Nat)
  /-- WAIT_CONDITION_MET (R206): The WAIT condition holds, COND becomes 1, and the successor follows. -/
  | waitConditionMet (u : Nat)
  /-- WAIT_TIMEOUT (R206): The WAIT timeout elapses, COND becomes 2, and the successor follows. -/
  | waitTimeout (u : Nat)
  /-- STEP_POST (R210): A POST step writes the record chosen by PSEL. -/
  | stepPost (u : Nat)
  /-- STEP_JUMP (R207): A JUMP step moves PC to its target when its condition holds. -/
  | stepJump (u : Nat)
  /-- STEP_END (R211): An END step enters Done and optionally issues OFF. -/
  | stepEnd (u : Nat)
  /-- STEP_PLAY (R216): A PLAY step starts playing a waveform segment chain as the target. -/
  | stepPlay (u : Nat)
  /-- STEP_LOOP (R220): A LOOP step opens a counted or endless loop level. -/
  | stepLoop (u : Nat)
  /-- STEP_LOOP_END (R220): A LOOP_END step decrements the innermost loop and returns to its start or closes it. -/
  | stepLoopEnd (u : Nat)
  /-- STEP_CALL (R220): A CALL step pushes the return address and moves PC to the target. -/
  | stepCall (u : Nat)
  /-- STEP_RETURN (R220): A RETURN step closes the loops opened since the call and returns. -/
  | stepReturn (u : Nat)
  /-- SEGMENT_BOUNDARY (R216): A waveform segment reaches its boundary, and its successor, jump target, underflow action or completion follows. -/
  | segmentBoundary (u : Nat)
  /-- STARVED_SEGMENT_START (R219): Under UF_ACTION 0, a starved segment starts 3 cv after its FILLED lands. -/
  | starvedSegmentStart (u : Nat)
  /-- ACQ_CMD_ARM (R230): ACQ_CMD ARM arms the acquisition unit after its checks and reservation. -/
  | acqCmdArm (p : Party) (u : Nat)
  /-- ACQ_CMD_DISARM (R230): ACQ_CMD DISARM withdraws the arm or closes the capture with STOPPED. -/
  | acqCmdDisarm (p : Party) (u : Nat)
  /-- ACQ_CMD_FORCE (R235): ACQ_CMD FORCE triggers the unit at the edge of the sample reaching it. -/
  | acqCmdForce (p : Party) (u : Nat)
  /-- WAIT_SPACE_GRANT (R230): A reservation retried in Wait space is granted, and the unit becomes Armed. -/
  | waitSpaceGrant (u : Nat)
  /-- ACQ_SAMPLE (R238): A sample reaching the unit is tested for triggers and mask, and a kept one is written to the ring or post-trigger span. -/
  | acqSample (u : Nat)
  /-- CAPTURE_COMMIT (R239): In the cv after the close, the capture packet is committed and the unused reservation released. -/
  | captureCommit (u : Nat)
  /-- REARM_END (R230): After 4 cv in Re-arm, the unit arms again or goes Idle. -/
  | rearmEnd (u : Nat)
  /-- MASK_STOP_SEQUENCE (R256): In the cv after a violation with MASK_STOPSEQ, STOP is issued to the channel's sequence engine. -/
  | maskStopSequence (u : Nat)
  /-- TG_CMD_ARM (R250): TG_CMD ARM arms every member of the trigger group in the same cv. -/
  | tgCmdArm (p : Party) (g : Nat)
  /-- TG_CMD_DISARM (R249): TG_CMD DISARM disarms the whole trigger group. -/
  | tgCmdDisarm (p : Party) (g : Nat)
  /-- TG_CMD_FORCE (R249): TG_CMD FORCE triggers the whole trigger group. -/
  | tgCmdForce (p : Party) (g : Nat)
  /-- GROUP_TRIGGER_DELIVERY (R251): Two cv after a member's trigger reaches the fabric, the trigger edge is delivered to every member. -/
  | groupTriggerDelivery (g : Nat)
  /-- QUEUE_APPEND (R268): An appended item is checked for space and quota, and is written or dropped into the pending gap marker. -/
  | queueAppend (q : Nat) (item : Item)
  /-- RESERVATION_REQUEST (R269): A reservation request for N words is granted or refused in the next cc. -/
  | reservationRequest (q : Nat) (cls : Nat) (words : Nat)
  /-- RESERVATION_CLOSE (R271): A reservation closes, writing LENGTH, releasing or padding unused words, and advancing CM. -/
  | reservationClose (q : Nat) (used : Nat)
  /-- QUEUE_READ_WORD (R277): A read of Q_WORD returns the next word and advances RD, or returns LAST_READ with UNDERRUN. -/
  | queueReadWord (p : Party)
  /-- QUEUE_READ_BLOCK (R286): A read of Q_BLOCK returns up to 4,096 bytes from RD and advances it. -/
  | queueReadBlock (p : Party) (bytes : Nat)
  /-- QC_CMD_FLUSH (R278): QC_CMD FLUSH discards every item and the open packet and adds them to a FLUSHED gap marker. -/
  | qcCmdFlush (p : Party)
  /-- QC_CMD_SKIP (R277): QC_CMD SKIP moves RD past the rest of the current item, or past the next visible item. -/
  | qcCmdSkip (p : Party)
  /-- QC_CMD_MARK (R266): QC_CMD MARK appends a marker carrying QC_ARG. -/
  | qcCmdMark (p : Party)
  /-- QUEUE_ENABLE_WRITE (R263): A write of ENABLE 1 enables a queue after its checks, and ENABLE 0 discards its contents. -/
  | queueEnableWrite (p : Party) (v : Int)
  /-- QUOTA_WRITE (R275): A write of a class QUOTA applies in the cc it lands. -/
  | quotaWrite (p : Party) (cls : Nat) (v : Int)
  /-- FLUE_FIRE (R304): A write of FIRE raises an event on the flue written, at generation 0. -/
  | flueFire (p : Party) (v : Int)
  /-- FLUE_FIRE_BITS (R304): A write of FIRE_BITS fires every flue of the selected block whose bit is set, in one cc. -/
  | flueFireBits (p : Party) (v : Int)
  /-- FLUE_DELIVERY (R298): The router delivers a flue event to every core consumer input, applying the gate, busy, merge and generation rules. -/
  | flueDelivery
  /-- FLUE_CONVERTER_ARRIVAL (R299): A flue event reaches a converter-domain consumer after resynchronisation, and the consumer acts. -/
  | flueConverterArrival
  /-- FREEZE_END (R307): FREEZE_TIME elapses, and held up-requests are kept only if still valid. -/
  | freezeEnd (u : Nat)
  /-- EVI_EDGE (R308): A filtered EVI pin edge in the selected direction raises the pin's event. -/
  | eviEdge (pin : Nat) (high : Bool)
  /-- EVI_CFG_WRITE (R308): A write of EVI_CFG sets the filtered level without raising an event. -/
  | eviCfgWrite (p : Party) (pin : Nat) (v : Int)
  /-- EVO_PULSE_END (R309): An EVO pulse ends after WIDTH cc. -/
  | evoPulseEnd (pin : Nat)
  /-- STEP_ABS (R317): A write of STEP_ABS steps the time base to a value if a step is available and within the jump threshold. -/
  | stepAbs (p : Party) (t : Nat) (v : Int)
  /-- STEP_REL (R317): A write of STEP_REL steps the time base by an amount under the same rules. -/
  | stepRel (p : Party) (t : Nat) (v : Int)
  /-- STEP_UNLOCK (R317): A write of STEP_UNLOCK 1 sets STEP_AVAIL. -/
  | stepUnlock (p : Party) (t : Nat)
  /-- TB_INC_WRITE (R319): A write of TB_INC sets the time base rate from the next cc. -/
  | tbIncWrite (p : Party) (t : Nat) (v : Int)
  /-- TIME_ACCEPT_STEP (R318): TIME_ACCEPT 1 grants the next step whatever its size and STEP_AVAIL. -/
  | timeAcceptStep (p : Party) (t : Nat)
  /-- TIME_ACCEPT_SLEW (R321): TIME_ACCEPT 2 moves a refused servo to Tracking and slews the offset. -/
  | timeAcceptSlew (p : Party) (t : Nat)
  /-- TB_NOW_READ (R315): A read of TB_NOW returns the time base and keeps the fraction for that party's TB_FRAC. -/
  | tbNowRead (p : Party) (t : Nat)
  /-- SERVO_OFFSET (R320): A Sync offset measurement updates the servo's frequency estimate and TB_INC, or steps, locks or refuses. -/
  | servoOffset (t : Nat) (offset : Int) (interval : Nat)
  /-- ANNOUNCE_TIMEOUT (R321): Announce receipt times out, and the servo enters Holdover. -/
  | announceTimeout (t : Nat)
  /-- SYNC_TIMEOUT (R321): No Sync for 4 Sync intervals puts the servo in Holdover. -/
  | syncTimeout (t : Nat)
  /-- MASTER_QUALIFIED (R321): A qualified master takes the servo to Acquire. -/
  | masterQualified (t : Nat) (master : Nat)
  /-- PTP_MESSAGE_RX (R323): A received PTP message is processed by the port's PTP engine, or ignored. -/
  | ptpMessageRx (port : Nat) (msg : PtpMsg)
  /-- PTP_MESSAGE_TX (R323): The PTP engine sends a Sync, Announce or delay message at its interval. -/
  | ptpMessageTx (port : Nat) (kind : Nat)
  /-- PTP_CFG_WRITE (R324): A write of a PTP_CFG subindex returns the PTP engine to INITIALIZING and the servo to Off. -/
  | ptpCfgWrite (p : Party) (port : Nat) (sub : Nat) (v : Int)
  /-- TX_TSQ_ENTRY (R327): A stamped frame leaving the port adds a transmit time-stamp entry, or overflows. -/
  | txTsqEntry (port : Nat) (tag : Nat)
  /-- TSQ_HEAD_READ (R327): A read of TSQ_HEAD returns and removes the oldest host entry. -/
  | tsqHeadRead (p : Party) (port : Nat)
  /-- LQ_FRAME_WRITE (R328): A write of LQ_FRAME enqueues a frame for launch with the party's time, flags and tag. -/
  | lqFrameWrite (p : Party) (port : Nat) (bytes : List Byte)
  /-- LAUNCH_TIME (R329): The time base reaches a frame's launch time and the frame is sent, or a late frame is sent or dropped. -/
  | launchTime (port : Nat)
  /-- LQ_FLUSH (R328): LQ_FLUSH 1 discards every waiting launch frame. -/
  | lqFlush (p : Party) (port : Nat)
  /-- COMPARE_MATCH (R330): The time base reaches CMP_TIME, raising the compare event and advancing or disabling the compare. -/
  | compareMatch (j : Nat)
  /-- CAP_TIME_READ (R331): A read of CAP_TIME returns the capture and clears CAP_VALID. -/
  | capTimeRead (p : Party) (j : Nat)
  /-- SYNC_ARM (R334): SYNC_ARM 1 arms a load of the device cv count from SYNC_IN. -/
  | syncArm (p : Party)
  /-- SYNC_DISARM (R333): SYNC_ARM 2 disarms the load. -/
  | syncDisarm (p : Party)
  /-- SYNC_IN_EDGE (R334): A rising SYNC_IN found while armed schedules the load. -/
  | syncInEdge
  /-- SYNC_LOAD (R334): At the 8th CVCLK edge after sampling, the cv count takes SYNC_LOAD. -/
  | syncLoad
  /-- SYNC_OUT_PULSE (R336): CV_COUNT reaching SYNC_OUT_AT starts a SYNC_OUT pulse of 4 CVCLK periods. -/
  | syncOutPulse
  /-- SYNC_OUT_PULSE_END (R336): The SYNC_OUT pulse ends after 4 CVCLK periods. -/
  | syncOutPulseEnd
  /-- PORT_CFG_WRITE (R341): A write of PORT_CFG changes the port setting and restarts the link or empties the replay cache. -/
  | portCfgWrite (p : Party) (port : Nat) (sub : Nat) (v : Val)
  /-- LINK_UP (R339): Auto-negotiation and training complete, and the link comes up. -/
  | linkUp (port : Nat)
  /-- LINK_DOWN (R342): The link leaves up, pausing streams and setting LINK_LOST. -/
  | linkDown (port : Nat)
  /-- FRAME_RX (R340): A received Ethernet frame is filtered and classified to Samovar, PTP, ARP or ICMP, or dropped. -/
  | frameRx (port : Nat) (frame : EthFrame)
  /-- SAMOVAR_REQUEST (R350): A Samovar v2 request is queued, checked as a whole, answered from the replay cache or executed. -/
  | samovarRequest (port : Nat) (src : Nat) (bytes : List Byte)
  /-- TLV_READ (R345): A READ TLV reads one object. -/
  | tlvRead (p : Party) (index : Nat) (sub : Nat)
  /-- TLV_WRITE (R345): A WRITE TLV writes one object. -/
  | tlvWrite (p : Party) (index : Nat) (sub : Nat) (bytes : List Byte)
  /-- TLV_DOMAIN_READ (R345): A DOMAIN_READ TLV reads the bytes of a DOMAIN object. -/
  | tlvDomainRead (p : Party) (index : Nat) (sub : Nat) (len : Nat)
  /-- TLV_DOMAIN_WRITE (R345): A DOMAIN_WRITE TLV writes the bytes of a DOMAIN object. -/
  | tlvDomainWrite (p : Party) (index : Nat) (sub : Nat) (bytes : List Byte)
  /-- TIME_READ (R346): A TIME_READ TLV returns all four time bases, the cv count and the request's arrival stamp. -/
  | timeRead (p : Party)
  /-- LIMTUR_READ_WORDS (R361): A Limtur read-words frame reads registers in order with the snapshot rule. -/
  | limturReadWords (port : Nat) (r : Nat) (ch : Nat) (n : Nat)
  /-- LIMTUR_WRITE_WORDS (R361): A Limtur write-words frame writes registers in order, with the held-half rule and autoclaim. -/
  | limturWriteWords (port : Nat) (r : Nat) (ch : Nat) (words : List Nat)
  /-- DICT_WRITE (R347): A write to an object that has no row of its own is checked and applied. -/
  | dictWrite (p : Party) (index : Nat) (sub : Nat) (v : Val)
  /-- STREAM_FRAME_SEND (R364): The stream engine sends one frame of a ready stream in its turn and advances RD. -/
  | streamFrameSend (port : Nat)
  /-- STREAM_HOLDOFF_EXPIRY (R364): ST_HOLDOFF after the oldest unsent word became visible makes the stream ready. -/
  | streamHoldoffExpiry (port : Nat) (n : Nat)
  /-- ST_ENABLE_WRITE (R367): A write of ST_ENABLE binds a queue to a stream or ends the stream. -/
  | stEnableWrite (p : Party) (port : Nat) (v : Int)
  /-- ST_CMD_FLUSH (R366): ST_CMD FLUSH flushes the stream's queue. -/
  | stCmdFlush (p : Party) (port : Nat)
  /-- ST_CMD_SKIP (R366): ST_CMD SKIP skips in the stream's queue. -/
  | stCmdSkip (p : Party) (port : Nat)
  /-- OWN_CLAIM_CLAIM (R370): OWN_CLAIM action 1 claims a unit for the writing port when EXPECT matches. -/
  | ownClaimClaim (p : Party) (expect : Nat)
  /-- OWN_CLAIM_RELEASE (R370): OWN_CLAIM action 2 releases a unit the port owns. -/
  | ownClaimRelease (p : Party) (expect : Nat)
  /-- OWN_CLAIM_HAND_OVER (R370): OWN_CLAIM action 3 hands a unit to the other port. -/
  | ownClaimHandOver (p : Party) (expect : Nat)
  /-- LEASE_EXPIRY (R373): No accepted request for LEASE_MS expires the lease and applies LOSS_ACTION to owned units. -/
  | leaseExpiry (port : Nat)
  /-- OWNERSHIP_CHECK (R374): Every 1 ms the halves compare their ownership copies and put differing units in dispute. -/
  | ownershipCheck
  /-- ARB_RESOLVE (R376): A write of ARB_RESOLVE sets both ownership copies of the selected units. -/
  | arbResolve (p : Party) (v : Int)
  /-- GRANT_PORTS_WRITE (R354): A console write of GRANT_PORTS grants Service level to ports for GRANT_TIME. -/
  | grantPortsWrite (p : Party) (v : Int)
  /-- GRANT_EXPIRY (R354): GRANT_LEFT reaching 0 ends the Service grant. -/
  | grantExpiry
  /-- TEMP_POLL (R398): Every T_POLL the calibration engine takes each channel's temperature and makes factors pending past the hysteresis. -/
  | tempPoll (u : Nat)
  /-- TEMP_SOURCE_STALE (R398): A temperature entry not updated for TS_STALE sets TEMP_LOST. -/
  | tempSourceStale (u : Nat)
  /-- FACTORS_APPLY_IDLE (R402): With no aperture open, pending factors take effect at the first sample edge at least 2 cv later. -/
  | factorsApplyIdle (u : Nat)
  /-- CR_CMD_START (R408): CR_CMD 1 starts a path calibration run after its checks and saves the channel's state. -/
  | crCmdStart (p : Party)
  /-- CR_CMD_ABORT (R408): CR_CMD 2 aborts the running calibration and restores the channel. -/
  | crCmdAbort (p : Party)
  /-- CAL_SETTLE_END (R408): CR_SETTLE elapses, and the run starts measuring a pair of readings. -/
  | calSettleEnd
  /-- CAL_PAIR_COMPLETE (R409): A pair of readings completes and is accepted, rejected or discarded. -/
  | calPairComplete
  /-- CM_ENTRY_WRITE (R410): A write of CM_ENTRY gives the true value of a point and advances the run. -/
  | cmEntryWrite (p : Party) (v : Int)
  /-- CM_TIMEOUT (R412): No entry within CM_TIMEOUT fails the run. -/
  | cmTimeout
  /-- CAL_FACTORS_WRITE (R416): A write of a whole CAL_FACTORS record replaces a channel's sets in the shadow. -/
  | calFactorsWrite (p : Party) (sub : Nat) (bytes : List Byte)
  /-- CAL_STORE (R419): ST_CMD 1 snapshots the shadow and starts writing it to the bank not in force. -/
  | calStore (p : Party)
  /-- CAL_STORE_COMPLETE (R419): The store's erase, program, verify and commit end, and the new bank comes into force or the store fails. -/
  | calStoreComplete (ok : Bool)
  /-- CAL_RELOAD (R421): ST_CMD 2 copies the bank in force into the shadow and makes all factors pending. -/
  | calReload (p : Party)
  /-- FAULT_REPORT (R429): A checker report is classified, latched, recorded and, when severe, closes the damper on its target. -/
  | faultReport (r : Report)
  /-- WATCHDOG_EXPIRY (R438): A firmware half's watchdog expires, fencing it, or causing a core reset if the other half is fenced. -/
  | watchdogExpiry (east : Bool)
  /-- FAULT_CLEAR_CMD (R448): CLR_CMD CLEAR releases a target's STANDING and latches and returns fenced units to service. -/
  | faultClearCmd (p : Party)
  /-- FAULT_FENCE_CMD (R448): CLR_CMD FENCE fences the target as a severe manual-fence event. -/
  | faultFenceCmd (p : Party)
  /-- FAULT_STICKY_CMD (R448): CLR_CMD STICKY clears FAULT_STICKY and stamps STICKY_SINCE. -/
  | faultStickyCmd (p : Party)
  /-- ERASE_HISTORY_CMD (R448): CLR_CMD ERASE_HISTORY erases the history ring and leaves one boot record. -/
  | eraseHistoryCmd (p : Party)
  /-- HISTORY_PROGRAM (R443): The firmware programs a pending history record into flash and reads it back. -/
  | historyProgram (ok : Bool)
  /-- FAULT_INJECT_ARM (R450): A write of INJ_MODE arms one-shot or continuous check-bit injection on a checker instance. -/
  | faultInjectArm (p : Party) (v : Int)
  /-- POWER_ON_RESET (R456): The main rails stand in their windows for 2 ms and the power-on reset releases, starting the boot. -/
  | powerOnReset
  /-- RAIL_BROWNOUT (R456): A main rail below its reset threshold for 5 µs causes a power-on reset. -/
  | railBrownout (rail : Nat)
  /-- SUPPLY_SAMPLE (R458): Every millisecond the firmware samples each rail and raises SUPPLY_LOW below its threshold. -/
  | supplySample (rail : Nat) (uv : Int)
  /-- DIE_TEMP_SAMPLE (R463): Every millisecond each die sensor is read and DIE_WARM or DIE_HOT is raised. -/
  | dieTempSample (die : Nat) (mc : Int)
  /-- PLL_LOCK_LOSS (R428): The core or converter PLL loses lock and its fault is raised. -/
  | pllLockLoss (core : Bool)
  /-- CVCLK_LOSS (R428): No CVCLK edge for 1 µs raises CVCLK_LOST. -/
  | cvclkLoss
  /-- REFCLK_LOSS (R462): A port's 156.25 MHz reference is lost. -/
  | refclkLoss (port : Nat)
  /-- SYSCLK_MEASURE (R462): The island measures SYSCLK against a port reference and raises SYSCLK_OUT. -/
  | sysclkMeasure (hz : Nat)
  /-- CV_CLOCK_WRITE (R461): A write of CV_MUL or CV_DIV relocks the converter PLL. -/
  | cvClockWrite (p : Party) (sub : Nat) (v : Int)
  /-- CV_PLL_RELOCK (R461): The converter PLL relocks at the new f_cv. -/
  | cvPllRelock
  /-- PD_CMD_ON (R466): PD_CMD with bit 15 set requests a power domain on. -/
  | pdCmdOn (p : Party) (domain : Nat)
  /-- PD_CMD_OFF (R466): PD_CMD with bit 15 clear requests a power domain off. -/
  | pdCmdOff (p : Party) (domain : Nat)
  /-- DOMAIN_SWITCH_DONE (R467): A power-domain switch completes, and the next waiting switch starts. -/
  | domainSwitchDone
  /-- RST_N_LOW (R468): RST_N low for 1 µs causes a full reset. -/
  | rstNLow
  /-- RST_N_RISE (R475): RST_N rising samples the straps and starts the boot. -/
  | rstNRise (straps : Nat)
  /-- RST_CMD_FULL (R468): RST_CMD 1 requests a full reset. -/
  | rstCmdFull (p : Party)
  /-- RST_CMD_CORE (R468): RST_CMD 2 requests a core reset. -/
  | rstCmdCore (p : Party)
  /-- RST_CMD_CHANNEL (R468): RST_CMD 3 requests a channel reset. -/
  | rstCmdChannel (p : Party)
  /-- SOFT_RESET_ACT (R471): 1 ms after RST_CMD lands, the soft reset acts at its level. -/
  | softResetAct
  /-- BOOT_PHASE_END (R482): A boot phase completes and the next begins, ending with entry into the boot's mode. -/
  | bootPhaseEnd
  /-- BOOT_CLOCK_TIMEOUT (R484): Clocks not locked within 10 ms halt the boot. -/
  | bootClockTimeout
  /-- IMG_CMD_ERASE (R481): IMG_CMD 1 erases the image bank not in force. -/
  | imgCmdErase (p : Party)
  /-- IMG_CMD_COMMIT (R481): IMG_CMD 2 parses the written entries and programs the header and commit record. -/
  | imgCmdCommit (p : Party)
  /-- IMG_DATA_WRITE (R481): A write of IMG_DATA programs bytes at IMG_OFS and advances it. -/
  | imgDataWrite (p : Party) (bytes : List Byte)
  /-- IMAGE_FLASH_DONE (R481): An image erase or commit completes, and IMG_STATE moves on. -/
  | imageFlashDone (ok : Bool)
  /-- CONSOLE_AUTOBAUD (R487): The first received carriage return sets the console line rate. -/
  | consoleAutobaud (rate : Nat)
  /-- CONSOLE_LINE_BREAK (R487): A line held low for 10 ms restarts the rate measurement. -/
  | consoleLineBreak
  /-- CONSOLE_HELP (R491): HELP lists the commands of the present scope. -/
  | consoleHelp
  /-- CONSOLE_ID (R491): ID prints IDENTITY and FW_VERSION. -/
  | consoleId
  /-- CONSOLE_STATUS (R491): STATUS prints the scope, supplies and device state. -/
  | consoleStatus
  /-- HIST (R504): HIST prints fault history records, newest first. -/
  | hist (n : Nat)
  /-- FLASH_VERIFY (R491): FLASH VERIFY checks the commit records and CRCs of the flash banks and history. -/
  | flashVerify
  /-- FLASH_READ (R491): FLASH READ dumps flash bytes. -/
  | flashRead (addr : Nat) (n : Nat)
  /-- TP_SELECT (R495): TP, or a TEST_BUS write, routes a source to TPA or TPB. -/
  | tpSelect (b : Bool) (src : Nat) (stove : Nat)
  /-- CONT (R499): CONT measures a ball at both polarities and reports the verdict. -/
  | cont (ball : Nat)
  /-- CT_MEASURE (R498): CT_CMD 1 starts a 5 ms continuity measurement on the selected ball. -/
  | ctMeasure (p : Party)
  /-- CT_MEASURE_DONE (R499): The continuity measurement ends and CT_RESULT is set. -/
  | ctMeasureDone (uv : Int)
  /-- CT_ABANDON (R498): VDDIO rising above 0.3 V abandons the continuity measurement. -/
  | ctAbandon
  /-- CONSOLE_RD (R491): RD reads an object from the console. -/
  | consoleRd (index : Nat) (sub : Nat)
  /-- CONSOLE_WR (R491): WR writes an object from the console. -/
  | consoleWr (index : Nat) (sub : Nat) (v : Val)
  /-- CONSOLE_DRD (R491): DRD reads a DOMAIN object from the console. -/
  | consoleDrd (index : Nat) (sub : Nat) (n : Nat)
  /-- CONSOLE_DWR (R491): DWR writes a DOMAIN object from the console. -/
  | consoleDwr (index : Nat) (sub : Nat) (bytes : List Byte)
  /-- CONSOLE_FAULTS (R491): FAULTS prints the decoded fault summary. -/
  | consoleFaults
  /-- CONSOLE_CLEAR (R491): CLEAR issues FAULT_CLEAR CLEAR for a target. -/
  | consoleClear (target : Nat)
  /-- CONSOLE_FENCE (R491): FENCE issues FAULT_CLEAR FENCE for a target. -/
  | consoleFence (target : Nat)
  /-- CONSOLE_ENTER (R491): ENTER writes a meter reading to FT_ENTRY. -/
  | consoleEnter (v : Int)
  /-- CONSOLE_METER (R491): METER writes a meter reading to CM_ENTRY. -/
  | consoleMeter (v : Int)
  /-- CONSOLE_RATE (R488): RATE, or a CON_RATE write, changes the line rate after the response. -/
  | consoleRate (rate : Nat)
  /-- CONSOLE_BOOT (R491): BOOT writes BOOT_NEXT. -/
  | consoleBoot (v : Nat)
  /-- CONSOLE_RESET (R491): RESET writes RST_CMD. -/
  | consoleReset (level : Nat)
  /-- CONSOLE_SCOPE_CHANGE (R490): A change of device state changes the console scope and ends an out-of-scope command. -/
  | consoleScopeChange
  /-- FT_START (R501): FT_CMD 1, or TEST, starts a field test on its unit. -/
  | ftStart (p : Party)
  /-- FT_STOP (R501): FT_CMD 2, or TEST STOP, stops the running field test. -/
  | ftStop (p : Party)
  /-- FT_ENTRY_WRITE (R500): A write of FT_ENTRY gives the meter reading of a waiting test step. -/
  | ftEntryWrite (p : Party) (v : Int)
  /-- FT_STEP_DONE (R502): A field test step completes its measurement and the test moves on or ends with a verdict. -/
  | ftStepDone (value : Int)
  /-- FT_ENTRY_TIMEOUT (R501): An entry waiting more than 600 s aborts the field test. -/
  | ftEntryTimeout
  /-- JTAG_INSTRUCTION (R528): An EXTEST, CLAMP or HIGHZ instruction holds the device as in reset. -/
  | jtagInstruction
  /-- JTAG_INSTRUCTION_END (R528): The end of such an instruction runs a full reset. -/
  | jtagInstructionEnd
  /-- CVCLK_RESTORED (R447): CVCLK edges return after a loss, ending the CVCLK condition that blocks a device CLEAR. -/
  | cvclkRestored
  /-- PORT_REFERENCE_RESTORED (R462): A lost 156.25 MHz port reference returns, REF_LOST clears and the port may be cleared again. -/
  | portReferenceRestored (port : Nat)
  /-- PLL_LOCK_REGAINED (R447): The core or converter PLL regains lock after a spontaneous loss, ending the PLL condition that blocks a device CLEAR. -/
  | pllLockRegained (core : Bool)
  /-- ISLAND_RESET_RELEASE (R459): VSRV rises above 2.850 V, the service island leaves its reset and the console starts at 115,200 Bd. -/
  | islandResetRelease
  /-- VSRV_LOSS (R459): VSRV falls below 2.850 V, resetting the island and losing its retention RAM, pending history records and BOOT_NEXT. -/
  | vsrvLoss
  /-- MAIN_RAILS_IN_WINDOW (R493): The main rails enter their monitor windows, starting the 2 ms power-on count and making the island release the flash balls within 1 ms. -/
  | mainRailsInWindow
  /-- STOVE_DOMAIN_SUPPLY_OUT (R427): A stove logic domain's supply leaves its window while on, raising STOVE_DOMAIN and fencing the stove. -/
  | stoveDomainSupplyOut (k : Nat)
  /-- CORE_TRAP (R428): A core of a firmware half takes an unrecoverable trap, raising CORE_TRAP and fencing the half. -/
  | coreTrap (east : Bool)
  /-- MAILBOX_TIMEOUT (R428): The island mailbox is not answered within 10 ms, raising the MAILBOX source. -/
  | mailboxTimeout
  deriving DecidableEq, Repr

end Sys2Proof
end

