-- ==== Sys2Proof/WellFormed.lean ====
section
/-! DEFINITION. Operands in their ranges: units, stoves, hearths, groups, queues, ports and words as the device has them. -/

namespace Sys2Proof

/-- A unit: physical channel or hearth (R8, R378). -/
def inUnit (u : Nat) : Bool := decide (u < 384)

/-- A stove (R8). -/
def inStove (k : Nat) : Bool := decide (k < 16)

/-- A virtual channel (R117). -/
def inHearth (h : Nat) : Bool := decide (256 ≤ h ∧ h < 384)

/-- An entry of a hearth's member list (R117). -/
def inLeaf (e : Nat) : Bool := decide (e < 64)

/-- A trigger group (R248). -/
def inGroup (g : Nat) : Bool := decide (g < 64)

/-- One of sixteen: compare and capture units, event pins (R308, R330, R331). -/
def in16 (j : Nat) : Bool := decide (j < 16)

/-- A time base (R312). -/
def inBase (t : Nat) : Bool := decide (t < 4)

/-- A host port (R338). -/
def inPort (n : Nat) : Bool := decide (n < 2)

/-- A producer class (R274). -/
def inClass (c : Nat) : Bool := decide (c < 4)

/-- A power domain (R464). -/
def inDomain (n : Nat) : Bool := decide (n < 300)

/-- A comparator of a stove (R183). -/
def inCmp (c : Nat) : Bool := decide (c < 12)

/-- A rail (R457, R458). -/
def inRail (n : Nat) : Bool := decide (n < 32)

/-- A die sensor (R463). -/
def inDie (n : Nat) : Bool := decide (n < 32)

/-- A ball of the package, row by row. -/
def inBall (n : Nat) : Bool := decide (n < 4096)

/-- A byte. -/
def inU8 (n : Nat) : Bool := decide (n < 2 ^ 8)

/-- A 16-bit number. -/
def inU16 (n : Nat) : Bool := decide (n < 2 ^ 16)

/-- A 32-bit number. -/
def inU32 (n : Nat) : Bool := decide (n < 2 ^ 32)

/-- A 64-bit number. -/
def inU64 (n : Nat) : Bool := decide (n < 2 ^ 64)

/-- Whether every operand of a command lies in its range. Values written to objects are bounded by the object and are
refused by the device itself, so they carry no bound here (R349). -/
def Instr.wellFormed (i : Instr) : Bool :=
  match i with
  | .chCmdOff _ u => inUnit u
  | .chCmdMonitor _ u => inUnit u
  | .chCmdSource _ u => inUnit u
  | .chCmdHold _ u => inUnit u
  | .chCmdResume _ u => inUnit u
  | .chCmdCalibrate _ u => inUnit u
  | .sampleCorrected u _ _ _ => inUnit u
  | .engineDecision u => inUnit u
  | .idleForced u => inUnit u
  | .deferredEdge u => inUnit u
  | .bandLockTimeout u => inUnit u
  | .coefficientWrite _ u code _ => inUnit u && inU16 code
  | .ffDataWrite _ u _ => inUnit u
  | .ffDataRead _ u => inUnit u
  | .oscDetection u => inUnit u
  | .fbStuckDetect u => inUnit u
  | .kelvinHalfPeriod u => inUnit u
  | .fbSatDetect u => inUnit u
  | .injModeStart _ u _ => inUnit u
  | .injModeStop _ u => inUnit u
  | .injCountEnd u => inUnit u
  | .counterClearWrite _ index sub _ => inU16 index && inU8 sub
  | .stickyFlagClear _ index sub _ => inU16 index && inU8 sub
  | .rangeWrite _ u _ _ => inUnit u
  | .autorangeUp u _ => inUnit u
  | .autorangeDown u _ => inUnit u
  | .rangeLinkTransferStart k => inStove k
  | .rangeLinkCheckDone k _ _ => inStove k
  | .tMakeElapsed u _ => inUnit u
  | .refreshTransfer k => inStove k
  | .seCmdWrite _ k _ => inStove k
  | .stageEnMismatch k => inStove k
  | .ilkNLow k => inStove k
  | .ilkNHigh k => inStove k
  | .memberWrite _ h e _ => inHearth h && inLeaf e
  | .hearthReshare h => inHearth h
  | .lpModeWrite _ u _ => inUnit u
  | .lpSettleEnd u => inUnit u
  | .apertureEnd u => inUnit u
  | .lineTimeout u => inUnit u
  | .apRunWrite _ u _ => inUnit u
  | .accRun _ u _ => inUnit u
  | .accStop _ u _ => inUnit u
  | .accClear _ u _ => inUnit u
  | .accClearAndRun _ u _ => inUnit u
  | .lockinSettleEnd u => inUnit u
  | .lockinWindowEnd u => inUnit u
  | .selfcalStart _ => true
  | .selfcalComplete _ => true
  | .rotationStart k => inStove k
  | .rotEnWrite _ k _ => inStove k
  | .spareCalDone k _ => inStove k
  | .matchComplete k => inStove k
  | .converterSwap k => inStove k
  | .freedCalDone k _ => inStove k
  | .substitution k => inStove k
  | .auxStart _ k => inStove k
  | .auxEntryEnd k code => inStove k && inU16 code
  | .urgCmd _ k => inStove k
  | .urgEntryEnd k code => inStove k && inU16 code
  | .comparatorCrossing k c _ => inStove k && inCmp c
  | .testDacRouteWrite _ k _ => inStove k
  | .segDataWrite _ _ => true
  | .segDescWrite _ sub _ => inU8 sub
  | .filledWrite _ _ => true
  | .sqCmdStart _ u => inUnit u
  | .sqCmdStop _ u => inUnit u
  | .sqCmdJump _ u => inUnit u
  | .stepForce u => inUnit u
  | .stepRamp u => inUnit u
  | .rampEnd u => inUnit u
  | .stepSine u => inUnit u
  | .sineDurationEnd u => inUnit u
  | .stepSweep u => inUnit u
  | .sweepPointStart u => inUnit u
  | .pointDelayEnd u => inUnit u
  | .pointComplete u => inUnit u
  | .stepDwell u => inUnit u
  | .dwellEnd u => inUnit u
  | .stepMeasure u => inUnit u
  | .measureComplete u => inUnit u
  | .stepWait u => inUnit u
  | .waitConditionMet u => inUnit u
  | .waitTimeout u => inUnit u
  | .stepPost u => inUnit u
  | .stepJump u => inUnit u
  | .stepEnd u => inUnit u
  | .stepPlay u => inUnit u
  | .stepLoop u => inUnit u
  | .stepLoopEnd u => inUnit u
  | .stepCall u => inUnit u
  | .stepReturn u => inUnit u
  | .segmentBoundary u => inUnit u
  | .starvedSegmentStart u => inUnit u
  | .acqCmdArm _ u => inUnit u
  | .acqCmdDisarm _ u => inUnit u
  | .acqCmdForce _ u => inUnit u
  | .waitSpaceGrant u => inUnit u
  | .acqSample u => inUnit u
  | .captureCommit u => inUnit u
  | .rearmEnd u => inUnit u
  | .maskStopSequence u => inUnit u
  | .tgCmdArm _ g => inGroup g
  | .tgCmdDisarm _ g => inGroup g
  | .tgCmdForce _ g => inGroup g
  | .groupTriggerDelivery g => inGroup g
  | .queueAppend q item => inU16 q && inClass item.cls && item.body.all inU32
  | .reservationRequest q cls words => inU16 q && inClass cls && inU32 words
  | .reservationClose q used => inU16 q && inU32 used
  | .queueReadWord _ => true
  | .queueReadBlock _ _ => true
  | .qcCmdFlush _ => true
  | .qcCmdSkip _ => true
  | .qcCmdMark _ => true
  | .queueEnableWrite _ _ => true
  | .quotaWrite _ cls _ => inClass cls
  | .flueFire _ _ => true
  | .flueFireBits _ _ => true
  | .flueDelivery => true
  | .flueConverterArrival => true
  | .freezeEnd u => inUnit u
  | .eviEdge pin _ => in16 pin
  | .eviCfgWrite _ pin _ => in16 pin
  | .evoPulseEnd pin => in16 pin
  | .stepAbs _ t _ => inBase t
  | .stepRel _ t _ => inBase t
  | .stepUnlock _ t => inBase t
  | .tbIncWrite _ t _ => inBase t
  | .timeAcceptStep _ t => inBase t
  | .timeAcceptSlew _ t => inBase t
  | .tbNowRead _ t => inBase t
  | .servoOffset t _ interval => inBase t && decide (0 < interval)
  | .announceTimeout t => inBase t
  | .syncTimeout t => inBase t
  | .masterQualified t master => inBase t && inU64 master
  | .ptpMessageRx port msg => inPort port && inU8 msg.kind && inU8 msg.domain
  | .ptpMessageTx port kind => inPort port && inU8 kind
  | .ptpCfgWrite _ port sub _ => inPort port && inU8 sub
  | .txTsqEntry port tag => inPort port && inU16 tag
  | .tsqHeadRead _ port => inPort port
  | .lqFrameWrite _ port _ => inPort port
  | .launchTime port => inPort port
  | .lqFlush _ port => inPort port
  | .compareMatch j => in16 j
  | .capTimeRead _ j => in16 j
  | .syncArm _ => true
  | .syncDisarm _ => true
  | .syncInEdge => true
  | .syncLoad => true
  | .syncOutPulse => true
  | .syncOutPulseEnd => true
  | .portCfgWrite _ port sub _ => inPort port && inU8 sub
  | .linkUp port => inPort port
  | .linkDown port => inPort port
  | .frameRx port frame => inPort port && decide (frame.etherType < 2 ^ 16)
  | .samovarRequest port _ _ => inPort port
  | .tlvRead _ index sub => inU16 index && inU8 sub
  | .tlvWrite _ index sub _ => inU16 index && inU8 sub
  | .tlvDomainRead _ index sub len => inU16 index && inU8 sub && inU32 len
  | .tlvDomainWrite _ index sub _ => inU16 index && inU8 sub
  | .timeRead _ => true
  | .limturReadWords port r ch n => inPort port && inU16 r && inU16 ch && inU32 n
  | .limturWriteWords port r ch words => inPort port && inU16 r && inU16 ch && words.all inU16
  | .dictWrite _ index sub _ => inU16 index && inU8 sub
  | .streamFrameSend port => inPort port
  | .streamHoldoffExpiry port n => inPort port && inU32 n
  | .stEnableWrite _ port _ => inPort port
  | .stCmdFlush _ port => inPort port
  | .stCmdSkip _ port => inPort port
  | .ownClaimClaim _ expect => inU32 expect
  | .ownClaimRelease _ expect => inU32 expect
  | .ownClaimHandOver _ expect => inU32 expect
  | .leaseExpiry port => inPort port
  | .ownershipCheck => true
  | .arbResolve _ _ => true
  | .grantPortsWrite _ _ => true
  | .grantExpiry => true
  | .tempPoll u => inUnit u
  | .tempSourceStale u => inUnit u
  | .factorsApplyIdle u => inUnit u
  | .crCmdStart _ => true
  | .crCmdAbort _ => true
  | .calSettleEnd => true
  | .calPairComplete => true
  | .cmEntryWrite _ _ => true
  | .cmTimeout => true
  | .calFactorsWrite _ sub _ => inU8 sub
  | .calStore _ => true
  | .calStoreComplete _ => true
  | .calReload _ => true
  | .faultReport r => inU16 r.code && inU16 r.unit && inU32 r.detail
  | .watchdogExpiry _ => true
  | .faultClearCmd _ => true
  | .faultFenceCmd _ => true
  | .faultStickyCmd _ => true
  | .eraseHistoryCmd _ => true
  | .historyProgram _ => true
  | .faultInjectArm _ _ => true
  | .powerOnReset => true
  | .railBrownout rail => inRail rail
  | .supplySample rail _ => inRail rail
  | .dieTempSample die _ => inDie die
  | .pllLockLoss _ => true
  | .cvclkLoss => true
  | .refclkLoss port => inPort port
  | .sysclkMeasure _ => true
  | .cvClockWrite _ sub _ => inU8 sub
  | .cvPllRelock => true
  | .pdCmdOn _ domain => inDomain domain
  | .pdCmdOff _ domain => inDomain domain
  | .domainSwitchDone => true
  | .rstNLow => true
  | .rstNRise _ => true
  | .rstCmdFull _ => true
  | .rstCmdCore _ => true
  | .rstCmdChannel _ => true
  | .softResetAct => true
  | .bootPhaseEnd => true
  | .bootClockTimeout => true
  | .imgCmdErase _ => true
  | .imgCmdCommit _ => true
  | .imgDataWrite _ _ => true
  | .imageFlashDone _ => true
  | .consoleAutobaud _ => true
  | .consoleLineBreak => true
  | .consoleHelp => true
  | .consoleId => true
  | .consoleStatus => true
  | .hist n => inU32 n
  | .flashVerify => true
  | .flashRead _ n => inU32 n
  | .tpSelect _ src stove => inU32 src && inStove stove
  | .cont ball => inBall ball
  | .ctMeasure _ => true
  | .ctMeasureDone _ => true
  | .ctAbandon => true
  | .consoleRd index sub => inU16 index && inU8 sub
  | .consoleWr index sub _ => inU16 index && inU8 sub
  | .consoleDrd index sub n => inU16 index && inU8 sub && inU32 n
  | .consoleDwr index sub _ => inU16 index && inU8 sub
  | .consoleFaults => true
  | .consoleClear target => inU16 target
  | .consoleFence target => inU16 target
  | .consoleEnter _ => true
  | .consoleMeter _ => true
  | .consoleRate _ => true
  | .consoleBoot _ => true
  | .consoleReset _ => true
  | .consoleScopeChange => true
  | .ftStart _ => true
  | .ftStop _ => true
  | .ftEntryWrite _ _ => true
  | .ftStepDone _ => true
  | .ftEntryTimeout => true
  | .jtagInstruction => true
  | .jtagInstructionEnd => true
  | .cvclkRestored => true
  | .portReferenceRestored port => inPort port
  | .pllLockRegained _ => true
  | .islandResetRelease => true
  | .vsrvLoss => true
  | .mainRailsInWindow => true
  | .stoveDomainSupplyOut k => inStove k
  | .coreTrap _ => true
  | .mailboxTimeout => true

end Sys2Proof
end

