-- ==== Sys2Proof/Decode.lean ====
section
/-! DEFINITION. The command a word spells. The table of operations and events gives no row any bits: a command reaches
this block as an access, a pin's edge or an elapsed time, never as an instruction word, so no word spells one. -/

namespace Sys2Proof

/-- The command that the word `w` of `nbits` bits spells: none, since no row of the table has bits. -/
def decodeTableWord (nbits w : Nat) : Option Instr :=
  match nbits, w with
  | _, _ => none

end Sys2Proof
end

