-- ==== Sys2Proof/Config.lean ====
section
/-! DEFINITION. What an implementation fixes and the free values: constants without a body, so that no statement
can rest on a value of theirs. -/

namespace Sys2Proof

/-- Factory constants of one device (R384, R341): serial number, address base, revisions and date code. -/
opaque Config.serial : Nat
/-- Factory MAC address of port A, 48 bits (R341, R384). -/
opaque Config.macBase : Nat
/-- LOGIC_REV (R384). -/
opaque Config.logicRev : Nat
/-- MS_REV of mixed-signal die d (R384). -/
opaque Config.msRev (d : Nat) : Nat
/-- DATE_CODE (R384). -/
opaque Config.dateCode : Nat
/-- Grade of the device: false MV256-C, true MV256-E (R2, R384). -/
opaque Config.gradeE : Bool

/-- Supply of the range registers on the board, in µV (R502). -/
opaque Config.chainSupply : Int

/-- The free value drawn `k`-th, of `w` bits: a value the spec leaves undefined. -/
opaque Config.freeValue (w k : Nat) : BitVec w

/-- Which of the two neighbours a result takes where the spec gives its real value and no rounding: the quotient
`n / d` of place `tag` is rounded up where this is true (log 12). -/
opaque Config.roundUp (tag : Nat) (n : Int) (d : Nat) : Bool

/-- The deviation, in units of 2^-31 of full scale, of the sine generator at phase `p` (log 13). -/
opaque Config.sineErr (p : Nat) : Int

end Sys2Proof
end

