-- ==== Sys2Proof/Machine/Arith.lean ====
section
/-! DEFINITION. Exact arithmetic and the conversions the spec names: rounding half to even (R535), two's
complement fields, IEEE 754 binary32 and binary64 (R381, R535), square root and CRC. -/

namespace Sys2Proof.Machine

/-- `n / d` rounded to the nearest integer, a half to the even one (R535). -/
def rdiv (n : Int) (d : Nat) : Int :=
  let q := n / (d : Int)
  let r := n % (d : Int)
  if 2 * r < d then q else if 2 * r > d then q + 1 else if q % 2 = 0 then q else q + 1

/-- `n / d` where the spec gives the real value and no rounding: one of the two neighbours, left open (log 12). -/
def odiv (tag : Nat) (n : Int) (d : Nat) : Int :=
  if n % (d : Int) = 0 then n / (d : Int)
  else if Sys2Proof.Config.roundUp tag n d then n / (d : Int) + 1 else n / (d : Int)

/-- `v` held between `lo` and `hi`. -/
def clampI (lo hi v : Int) : Int := if v < lo then lo else if hi < v then hi else v

/-- `v` saturated to a signed 32-bit code (Q1.31). -/
def sat32 (v : Int) : Int := clampI (-2147483648) 2147483647 v

/-- The unsigned number of `w` bits that holds `v`. -/
def toU (w : Nat) (v : Int) : Nat := (v % (2 ^ w : Int)).toNat

/-- The two's complement value of the low `w` bits of `n`. -/
def ofTwos (w : Nat) (n : Nat) : Int :=
  let m := n % 2 ^ w
  if m < 2 ^ (w - 1) then (m : Int) else (m : Int) - 2 ^ w

/-- Bits `hi` to `lo` of `n`. -/
def bits (n hi lo : Nat) : Nat := n / 2 ^ lo % 2 ^ (hi + 1 - lo)

/-- Bit `i` of `n`. -/
def bit (n i : Nat) : Bool := n / 2 ^ i % 2 == 1

/-- `n` with bit `i` made `b`. -/
def setBit (n i : Nat) (b : Bool) : Nat :=
  if bit n i = b then n else if b then n + 2 ^ i else n - 2 ^ i

/-- One bit from a truth value. -/
def b2n (b : Bool) : Nat := if b then 1 else 0

/-- One bit from a truth value, as an integer. -/
def b2i (b : Bool) : Int := if b then 1 else 0

/-- The number whose bit `i` tells whether `p i`, for `i < n`. -/
def bitMap (p : Nat → Bool) : Nat → Nat
  | 0 => 0
  | n + 1 => bitMap p n + (if p n then 2 ^ n else 0)

/-- The number of `i < n` with `p i`. -/
def countBelow (p : Nat → Bool) : Nat → Nat
  | 0 => 0
  | n + 1 => countBelow p n + (if p n then 1 else 0)

/-- The lowest `i` in `[k, k+n)` with `p i`. -/
def firstFrom (p : Nat → Bool) (k : Nat) : Nat → Option Nat
  | 0 => none
  | n + 1 => if p k then some k else firstFrom p (k + 1) n

/-- Fold over `0 … n-1`, upward. -/
def foldUp {σ : Type} (f : σ → Nat → σ) (s : σ) (n : Nat) : σ := (List.range n).foldl f s

/-- The magnitude `a / d` (both positive) as IEEE 754 bits without sign: `p` fraction bits, smallest exponent
`emin`, exponent field of all ones `top` (R535: round to nearest even, subnormals kept). -/
def floatMag (p : Nat) (emin : Int) (top : Nat) (a d : Nat) : Nat :=
  let l : Int := (Nat.log2 a : Int) - (Nat.log2 d : Int)
  let ge : Bool := if 0 ≤ l then decide (d * 2 ^ l.toNat ≤ a) else decide (d ≤ a * 2 ^ (-l).toNat)
  let e : Int := max (if ge then l else l - 1) emin
  let sh : Int := (p : Int) - e
  let q : Int := if 0 ≤ sh then rdiv ((a : Int) * 2 ^ sh.toNat) d else rdiv a (d * 2 ^ (-sh).toNat)
  let r : Int := (e - emin) * 2 ^ p + q
  if r ≥ (top : Int) * 2 ^ p then top * 2 ^ p else r.toNat

/-- The binary32 bits of `n / d` (R381, R535). -/
def toF32 (n : Int) (d : Nat) : Nat :=
  if n = 0 then 0
  else floatMag 23 (-126) 255 n.natAbs d + (if n < 0 then 2147483648 else 0)

/-- The binary64 bits of `n / d` (R381, R535). -/
def toF64 (n : Int) (d : Nat) : Nat :=
  if n = 0 then 0
  else floatMag 52 (-1022) 2047 n.natAbs d + (if n < 0 then 9223372036854775808 else 0)

/-- A rational as numerator over denominator. -/
structure Rat2 where
  num : Int
  den : Nat
  deriving DecidableEq, Repr

/-- The value of IEEE bits with `p` fraction bits, bias `bias` and exponent field of width `we`; meant for finite
numbers. -/
def floatVal (p bias we : Nat) (x : Nat) : Rat2 :=
  let e := bits x (p + we - 1) p
  let f := x % 2 ^ p
  let m : Int := if e = 0 then f else f + 2 ^ p
  let ex : Int := (if e = 0 then 1 else (e : Int)) - bias - p
  let s : Int := if bit x (p + we) then -m else m
  if 0 ≤ ex then ⟨s * 2 ^ ex.toNat, 1⟩ else ⟨s, 2 ^ (-ex).toNat⟩

/-- The value of binary32 bits. -/
def f32Val (x : Int) : Rat2 := floatVal 23 127 8 x.toNat

/-- The value of binary64 bits. -/
def f64Val (x : Int) : Rat2 := floatVal 52 1023 11 x.toNat

/-- Whether binary32 bits are a NaN or an infinity. -/
def f32Bad (x : Int) : Bool := bits x.toNat 30 23 == 255

/-- Whether binary64 bits are a NaN or an infinity. -/
def f64Bad (x : Int) : Bool := bits x.toNat 62 52 == 2047

/-- `x ≤ y` for rationals. -/
def Rat2.le (x y : Rat2) : Bool := decide (x.num * y.den ≤ y.num * x.den)

/-- `x < y` for rationals. -/
def Rat2.lt (x y : Rat2) : Bool := decide (x.num * y.den < y.num * x.den)

/-- Product of rationals. -/
def Rat2.mul (x y : Rat2) : Rat2 := ⟨x.num * y.num, x.den * y.den⟩

/-- Difference of rationals. -/
def Rat2.sub (x y : Rat2) : Rat2 := ⟨x.num * y.den - y.num * x.den, x.den * y.den⟩

/-- Sum of rationals. -/
def Rat2.add (x y : Rat2) : Rat2 := ⟨x.num * y.den + y.num * x.den, x.den * y.den⟩

/-- Magnitude of a rational. -/
def Rat2.abs (x : Rat2) : Rat2 := ⟨x.num.natAbs, x.den⟩

/-- An integer as a rational. -/
def Rat2.ofInt (n : Int) : Rat2 := ⟨n, 1⟩

/-- The integer nearest to a rational times `k`, a half to even. -/
def Rat2.scale (x : Rat2) (k : Int) : Int := rdiv (x.num * k) x.den

/-- Quotient of rationals, 0 for a divisor of 0. -/
def Rat2.div (x y : Rat2) : Rat2 :=
  if y.num = 0 then ⟨0, 1⟩
  else if 0 < y.num then ⟨x.num * y.den, x.den * y.num.natAbs⟩ else ⟨-(x.num * y.den), x.den * y.num.natAbs⟩

/-- Binary32 bits of a rational. -/
def Rat2.f32 (x : Rat2) : Int := (toF32 x.num x.den : Nat)

/-- Binary64 bits of a rational. -/
def Rat2.f64 (x : Rat2) : Int := (toF64 x.num x.den : Nat)

/-- The integer square root of `n`, by bisection on `k` bits below `2 ^ k`. -/
def isqrtAux (n : Nat) : Nat → Nat → Nat
  | 0, r => r
  | k + 1, r => let t := r + 2 ^ k; if t * t ≤ n then isqrtAux n k t else isqrtAux n k r

/-- The integer square root. -/
def isqrt (n : Nat) : Nat := isqrtAux n (Nat.log2 n / 2 + 1) 0

/-- The grade's highest junction temperature in °C (R2). -/
def maxJunction : Int := if Config.gradeE then 110 else 95

/-- One bit of the CRC-32 of IEEE 802.3, reflected form. -/
def crcBit (c : Nat) : Nat := if c % 2 = 1 then (c / 2) ^^^ 0xEDB88320 else c / 2

/-- One byte of the CRC-32 of IEEE 802.3. -/
def crcByte (c : Nat) (b : BitVec 8) : Nat :=
  let x := c ^^^ b.toNat
  crcBit (crcBit (crcBit (crcBit (crcBit (crcBit (crcBit (crcBit x)))))))

/-- The CRC-32 of IEEE 802.3 of a byte string. -/
def crc32 (bs : List (BitVec 8)) : Nat := (bs.foldl crcByte 0xFFFFFFFF) ^^^ 0xFFFFFFFF

end Sys2Proof.Machine
end

