-- ==== Sys2Proof/Machine/SMap.lean ====
section
/-! DEFINITION. Sparse maps from numbers: a list of pairs in ONE canonical form, keys strictly rising and no
entry equal to what an unlisted key reads as. Every memory, table and register file of the model is one. -/

namespace Sys2Proof.Machine

/-- A sparse map: pairs of key and value, keys strictly rising. -/
abbrev SMap (α : Type) := List (Nat × α)

/-- The value at key `k`, `d` where nothing is listed. -/
def SMap.get {α : Type} (d : α) : SMap α → Nat → α
  | [], _ => d
  | (j, v) :: m, k => if k = j then v else SMap.get d m k

/-- The entry at key `k`, if one is listed. -/
def SMap.look {α : Type} : SMap α → Nat → Option α
  | [], _ => none
  | (j, v) :: m, k => if k = j then some v else SMap.look m k

/-- The map without an entry at `k`. -/
def SMap.del {α : Type} : SMap α → Nat → SMap α
  | [], _ => []
  | (j, v) :: m, k => if k = j then SMap.del m k else (j, v) :: SMap.del m k

/-- The map with `v` listed at `k`. -/
def SMap.ins {α : Type} : SMap α → Nat → α → SMap α
  | [], k, v => [(k, v)]
  | (j, w) :: m, k, v =>
    if k = j then (k, v) :: m else if k < j then (k, v) :: (j, w) :: m else (j, w) :: SMap.ins m k v

/-- The map with `v` at `k`, where an unlisted key reads as `d`: writing `d` removes the entry. -/
def SMap.set {α : Type} [DecidableEq α] (d : α) (m : SMap α) (k : Nat) (v : α) : SMap α :=
  if v = d then SMap.del m k else SMap.ins m k v

/-- The map with `f` applied to the value at `k`. -/
def SMap.upd {α : Type} [DecidableEq α] (d : α) (m : SMap α) (k : Nat) (f : α → α) : SMap α :=
  SMap.set d m k (f (SMap.get d m k))

/-- Keys of `m` are strictly rising and above `lo` (`none`: no bound). -/
def SMap.sortedFrom {α : Type} : Option Nat → SMap α → Bool
  | _, [] => true
  | lo, (k, _) :: m => (match lo with | none => true | some l => decide (l < k)) && SMap.sortedFrom (some k) m

/-- The canonical form: keys strictly rising, no entry equal to the default. -/
def SMap.wf {α : Type} [DecidableEq α] (d : α) (m : SMap α) : Bool :=
  SMap.sortedFrom none m && m.all (fun e => decide (e.2 ≠ d))

/-- A byte memory. -/
abbrev Mem := SMap (BitVec 8)

/-- One byte of a memory whose unlisted bytes read as `d`. -/
def Mem.byte (d : BitVec 8) (m : Mem) (a : Nat) : BitVec 8 := SMap.get d m a

/-- `n` bytes from address `a`, lowest address first. -/
def Mem.bytes (d : BitVec 8) (m : Mem) (a : Nat) : Nat → List (BitVec 8)
  | 0 => []
  | n + 1 => SMap.get d m a :: Mem.bytes d m (a + 1) n

/-- Bytes `bs` stored from address `a` up. -/
def Mem.write (d : BitVec 8) (m : Mem) (a : Nat) : List (BitVec 8) → Mem
  | [] => m
  | b :: bs => Mem.write d (SMap.set d m a b) (a + 1) bs

/-- The canonical form of a memory whose unlisted bytes read as `d`. -/
def Mem.wf (d : BitVec 8) (m : Mem) : Bool := SMap.wf d m

/-- The number that bytes spell, least significant byte first (R343, R381). -/
def leNat : List (BitVec 8) → Nat
  | [] => 0
  | b :: bs => b.toNat + 256 * leNat bs

/-- `n` bytes of a number, least significant byte first (R343, R381). -/
def natLe : Nat → Nat → List (BitVec 8)
  | 0, _ => []
  | n + 1, v => BitVec.ofNat 8 v :: natLe n (v / 256)

/-- The 32-bit word at byte address `a` (R22, R261). -/
def Mem.word (d : BitVec 8) (m : Mem) (a : Nat) : Nat := leNat (Mem.bytes d m a 4)

end Sys2Proof.Machine
end

