-- ==== Sys2Proof/Machine/Objects.lean ====
section
/-! DEFINITION. The object dictionary as the spec's tables give it: for each object its place, type, access,
level, default and the values it accepts. One definition per table row; the docstring names the row. -/

namespace Sys2Proof.Machine

/-- Where an object's index block lies (R9, R378). -/
inductive Block where
  | chan
  | stove
  | dev
  deriving DecidableEq, Repr

/-- The types of R381. -/
inductive Ty where
  | bool
  | u8
  | u16
  | u32
  | u64
  | i8
  | i16
  | i32
  | i64
  | f32
  | f64
  | str (n : Nat)
  | domain
  | time96
  deriving DecidableEq, Repr

/-- The Access column (00_scope, "Objects"). -/
inductive Acc where
  | ro
  | rw
  | wo
  | rws
  | const_
  deriving DecidableEq, Repr

/-- The Level column, in increasing order (00_scope, "Objects"). -/
inductive Lvl where
  | observer
  | operator
  | owner
  | service
  deriving DecidableEq, Repr

/-- What an object accepts when it is written (its Meaning column). -/
inductive Dom where
  /-- every value of the type -/
  | any
  /-- values from `lo` to `hi` -/
  | range (lo hi : Int)
  /-- values from 0 to `hi`, or the value that means none -/
  | orNone (hi none : Int)
  /-- 0, or values from `lo` to `hi` -/
  | zeroOr (lo hi : Int)
  /-- the values listed -/
  | oneOf (vs : List Int)
  /-- a bit field: bits outside the mask are reserved, ignored on a write (R7) -/
  | keep (mask : Nat)
  /-- a counter: 0 clears, another value is refused (R534) -/
  | counter
  /-- sticky flags: a 1 clears the flag (R534) -/
  | w1c (mask : Nat)
  /-- the object's own rule says -/
  | special
  deriving DecidableEq, Repr

/-- The Default column. -/
inductive Dflt where
  /-- one value -/
  | c (v : Int)
  /-- one value per subindex -/
  | l (vs : List Int)
  /-- `a n + b` for physical channel n, `v` for a virtual channel -/
  | lin (a b v : Int)
  /-- the number of the instance divided by `n` -/
  | div (n : Nat)
  deriving DecidableEq, Repr

/-- One row of an object table: `nsubs` subindices from `sub` up at offset or index `off`, `ninst` indices in a
numbered series of device objects. -/
structure Obj where
  blk : Block
  off : Nat
  sub : Nat
  nsubs : Nat
  ninst : Nat
  ty : Ty
  acc : Acc
  lvl : Lvl
  dflt : Dflt
  dom : Dom
  deriving DecidableEq, Repr

/-- The full index of an object of unit `u` (R9): channel, stove or instance of a series. -/
def Obj.index (o : Obj) (u : Nat) : Nat :=
  match o.blk with
  | .chan => (if u < 256 then 0x4000 + 0x40 * u else 0x8000 + 0x40 * (u - 256)) + o.off
  | .stove => 0x3000 + 0x10 * u + o.off
  | .dev => o.off + u

/-- The key of subindex `o.sub + i` in the register file: full index, then subindex. -/
def Obj.key (o : Obj) (u i : Nat) : Nat := o.index u * 256 + o.sub + i

/-- The default of subindex `o.sub + i` of unit `u`. -/
def Obj.default (o : Obj) (u i : Nat) : Int :=
  match o.dflt with
  | .c v => v
  | .l vs => vs.getD i 0
  | .lin a b v => if u < 256 then a * u + b else v
  | .div n => (u / n : Nat)


/-- C.00:0 CH_STATE (R36). -/
def C.CH_STATE : Obj := ⟨.chan, 0x00, 0, 1, 1, .u8, .ro, .observer, .c 0, .any⟩
/-- C.01:0 CH_CMD (R36). -/
def C.CH_CMD : Obj := ⟨.chan, 0x01, 0, 1, 1, .u8, .wo, .operator, .c 0, .any⟩
/-- C.02:1 MODE (R45). -/
def C.MODE : Obj := ⟨.chan, 0x02, 1, 1, 1, .u8, .rws, .operator, .c 0, .range 0 1⟩
/-- C.02:2 STAGE_KIND (R45). -/
def C.STAGE_KIND : Obj := ⟨.chan, 0x02, 2, 1, 1, .u8, .rws, .owner, .c 0, .range 0 1⟩
/-- C.03:0 SETPOINT (R45). -/
def C.SETPOINT : Obj := ⟨.chan, 0x03, 0, 1, 1, .i32, .rw, .operator, .c 0, .any⟩
/-- C.04:1 IC+ (R45). -/
def C.ICP : Obj := ⟨.chan, 0x04, 1, 1, 1, .i32, .rw, .operator, .c 0xCCCCCCD, .any⟩
/-- C.04:2 IC− (R45). -/
def C.ICN : Obj := ⟨.chan, 0x04, 2, 1, 1, .i32, .rw, .operator, .c (-214748365), .any⟩
/-- C.04:3 VC+ (R45). -/
def C.VCP : Obj := ⟨.chan, 0x04, 3, 1, 1, .i32, .rw, .operator, .c 0xCCCCCCD, .any⟩
/-- C.04:4 VC− (R45). -/
def C.VCN : Obj := ⟨.chan, 0x04, 4, 1, 1, .i32, .rw, .operator, .c (-214748365), .any⟩
/-- C.04:5 RETURN_MARGIN (R45). -/
def C.RETURN_MARGIN : Obj := ⟨.chan, 0x04, 5, 1, 1, .u32, .rw, .owner, .c 0x147AE14, .any⟩
/-- C.07:1 DEAD_TIME (R55). -/
def C.DEAD_TIME : Obj := ⟨.chan, 0x07, 1, 1, 1, .u16, .rw, .owner, .c 64, .range 0 4095⟩
/-- C.07:2 MIN_PULSE (R55). -/
def C.MIN_PULSE : Obj := ⟨.chan, 0x07, 2, 1, 1, .u16, .rw, .owner, .c 192, .range 1 65535⟩
/-- C.07:3 LIN_SHIFT (R55). -/
def C.LIN_SHIFT : Obj := ⟨.chan, 0x07, 3, 1, 1, .u8, .rw, .owner, .c 12, .range 4 20⟩
/-- C.0B:1 FF_SEL (R58). -/
def C.FF_SEL : Obj := ⟨.chan, 0x0B, 1, 1, 1, .u16, .rw, .owner, .c 0, .special⟩
/-- C.0B:2 FF_DATA (R58). -/
def C.FF_DATA : Obj := ⟨.chan, 0x0B, 2, 1, 1, .u16, .rw, .owner, .c 0, .any⟩
/-- C.0B:3 FF_ENABLE (R58). -/
def C.FF_ENABLE : Obj := ⟨.chan, 0x0B, 3, 1, 1, .u8, .rw, .owner, .c 0, .keep 3⟩
/-- C.0B:4 FF_AUTOINC (R58). -/
def C.FF_AUTOINC : Obj := ⟨.chan, 0x0B, 4, 1, 1, .bool, .rw, .owner, .c 1, .any⟩
/-- C.08:1 BAND (R60). -/
def C.BAND : Obj := ⟨.chan, 0x08, 1, 1, 1, .u32, .rw, .operator, .c 0x51EB85, .any⟩
/-- C.08:2 BAND_MIN (R60). -/
def C.BAND_MIN : Obj := ⟨.chan, 0x08, 2, 1, 1, .u32, .rw, .owner, .c 0x346DC, .any⟩
/-- C.08:3 BAND_MAX (R60). -/
def C.BAND_MAX : Obj := ⟨.chan, 0x08, 3, 1, 1, .u32, .rw, .owner, .c 0xCCCCCCD, .any⟩
/-- C.08:4 LOCK_EN (R60). -/
def C.LOCK_EN : Obj := ⟨.chan, 0x08, 4, 1, 1, .bool, .rw, .owner, .c 1, .any⟩
/-- C.08:5 LOCK_SHIFT (R60). -/
def C.LOCK_SHIFT : Obj := ⟨.chan, 0x08, 5, 1, 1, .u8, .rw, .owner, .c 6, .range 0 15⟩
/-- C.08:6 BAND_NOW (R60). -/
def C.BAND_NOW : Obj := ⟨.chan, 0x08, 6, 1, 1, .u32, .ro, .observer, .c 0, .any⟩
/-- C.09:1 FSW_TARGET (R60). -/
def C.FSW_TARGET : Obj := ⟨.chan, 0x09, 1, 1, 1, .u32, .rw, .owner, .c 0x186A0, .range 20000 2000000⟩
/-- C.09:2 FSW_MEAS (R60). -/
def C.FSW_MEAS : Obj := ⟨.chan, 0x09, 2, 1, 1, .u32, .ro, .observer, .c 0, .any⟩
/-- C.0E:1 MISS_COUNT (R66). -/
def C.MISS_COUNT : Obj := ⟨.chan, 0x0E, 1, 1, 1, .u32, .rw, .operator, .c 0, .counter⟩
/-- C.0E:2 HANDOVER_COUNT (R66). -/
def C.HANDOVER_COUNT : Obj := ⟨.chan, 0x0E, 2, 1, 1, .u32, .rw, .operator, .c 0, .counter⟩
/-- C.0E:3 OSC_COUNT (R66). -/
def C.OSC_COUNT : Obj := ⟨.chan, 0x0E, 3, 1, 1, .u16, .rw, .operator, .c 0, .counter⟩
/-- C.0E:4 LAST_MISS_CAUSE (R66). -/
def C.LAST_MISS_CAUSE : Obj := ⟨.chan, 0x0E, 4, 1, 1, .u8, .ro, .observer, .c 0, .any⟩
/-- C.0C:1 OSC_EN (R75). -/
def C.OSC_EN : Obj := ⟨.chan, 0x0C, 1, 1, 1, .bool, .rw, .owner, .c 1, .any⟩
/-- C.0C:2 OSC_THRESH (R75). -/
def C.OSC_THRESH : Obj := ⟨.chan, 0x0C, 2, 1, 1, .u32, .rw, .owner, .c 0x28F5C29, .any⟩
/-- C.0C:3 OSC_CYCLES (R75). -/
def C.OSC_CYCLES : Obj := ⟨.chan, 0x0C, 3, 1, 1, .u8, .rw, .owner, .c 4, .range 1 255⟩
/-- C.0C:4 OSC_REACT (R75). -/
def C.OSC_REACT : Obj := ⟨.chan, 0x0C, 4, 1, 1, .u8, .rw, .owner, .c 1, .range 0 2⟩
/-- C.0F:1 STUCK_COUNT (R78). -/
def C.STUCK_COUNT : Obj := ⟨.chan, 0x0F, 1, 1, 1, .u32, .rw, .owner, .c 4096, .range 64 16777216⟩
/-- C.0F:2 KELVIN_EN (R78). -/
def C.KELVIN_EN : Obj := ⟨.chan, 0x0F, 2, 1, 1, .bool, .rw, .owner, .c 1, .any⟩
/-- C.0F:3 KELVIN_WINDOW (R78). -/
def C.KELVIN_WINDOW : Obj := ⟨.chan, 0x0F, 3, 1, 1, .u32, .rw, .owner, .c 0xA3D70A, .any⟩
/-- C.0F:4 SAT_COUNT (R78). -/
def C.SAT_COUNT : Obj := ⟨.chan, 0x0F, 4, 1, 1, .u32, .rw, .owner, .c 65536, .range 1024 16777216⟩
/-- C.0D:1 INJ_MODE (R86). -/
def C.INJ_MODE : Obj := ⟨.chan, 0x0D, 1, 1, 1, .u8, .rw, .owner, .c 0, .range 0 3⟩
/-- C.0D:2 INJ_POINT (R86). -/
def C.INJ_POINT : Obj := ⟨.chan, 0x0D, 2, 1, 1, .u8, .rw, .owner, .c 0, .range 0 1⟩
/-- C.0D:3 INJ_AMPL (R86). -/
def C.INJ_AMPL : Obj := ⟨.chan, 0x0D, 3, 1, 1, .u32, .rw, .owner, .c 0, .any⟩
/-- C.0D:4 INJ_PERIOD (R86). -/
def C.INJ_PERIOD : Obj := ⟨.chan, 0x0D, 4, 1, 1, .u32, .rw, .owner, .c 500, .range 1 16777216⟩
/-- C.0D:5 INJ_PRBS (R86). -/
def C.INJ_PRBS : Obj := ⟨.chan, 0x0D, 5, 1, 1, .u8, .rw, .owner, .c 7, .oneOf [7, 15]⟩
/-- C.0D:6 INJ_QUEUE (R86). -/
def C.INJ_QUEUE : Obj := ⟨.chan, 0x0D, 6, 1, 1, .u32, .rw, .owner, .lin 2 1 0xFFFFFFFF, .orNone 65535 4294967295⟩
/-- C.0D:7 INJ_DECIM (R86). -/
def C.INJ_DECIM : Obj := ⟨.chan, 0x0D, 7, 1, 1, .u16, .rw, .owner, .c 1, .range 1 65535⟩
/-- C.0D:8 INJ_COUNT (R86). -/
def C.INJ_COUNT : Obj := ⟨.chan, 0x0D, 8, 1, 1, .u32, .rw, .owner, .c 65536, .zeroOr 1 4294967295⟩
/-- C.0D:9 INJ_STATUS (R86). -/
def C.INJ_STATUS : Obj := ⟨.chan, 0x0D, 9, 1, 1, .u8, .ro, .observer, .c 0, .any⟩
/-- C.05:1 I_RANGE (R89). -/
def C.I_RANGE : Obj := ⟨.chan, 0x05, 1, 1, 1, .u8, .rw, .operator, .c 7, .any⟩
/-- C.05:2 V_RANGE (R89). -/
def C.V_RANGE : Obj := ⟨.chan, 0x05, 2, 1, 1, .u8, .rw, .operator, .c 3, .any⟩
/-- C.05:3 I_NOW (R89). -/
def C.I_NOW : Obj := ⟨.chan, 0x05, 3, 1, 1, .u8, .ro, .observer, .c 7, .any⟩
/-- C.05:4 V_NOW (R89). -/
def C.V_NOW : Obj := ⟨.chan, 0x05, 4, 1, 1, .u8, .ro, .observer, .c 3, .any⟩
/-- C.05:5 RANGE_STATUS (R89). -/
def C.RANGE_STATUS : Obj := ⟨.chan, 0x05, 5, 1, 1, .u16, .ro, .observer, .c 0, .any⟩
/-- C.30:1–8 PATTERN_I (R90). -/
def C.PATTERN_I : Obj := ⟨.chan, 0x30, 1, 8, 1, .u8, .rws, .owner, .c 0, .any⟩
/-- C.30:9–12 PATTERN_V (R90). -/
def C.PATTERN_V : Obj := ⟨.chan, 0x30, 9, 4, 1, .u8, .rws, .owner, .c 0, .any⟩
/-- C.31:1–8 FS_I (R90). -/
def C.FS_I : Obj := ⟨.chan, 0x31, 1, 8, 1, .f32, .rws, .owner, .l [0x3727C5AC, 0x38D1B717, 0x3A83126F, 0x3C23D70A, 0x3DCCCCCD, 0x3F800000, 0x41200000, 0x42C80000], .any⟩
/-- C.31:9–12 FS_V (R90). -/
def C.FS_V : Obj := ⟨.chan, 0x31, 9, 4, 1, .f32, .rws, .owner, .l [0x3F000000, 0x40000000, 0x40A00000, 0x41A00000], .any⟩
/-- C.32:1 I_RANGES (R90). -/
def C.I_RANGES : Obj := ⟨.chan, 0x32, 1, 1, 1, .u8, .rws, .owner, .c 8, .range 1 8⟩
/-- C.32:2 V_RANGES (R90). -/
def C.V_RANGES : Obj := ⟨.chan, 0x32, 2, 1, 1, .u8, .rws, .owner, .c 4, .range 1 4⟩
/-- C.32:3 T_MAKE (R90). -/
def C.T_MAKE : Obj := ⟨.chan, 0x32, 3, 1, 1, .u32, .rws, .owner, .c 1000, .range 0 1048575⟩
/-- C.06:1 AR_I (R94). -/
def C.AR_I : Obj := ⟨.chan, 0x06, 1, 1, 1, .bool, .rw, .operator, .c 0, .any⟩
/-- C.06:2 AR_V (R94). -/
def C.AR_V : Obj := ⟨.chan, 0x06, 2, 1, 1, .bool, .rw, .operator, .c 0, .any⟩
/-- C.06:3 AR_UP (R94). -/
def C.AR_UP : Obj := ⟨.chan, 0x06, 3, 1, 1, .u32, .rw, .owner, .c 0x828F5C29, .range 0x40000000 0xFFDF3B64⟩
/-- C.06:4 AR_UP_COUNT (R94). -/
def C.AR_UP_COUNT : Obj := ⟨.chan, 0x06, 4, 1, 1, .u16, .rw, .owner, .c 4, .range 1 65535⟩
/-- C.06:5 AR_DOWN (R94). -/
def C.AR_DOWN : Obj := ⟨.chan, 0x06, 5, 1, 1, .u32, .rw, .owner, .c 0xA3D70A4, .range 0x0020C49C 0x40000000⟩
/-- C.06:6 AR_DWELL (R94). -/
def C.AR_DWELL : Obj := ⟨.chan, 0x06, 6, 1, 1, .u32, .rw, .owner, .c 5000, .range 1 268435456⟩
/-- C.06:7 RANGE_LOCK (R94). -/
def C.RANGE_LOCK : Obj := ⟨.chan, 0x06, 7, 1, 1, .bool, .rw, .operator, .c 0, .any⟩
/-- C.38:1 MEMBER_COUNT (R116). -/
def C.MEMBER_COUNT : Obj := ⟨.chan, 0x38, 1, 1, 1, .u8, .ro, .observer, .c 0, .any⟩
/-- C.38:2 PHYS_TOTAL (R116). -/
def C.PHYS_TOTAL : Obj := ⟨.chan, 0x38, 2, 1, 1, .u8, .ro, .observer, .c 0, .any⟩
/-- C.38:3 LEVEL (R116). -/
def C.LEVEL : Obj := ⟨.chan, 0x38, 3, 1, 1, .u8, .ro, .observer, .c 0, .any⟩
/-- C.38:16–79 MEMBER (R116). -/
def C.MEMBER : Obj := ⟨.chan, 0x38, 16, 64, 1, .u16, .rws, .owner, .c 65535, .orNone 383 0xFFFF⟩
/-- C.3A:1 MIN_MEMBERS (R120). -/
def C.MIN_MEMBERS : Obj := ⟨.chan, 0x3A, 1, 1, 1, .u8, .rws, .owner, .c 1, .range 1 64⟩
/-- C.3A:2 DERATE (R120). -/
def C.DERATE : Obj := ⟨.chan, 0x3A, 2, 1, 1, .u32, .rws, .owner, .c 0x73333333, .any⟩
/-- C.3A:16–79 WEIGHT (R120). -/
def C.WEIGHT : Obj := ⟨.chan, 0x3A, 16, 64, 1, .u8, .rws, .owner, .c 1, .range 1 255⟩
/-- C.3B:1 IL_EN (R120). -/
def C.IL_EN : Obj := ⟨.chan, 0x3B, 1, 1, 1, .bool, .rws, .owner, .c 0, .any⟩
/-- C.3B:2 IL_SHIFT (R120). -/
def C.IL_SHIFT : Obj := ⟨.chan, 0x3B, 2, 1, 1, .u8, .rw, .owner, .c 4, .range 0 15⟩
/-- C.39:1 HS_FLAGS (R120). -/
def C.HS_FLAGS : Obj := ⟨.chan, 0x39, 1, 1, 1, .u16, .rw, .operator, .c 0, .w1c 0x000A⟩
/-- C.39:2 ACTIVE_MAP (R120). -/
def C.ACTIVE_MAP : Obj := ⟨.chan, 0x39, 2, 1, 1, .u64, .ro, .observer, .c 0, .any⟩
/-- C.39:3 ACTIVE_PHYS (R120). -/
def C.ACTIVE_PHYS : Obj := ⟨.chan, 0x39, 3, 1, 1, .u8, .ro, .observer, .c 0, .any⟩
/-- C.39:4 LEADER (R120). -/
def C.LEADER : Obj := ⟨.chan, 0x39, 4, 1, 1, .u16, .ro, .observer, .c 65535, .any⟩
/-- C.39:5 CAPACITY (R120). -/
def C.CAPACITY : Obj := ⟨.chan, 0x39, 5, 1, 1, .f32, .ro, .observer, .c 0, .any⟩
/-- C.39:6 IC_POS_NOW (R120). -/
def C.IC_POS_NOW : Obj := ⟨.chan, 0x39, 6, 1, 1, .i32, .ro, .observer, .c 0, .any⟩
/-- C.39:7 IC_NEG_NOW (R120). -/
def C.IC_NEG_NOW : Obj := ⟨.chan, 0x39, 7, 1, 1, .i32, .ro, .observer, .c 0, .any⟩
/-- C.39:8 SHARE_LAG (R120). -/
def C.SHARE_LAG : Obj := ⟨.chan, 0x39, 8, 1, 1, .u8, .ro, .observer, .c 2, .any⟩
/-- C.10,C.11:1 VALUE (R142). -/
def C.V_VALUE : Obj := ⟨.chan, 0x10, 1, 1, 1, .f32, .ro, .observer, .c 0, .any⟩
/-- C.10,C.11:1 VALUE (R142). -/
def C.I_VALUE : Obj := ⟨.chan, 0x11, 1, 1, 1, .f32, .ro, .observer, .c 0, .any⟩
/-- C.10,C.11:2 RAW_MEAN (R142). -/
def C.V_RAW_MEAN : Obj := ⟨.chan, 0x10, 2, 1, 1, .i32, .ro, .observer, .c 0, .any⟩
/-- C.10,C.11:2 RAW_MEAN (R142). -/
def C.I_RAW_MEAN : Obj := ⟨.chan, 0x11, 2, 1, 1, .i32, .ro, .observer, .c 0, .any⟩
/-- C.10,C.11:3 RAW_LAST (R142). -/
def C.V_RAW_LAST : Obj := ⟨.chan, 0x10, 3, 1, 1, .i32, .ro, .observer, .c 0, .any⟩
/-- C.10,C.11:3 RAW_LAST (R142). -/
def C.I_RAW_LAST : Obj := ⟨.chan, 0x11, 3, 1, 1, .i32, .ro, .observer, .c 0, .any⟩
/-- C.10,C.11:4 LAST (R142). -/
def C.V_LAST : Obj := ⟨.chan, 0x10, 4, 1, 1, .f32, .ro, .observer, .c 0, .any⟩
/-- C.10,C.11:4 LAST (R142). -/
def C.I_LAST : Obj := ⟨.chan, 0x11, 4, 1, 1, .f32, .ro, .observer, .c 0, .any⟩
/-- C.10,C.11:5 MFLAGS (R142). -/
def C.V_MFLAGS : Obj := ⟨.chan, 0x10, 5, 1, 1, .u16, .ro, .observer, .c 0, .any⟩
/-- C.10,C.11:5 MFLAGS (R142). -/
def C.I_MFLAGS : Obj := ⟨.chan, 0x11, 5, 1, 1, .u16, .ro, .observer, .c 0, .any⟩
/-- C.10,C.11:6 SEQNO (R142). -/
def C.V_SEQNO : Obj := ⟨.chan, 0x10, 6, 1, 1, .u32, .ro, .observer, .c 0, .any⟩
/-- C.10,C.11:6 SEQNO (R142). -/
def C.I_SEQNO : Obj := ⟨.chan, 0x11, 6, 1, 1, .u32, .ro, .observer, .c 0, .any⟩
/-- C.10,C.11:7 START (R142). -/
def C.V_START : Obj := ⟨.chan, 0x10, 7, 1, 1, .time96, .ro, .observer, .c 0, .any⟩
/-- C.10,C.11:7 START (R142). -/
def C.I_START : Obj := ⟨.chan, 0x11, 7, 1, 1, .time96, .ro, .observer, .c 0, .any⟩
/-- C.10,C.11:8 COUNT (R142). -/
def C.V_COUNT : Obj := ⟨.chan, 0x10, 8, 1, 1, .u32, .ro, .observer, .c 0, .any⟩
/-- C.10,C.11:8 COUNT (R142). -/
def C.I_COUNT : Obj := ⟨.chan, 0x11, 8, 1, 1, .u32, .ro, .observer, .c 0, .any⟩
/-- C.12:1 AP_MODE (R145). -/
def C.AP_MODE : Obj := ⟨.chan, 0x12, 1, 1, 1, .u8, .rw, .operator, .c 0, .range 0 1⟩
/-- C.12:2 AP_LENGTH (R145). -/
def C.AP_LENGTH : Obj := ⟨.chan, 0x12, 2, 1, 1, .u32, .rw, .operator, .c 50000, .zeroOr 1 4294967295⟩
/-- C.12:3 LINE_FLUE (R145). -/
def C.LINE_FLUE : Obj := ⟨.chan, 0x12, 3, 1, 1, .u16, .rw, .operator, .c 65535, .orNone 1023 65535⟩
/-- C.12:4 LINE_CYCLES (R145). -/
def C.LINE_CYCLES : Obj := ⟨.chan, 0x12, 4, 1, 1, .u8, .rw, .operator, .c 1, .range 1 255⟩
/-- C.12:5 LINE_TIMEOUT (R145). -/
def C.LINE_TIMEOUT : Obj := ⟨.chan, 0x12, 5, 1, 1, .u32, .rw, .operator, .c 0x2625A0, .range 1000 2147483648⟩
/-- C.12:6 AP_RUN (R145). -/
def C.AP_RUN : Obj := ⟨.chan, 0x12, 6, 1, 1, .bool, .rw, .operator, .c 1, .any⟩
/-- C.12:7 AP_TB (R145). -/
def C.AP_TB : Obj := ⟨.chan, 0x12, 7, 1, 1, .u8, .rw, .owner, .c 2, .range 0 3⟩
/-- C.12:8 ABANDONED (R145). -/
def C.ABANDONED : Obj := ⟨.chan, 0x12, 8, 1, 1, .u32, .rw, .operator, .c 0, .counter⟩
/-- C.13,C.14:1 ACC_VALUE (R152). -/
def C.Q_ACC_VALUE : Obj := ⟨.chan, 0x13, 1, 1, 1, .f64, .ro, .observer, .c 0, .any⟩
/-- C.13,C.14:1 ACC_VALUE (R152). -/
def C.E_ACC_VALUE : Obj := ⟨.chan, 0x14, 1, 1, 1, .f64, .ro, .observer, .c 0, .any⟩
/-- C.13,C.14:2 ACC_RAW (R152). -/
def C.Q_ACC_RAW : Obj := ⟨.chan, 0x13, 2, 1, 1, .domain, .ro, .observer, .c 0, .any⟩
/-- C.13,C.14:2 ACC_RAW (R152). -/
def C.E_ACC_RAW : Obj := ⟨.chan, 0x14, 2, 1, 1, .domain, .ro, .observer, .c 0, .any⟩
/-- C.13,C.14:3 ACC_CMD (R152). -/
def C.Q_ACC_CMD : Obj := ⟨.chan, 0x13, 3, 1, 1, .u8, .wo, .operator, .c 0, .range 1 4⟩
/-- C.13,C.14:3 ACC_CMD (R152). -/
def C.E_ACC_CMD : Obj := ⟨.chan, 0x14, 3, 1, 1, .u8, .wo, .operator, .c 0, .range 1 4⟩
/-- C.13,C.14:4 ACC_STATUS (R152). -/
def C.Q_ACC_STATUS : Obj := ⟨.chan, 0x13, 4, 1, 1, .u8, .ro, .observer, .c 1, .any⟩
/-- C.13,C.14:4 ACC_STATUS (R152). -/
def C.E_ACC_STATUS : Obj := ⟨.chan, 0x14, 4, 1, 1, .u8, .ro, .observer, .c 1, .any⟩
/-- C.13,C.14:5 ACC_SINCE (R152). -/
def C.Q_ACC_SINCE : Obj := ⟨.chan, 0x13, 5, 1, 1, .time96, .ro, .observer, .c 0, .any⟩
/-- C.13,C.14:5 ACC_SINCE (R152). -/
def C.E_ACC_SINCE : Obj := ⟨.chan, 0x14, 5, 1, 1, .time96, .ro, .observer, .c 0, .any⟩
/-- C.13,C.14:6 ACC_HELD (R152). -/
def C.Q_ACC_HELD : Obj := ⟨.chan, 0x13, 6, 1, 1, .u32, .ro, .observer, .c 0, .any⟩
/-- C.13,C.14:6 ACC_HELD (R152). -/
def C.E_ACC_HELD : Obj := ⟨.chan, 0x14, 6, 1, 1, .u32, .ro, .observer, .c 0, .any⟩
/-- C.15:1 Z_MAG (R155). -/
def C.Z_MAG : Obj := ⟨.chan, 0x15, 1, 1, 1, .f32, .ro, .observer, .c 0, .any⟩
/-- C.15:2 Z_PHASE (R155). -/
def C.Z_PHASE : Obj := ⟨.chan, 0x15, 2, 1, 1, .f32, .ro, .observer, .c 0, .any⟩
/-- C.15:3 Z_FREQ (R155). -/
def C.Z_FREQ : Obj := ⟨.chan, 0x15, 3, 1, 1, .f64, .ro, .observer, .c 0, .any⟩
/-- C.15:4 V_AMPL (R155). -/
def C.V_AMPL : Obj := ⟨.chan, 0x15, 4, 1, 1, .f32, .ro, .observer, .c 0, .any⟩
/-- C.15:5 I_AMPL (R155). -/
def C.I_AMPL : Obj := ⟨.chan, 0x15, 5, 1, 1, .f32, .ro, .observer, .c 0, .any⟩
/-- C.15:6 LI_CYCLES (R155). -/
def C.LI_CYCLES : Obj := ⟨.chan, 0x15, 6, 1, 1, .u16, .rw, .operator, .c 4, .range 1 65535⟩
/-- C.15:7 LI_SETTLE (R155). -/
def C.LI_SETTLE : Obj := ⟨.chan, 0x15, 7, 1, 1, .u16, .rw, .operator, .c 1, .range 0 65535⟩
/-- C.15:8 LI_REF (R155). -/
def C.LI_REF : Obj := ⟨.chan, 0x15, 8, 1, 1, .u16, .rw, .owner, .c 65535, .special⟩
/-- C.15:9 LI_STATUS (R155). -/
def C.LI_STATUS : Obj := ⟨.chan, 0x15, 9, 1, 1, .u8, .ro, .observer, .c 0, .any⟩
/-- C.15:10 LI_SEQNO (R155). -/
def C.LI_SEQNO : Obj := ⟨.chan, 0x15, 10, 1, 1, .u32, .ro, .observer, .c 0, .any⟩
/-- C.15:11 LI_EN (R155). -/
def C.LI_EN : Obj := ⟨.chan, 0x15, 11, 1, 1, .bool, .rw, .operator, .c 0, .any⟩
/-- C.18:1 CONV_FLAGS (R165). -/
def C.CONV_FLAGS : Obj := ⟨.chan, 0x18, 1, 1, 1, .u16, .ro, .observer, .c 0, .any⟩
/-- C.18:2 V_ADC (R165). -/
def C.V_ADC : Obj := ⟨.chan, 0x18, 2, 1, 1, .u8, .ro, .observer, .c 0, .any⟩
/-- C.18:3 I_ADC (R165). -/
def C.I_ADC : Obj := ⟨.chan, 0x18, 3, 1, 1, .u8, .ro, .observer, .c 0, .any⟩
/-- C.18:4 LP_MODE (R165). -/
def C.LP_MODE : Obj := ⟨.chan, 0x18, 4, 1, 1, .bool, .rws, .owner, .c 0, .any⟩
/-- C.20:1 ENTRY (R192). -/
def C.ENTRY : Obj := ⟨.chan, 0x20, 1, 1, 1, .u32, .rw, .operator, .c 0, .any⟩
/-- C.20:2 PC (R192). -/
def C.PC : Obj := ⟨.chan, 0x20, 2, 1, 1, .u32, .ro, .observer, .c 0, .any⟩
/-- C.21:1 SQ_CMD (R192). -/
def C.SQ_CMD : Obj := ⟨.chan, 0x21, 1, 1, 1, .u8, .wo, .operator, .c 0, .range 1 3⟩
/-- C.21:2 JUMP_TARGET (R192). -/
def C.JUMP_TARGET : Obj := ⟨.chan, 0x21, 2, 1, 1, .u16, .rw, .operator, .c 65535, .orNone 4095 0xFFFF⟩
/-- C.21:3 JUMP_FLUE (R192). -/
def C.JUMP_FLUE : Obj := ⟨.chan, 0x21, 3, 1, 1, .u16, .rw, .owner, .c 65535, .orNone 1023 65535⟩
/-- C.22:1 SQ_STATE (R193). -/
def C.SQ_STATE : Obj := ⟨.chan, 0x22, 1, 1, 1, .u8, .ro, .observer, .c 0, .any⟩
/-- C.22:2 SQ_ERR (R193). -/
def C.SQ_ERR : Obj := ⟨.chan, 0x22, 2, 1, 1, .u8, .ro, .observer, .c 0, .any⟩
/-- C.22:3 SQ_FLAGS (R193). -/
def C.SQ_FLAGS : Obj := ⟨.chan, 0x22, 3, 1, 1, .u16, .rw, .operator, .c 0, .w1c 0x000F⟩
/-- C.22:4 STEPS (R193). -/
def C.STEPS : Obj := ⟨.chan, 0x22, 4, 1, 1, .u32, .ro, .observer, .c 0, .any⟩
/-- C.22:5 POINT (R193). -/
def C.POINT : Obj := ⟨.chan, 0x22, 5, 1, 1, .u16, .ro, .observer, .c 0, .any⟩
/-- C.22:6 SEG_NOW (R193). -/
def C.SEG_NOW : Obj := ⟨.chan, 0x22, 6, 1, 1, .u16, .ro, .observer, .c 65535, .any⟩
/-- C.22:7 SEG_NEXT (R193). -/
def C.SEG_NEXT : Obj := ⟨.chan, 0x22, 7, 1, 1, .u16, .ro, .observer, .c 65535, .any⟩
/-- C.22:8 JUMP_STATUS (R193). -/
def C.JUMP_STATUS : Obj := ⟨.chan, 0x22, 8, 1, 1, .u8, .ro, .observer, .c 0, .any⟩
/-- C.22:9 STARVES (R193). -/
def C.STARVES : Obj := ⟨.chan, 0x22, 9, 1, 1, .u32, .rw, .operator, .c 0, .counter⟩
/-- C.22:10 LOOP_DEPTH (R193). -/
def C.LOOP_DEPTH : Obj := ⟨.chan, 0x22, 10, 1, 1, .u8, .ro, .observer, .c 0, .any⟩
/-- C.22:11 CALL_DEPTH (R193). -/
def C.CALL_DEPTH : Obj := ⟨.chan, 0x22, 11, 1, 1, .u8, .ro, .observer, .c 0, .any⟩
/-- C.22:12 LOOP_COUNT (R193). -/
def C.LOOP_COUNT : Obj := ⟨.chan, 0x22, 12, 1, 1, .u16, .ro, .observer, .c 0, .any⟩
/-- C.22:13 COND (R193). -/
def C.COND : Obj := ⟨.chan, 0x22, 13, 1, 1, .u8, .ro, .observer, .c 0, .any⟩
/-- C.22:14 START_TIME (R193). -/
def C.START_TIME : Obj := ⟨.chan, 0x22, 14, 1, 1, .time96, .ro, .observer, .c 0, .any⟩
/-- C.23:1 LIMTUR (R194). -/
def C.LIMTUR : Obj := ⟨.chan, 0x23, 1, 1, 1, .bool, .rw, .owner, .c 0, .any⟩
/-- C.23:2 RESULT_QUEUE (R194). -/
def C.RESULT_QUEUE : Obj := ⟨.chan, 0x23, 2, 1, 1, .u32, .rw, .owner, .lin 2 0 0xFFFFFFFF, .orNone 65535 4294967295⟩
/-- C.23:3 EPOCH_MODE (R194). -/
def C.EPOCH_MODE : Obj := ⟨.chan, 0x23, 3, 1, 1, .u8, .rw, .operator, .c 0, .range 0 1⟩
/-- C.23:4 EPOCH (R194). -/
def C.EPOCH : Obj := ⟨.chan, 0x23, 4, 1, 1, .u64, .rw, .operator, .c 0, .any⟩
/-- C.23:5 SINE_FREQ (R194). -/
def C.SINE_FREQ : Obj := ⟨.chan, 0x23, 5, 1, 1, .u64, .ro, .observer, .c 0, .any⟩
/-- C.23:6 SINE_PHASE (R194). -/
def C.SINE_PHASE : Obj := ⟨.chan, 0x23, 6, 1, 1, .u32, .ro, .observer, .c 0, .any⟩
/-- C.23:7 AUTORUN (R194). -/
def C.AUTORUN : Obj := ⟨.chan, 0x23, 7, 1, 1, .bool, .rw, .owner, .c 0, .any⟩
/-- C.24:1 ACQ_QUEUE (R228). -/
def C.ACQ_QUEUE : Obj := ⟨.chan, 0x24, 1, 1, 1, .u32, .rw, .owner, .lin 2 1 0xFFFFFFFF, .orNone 65535 4294967295⟩
/-- C.24:2 DATA (R228). -/
def C.DATA : Obj := ⟨.chan, 0x24, 2, 1, 1, .u8, .rw, .operator, .c 3, .range 0 4⟩
/-- C.24:3 PRE (R228). -/
def C.PRE : Obj := ⟨.chan, 0x24, 3, 1, 1, .u32, .rw, .operator, .c 1024, .range 0 4194304⟩
/-- C.24:4 POST (R228). -/
def C.POST : Obj := ⟨.chan, 0x24, 4, 1, 1, .u32, .rw, .operator, .c 1024, .any⟩
/-- C.24:5 DECIM (R228). -/
def C.DECIM : Obj := ⟨.chan, 0x24, 5, 1, 1, .u32, .rw, .operator, .c 1, .range 1 65536⟩
/-- C.24:6 TRIG_SRC (R228). -/
def C.TRIG_SRC : Obj := ⟨.chan, 0x24, 6, 1, 1, .u8, .rw, .operator, .c 0, .range 0 8⟩
/-- C.24:7 TRIG_DIR (R228). -/
def C.TRIG_DIR : Obj := ⟨.chan, 0x24, 7, 1, 1, .u8, .rw, .operator, .c 0, .range 0 2⟩
/-- C.24:8 TRIG_LEVEL (R228). -/
def C.TRIG_LEVEL : Obj := ⟨.chan, 0x24, 8, 1, 1, .i32, .rw, .operator, .c 0, .any⟩
/-- C.24:9 TRIG_HYST (R228). -/
def C.TRIG_HYST : Obj := ⟨.chan, 0x24, 9, 1, 1, .u32, .rw, .operator, .c 0xA3D70A, .any⟩
/-- C.24:10 SLOPE_SPAN (R228). -/
def C.SLOPE_SPAN : Obj := ⟨.chan, 0x24, 10, 1, 1, .u8, .rw, .operator, .c 16, .range 1 255⟩
/-- C.24:11 TRIG_FLUE (R228). -/
def C.TRIG_FLUE : Obj := ⟨.chan, 0x24, 11, 1, 1, .u16, .rw, .operator, .c 65535, .orNone 1023 65535⟩
/-- C.24:12 TRIG_TIME (R228). -/
def C.TRIG_TIME : Obj := ⟨.chan, 0x24, 12, 1, 1, .time96, .rw, .operator, .c 0, .any⟩
/-- C.24:13 ACQ_TB (R228). -/
def C.ACQ_TB : Obj := ⟨.chan, 0x24, 13, 1, 1, .u8, .rw, .owner, .c 2, .range 0 3⟩
/-- C.24:14 ARM_FLUE (R228). -/
def C.ARM_FLUE : Obj := ⟨.chan, 0x24, 14, 1, 1, .u16, .rw, .operator, .c 65535, .orNone 1023 0xFFFF⟩
/-- C.24:15 AUTO_REARM (R228). -/
def C.AUTO_REARM : Obj := ⟨.chan, 0x24, 15, 1, 1, .bool, .rw, .operator, .c 0, .any⟩
/-- C.24:16 TGROUP (R228). -/
def C.TGROUP : Obj := ⟨.chan, 0x24, 16, 1, 1, .u8, .rw, .owner, .c 255, .orNone 63 0xFF⟩
/-- C.24:17 STREAM (R228). -/
def C.STREAM : Obj := ⟨.chan, 0x24, 17, 1, 1, .bool, .rw, .owner, .c 0, .any⟩
/-- C.24:18 CHUNK (R228). -/
def C.CHUNK : Obj := ⟨.chan, 0x24, 18, 1, 1, .u32, .rw, .operator, .c 1024, .range 64 65536⟩
/-- C.24:19 ACQ_CMD (R228). -/
def C.ACQ_CMD : Obj := ⟨.chan, 0x24, 19, 1, 1, .u8, .wo, .operator, .c 0, .range 1 3⟩
/-- C.26:1 MASK_EN (R253). -/
def C.MASK_EN : Obj := ⟨.chan, 0x26, 1, 1, 1, .bool, .rw, .operator, .c 0, .any⟩
/-- C.26:2 MASK_SEG (R253). -/
def C.MASK_SEG : Obj := ⟨.chan, 0x26, 2, 1, 1, .u16, .rw, .operator, .c 65535, .orNone 4095 0xFFFF⟩
/-- C.26:3 MASK_LEN (R253). -/
def C.MASK_LEN : Obj := ⟨.chan, 0x26, 3, 1, 1, .u32, .rw, .operator, .c 512, .range 1 2097152⟩
/-- C.26:4 MASK_VAR (R253). -/
def C.MASK_VAR : Obj := ⟨.chan, 0x26, 4, 1, 1, .u8, .rw, .operator, .c 0, .range 0 2⟩
/-- C.26:5 MASK_ALIGN (R253). -/
def C.MASK_ALIGN : Obj := ⟨.chan, 0x26, 5, 1, 1, .u8, .rw, .operator, .c 0, .range 0 1⟩
/-- C.26:6 MASK_STOPSEQ (R253). -/
def C.MASK_STOPSEQ : Obj := ⟨.chan, 0x26, 6, 1, 1, .bool, .rw, .owner, .c 0, .any⟩
/-- C.26:7 VIOL_COUNT (R253). -/
def C.VIOL_COUNT : Obj := ⟨.chan, 0x26, 7, 1, 1, .u32, .rw, .operator, .c 0, .counter⟩
/-- C.25:1 ACQ_STATE (R258). -/
def C.ACQ_STATE : Obj := ⟨.chan, 0x25, 1, 1, 1, .u8, .ro, .observer, .c 0, .any⟩
/-- C.25:2 ACQ_ERR (R258). -/
def C.ACQ_ERR : Obj := ⟨.chan, 0x25, 2, 1, 1, .u8, .ro, .observer, .c 0, .any⟩
/-- C.25:3 CAP_SEQ (R258). -/
def C.CAP_SEQ : Obj := ⟨.chan, 0x25, 3, 1, 1, .u32, .ro, .observer, .c 0, .any⟩
/-- C.25:4 TRIG_MISSED (R258). -/
def C.TRIG_MISSED : Obj := ⟨.chan, 0x25, 4, 1, 1, .u32, .rw, .operator, .c 0, .counter⟩
/-- C.25:5 PRE_NOW (R258). -/
def C.PRE_NOW : Obj := ⟨.chan, 0x25, 5, 1, 1, .u32, .ro, .observer, .c 0, .any⟩
/-- C.25:6 POST_NOW (R258). -/
def C.POST_NOW : Obj := ⟨.chan, 0x25, 6, 1, 1, .u32, .ro, .observer, .c 0, .any⟩
/-- C.25:7 LOST (R258). -/
def C.LOST : Obj := ⟨.chan, 0x25, 7, 1, 1, .u32, .ro, .observer, .c 0, .any⟩
/-- C.25:8 VIOL_INDEX (R258). -/
def C.VIOL_INDEX : Obj := ⟨.chan, 0x25, 8, 1, 1, .u32, .ro, .observer, .c 0xFFFFFFFF, .any⟩
/-- C.25:9 LAST_TRIG (R258). -/
def C.LAST_TRIG : Obj := ⟨.chan, 0x25, 9, 1, 1, .time96, .ro, .observer, .c 0, .any⟩
/-- C.25:10 ARM_WAITS (R258). -/
def C.ARM_WAITS : Obj := ⟨.chan, 0x25, 10, 1, 1, .u32, .rw, .operator, .c 0, .counter⟩
/-- C.25:11 LAST_FLAGS (R258). -/
def C.LAST_FLAGS : Obj := ⟨.chan, 0x25, 11, 1, 1, .u32, .ro, .observer, .c 0, .any⟩
/-- C.2A:1 FREEZE_FLUE (R306). -/
def C.FREEZE_FLUE : Obj := ⟨.chan, 0x2A, 1, 1, 1, .u16, .rw, .owner, .c 65535, .orNone 1023 65535⟩
/-- C.2A:2 FREEZE_TIME (R306). -/
def C.FREEZE_TIME : Obj := ⟨.chan, 0x2A, 2, 1, 1, .u32, .rw, .owner, .c 5000, .range 1 1073741824⟩
/-- C.2A:3 OFF_FLUE (R306). -/
def C.OFF_FLUE : Obj := ⟨.chan, 0x2A, 3, 1, 1, .u16, .rw, .owner, .c 65535, .orNone 1023 65535⟩
/-- C.2A:4 FROZEN (R306). -/
def C.FROZEN : Obj := ⟨.chan, 0x2A, 4, 1, 1, .bool, .ro, .observer, .c 0, .any⟩
/-- C.28:1 TS_SRC (R397). -/
def C.TS_SRC : Obj := ⟨.chan, 0x28, 1, 1, 1, .u8, .rw, .owner, .c 1, .range 0 1⟩
/-- C.28:2 TS_ENTRY (R397). -/
def C.TS_ENTRY : Obj := ⟨.chan, 0x28, 2, 1, 1, .u8, .rw, .owner, .c 15, .range 1 16⟩
/-- C.28:3 TS_OFS (R397). -/
def C.TS_OFS : Obj := ⟨.chan, 0x28, 3, 1, 1, .f32, .rw, .owner, .c 0, .any⟩
/-- C.28:4 TS_SLOPE (R397). -/
def C.TS_SLOPE : Obj := ⟨.chan, 0x28, 4, 1, 1, .f32, .rw, .owner, .c 0x42C80000, .any⟩
/-- C.28:5 T_FIXED (R397). -/
def C.T_FIXED : Obj := ⟨.chan, 0x28, 5, 1, 1, .f32, .rw, .owner, .c 0x41C80000, .special⟩
/-- C.28:6 TS_HYST (R397). -/
def C.TS_HYST : Obj := ⟨.chan, 0x28, 6, 1, 1, .f32, .rw, .owner, .c 0x3F000000, .special⟩
/-- C.28:7 T_NOW (R397). -/
def C.T_NOW : Obj := ⟨.chan, 0x28, 7, 1, 1, .f32, .ro, .observer, .c 0x41C80000, .any⟩
/-- C.28:8 T_APPLIED (R397). -/
def C.T_APPLIED : Obj := ⟨.chan, 0x28, 8, 1, 1, .f32, .ro, .observer, .c 0x41C80000, .any⟩
/-- C.29:1 CS_FLAGS (R405). -/
def C.CS_FLAGS : Obj := ⟨.chan, 0x29, 1, 1, 1, .u16, .ro, .observer, .c 96, .any⟩
/-- C.29:2 V_SETS (R405). -/
def C.V_SETS : Obj := ⟨.chan, 0x29, 2, 1, 1, .u16, .ro, .observer, .c 65535, .any⟩
/-- C.29:3 I_SETS (R405). -/
def C.I_SETS : Obj := ⟨.chan, 0x29, 3, 1, 1, .u16, .ro, .observer, .c 65535, .any⟩
/-- C.29:4 LAST_RUN (R405). -/
def C.LAST_RUN : Obj := ⟨.chan, 0x29, 4, 1, 1, .time96, .ro, .observer, .c 0, .any⟩
/-- C.29:5–7 V_OFS, V_GAIN, V_K2 (R405). -/
def C.V_OFS : Obj := ⟨.chan, 0x29, 5, 3, 1, .i32, .ro, .observer, .l [0, 0x40000000, 0], .any⟩
/-- C.29:8–10 I_OFS, I_GAIN, I_K2 (R405). -/
def C.I_OFS : Obj := ⟨.chan, 0x29, 8, 3, 1, .i32, .ro, .observer, .l [0, 0x40000000, 0], .any⟩
/-- C.2C,S.0A:1 FF_CODE (R433). -/
def C.FF_CODE : Obj := ⟨.chan, 0x2C, 1, 1, 1, .u16, .ro, .observer, .c 0, .any⟩
/-- C.2C,S.0A:2 FF_TIME (R433). -/
def C.FF_TIME : Obj := ⟨.chan, 0x2C, 2, 1, 1, .time96, .ro, .observer, .c 0, .any⟩
/-- C.2C,S.0A:3 FF_FLAGS (R433). -/
def C.FF_FLAGS : Obj := ⟨.chan, 0x2C, 3, 1, 1, .u8, .ro, .observer, .c 0, .any⟩
/-- C.2C,S.0A:4 FF_DETAIL (R433). -/
def C.FF_DETAIL : Obj := ⟨.chan, 0x2C, 4, 1, 1, .u32, .ro, .observer, .c 0, .any⟩
/-- C.2C,S.0A:5 FS_CODE (R433). -/
def C.FS_CODE : Obj := ⟨.chan, 0x2C, 5, 1, 1, .u16, .ro, .observer, .c 0, .any⟩
/-- C.2C,S.0A:6 FS_TIME (R433). -/
def C.FS_TIME : Obj := ⟨.chan, 0x2C, 6, 1, 1, .time96, .ro, .observer, .c 0, .any⟩
/-- C.2C,S.0A:7 FF_LATER (R433). -/
def C.FF_LATER : Obj := ⟨.chan, 0x2C, 7, 1, 1, .u32, .ro, .observer, .c 0, .any⟩
/-- C.2C,S.0A:8 FF_OVF (R433). -/
def C.FF_OVF : Obj := ⟨.chan, 0x2C, 8, 1, 1, .bool, .ro, .observer, .c 0, .any⟩
/-- C.2C,S.0A:9 STANDING (R433). -/
def C.STANDING : Obj := ⟨.chan, 0x2C, 9, 1, 1, .u8, .ro, .observer, .c 0, .any⟩
/-- C.2D,S.0B:1 FC_MASK (R434). -/
def C.FC_MASK : Obj := ⟨.chan, 0x2D, 1, 1, 1, .u64, .rw, .owner, .c 0, .any⟩
/-- C.2D,S.0B:2 FC_NOREACT (R434). -/
def C.FC_NOREACT : Obj := ⟨.chan, 0x2D, 2, 1, 1, .u64, .rw, .owner, .c 0, .any⟩
/-- C.2D,S.0B:3 FC_EVENTS (R434). -/
def C.FC_EVENTS : Obj := ⟨.chan, 0x2D, 3, 1, 1, .u32, .ro, .observer, .c 0, .any⟩
/-- C.0A:0 CTL_FLAGS (R63). -/
def C.CTL_FLAGS : Obj := ⟨.chan, 0x0A, 0, 1, 1, .u32, .rw, .operator, .c 0, .w1c 0xFFFF⟩

/-- Objects of the channel block, part 0 of the list. -/
def objectsC0 : List Obj := [C.CH_STATE, C.CH_CMD, C.MODE, C.STAGE_KIND, C.SETPOINT, C.ICP, C.ICN, C.VCP, C.VCN, C.RETURN_MARGIN, C.DEAD_TIME, C.MIN_PULSE, C.LIN_SHIFT, C.FF_SEL, C.FF_DATA, C.FF_ENABLE, C.FF_AUTOINC, C.BAND, C.BAND_MIN, C.BAND_MAX, C.LOCK_EN, C.LOCK_SHIFT, C.BAND_NOW, C.FSW_TARGET, C.FSW_MEAS, C.MISS_COUNT, C.HANDOVER_COUNT, C.OSC_COUNT, C.LAST_MISS_CAUSE, C.OSC_EN, C.OSC_THRESH, C.OSC_CYCLES, C.OSC_REACT, C.STUCK_COUNT, C.KELVIN_EN, C.KELVIN_WINDOW, C.SAT_COUNT, C.INJ_MODE, C.INJ_POINT, C.INJ_AMPL]

/-- Objects of the channel block, part 1 of the list. -/
def objectsC1 : List Obj := [C.INJ_PERIOD, C.INJ_PRBS, C.INJ_QUEUE, C.INJ_DECIM, C.INJ_COUNT, C.INJ_STATUS, C.I_RANGE, C.V_RANGE, C.I_NOW, C.V_NOW, C.RANGE_STATUS, C.PATTERN_I, C.PATTERN_V, C.FS_I, C.FS_V, C.I_RANGES, C.V_RANGES, C.T_MAKE, C.AR_I, C.AR_V, C.AR_UP, C.AR_UP_COUNT, C.AR_DOWN, C.AR_DWELL, C.RANGE_LOCK, C.MEMBER_COUNT, C.PHYS_TOTAL, C.LEVEL, C.MEMBER, C.MIN_MEMBERS, C.DERATE, C.WEIGHT, C.IL_EN, C.IL_SHIFT, C.HS_FLAGS, C.ACTIVE_MAP, C.ACTIVE_PHYS, C.LEADER, C.CAPACITY, C.IC_POS_NOW]

/-- Objects of the channel block, part 2 of the list. -/
def objectsC2 : List Obj := [C.IC_NEG_NOW, C.SHARE_LAG, C.V_VALUE, C.I_VALUE, C.V_RAW_MEAN, C.I_RAW_MEAN, C.V_RAW_LAST, C.I_RAW_LAST, C.V_LAST, C.I_LAST, C.V_MFLAGS, C.I_MFLAGS, C.V_SEQNO, C.I_SEQNO, C.V_START, C.I_START, C.V_COUNT, C.I_COUNT, C.AP_MODE, C.AP_LENGTH, C.LINE_FLUE, C.LINE_CYCLES, C.LINE_TIMEOUT, C.AP_RUN, C.AP_TB, C.ABANDONED, C.Q_ACC_VALUE, C.E_ACC_VALUE, C.Q_ACC_RAW, C.E_ACC_RAW, C.Q_ACC_CMD, C.E_ACC_CMD, C.Q_ACC_STATUS, C.E_ACC_STATUS, C.Q_ACC_SINCE, C.E_ACC_SINCE, C.Q_ACC_HELD, C.E_ACC_HELD, C.Z_MAG, C.Z_PHASE]

/-- Objects of the channel block, part 3 of the list. -/
def objectsC3 : List Obj := [C.Z_FREQ, C.V_AMPL, C.I_AMPL, C.LI_CYCLES, C.LI_SETTLE, C.LI_REF, C.LI_STATUS, C.LI_SEQNO, C.LI_EN, C.CONV_FLAGS, C.V_ADC, C.I_ADC, C.LP_MODE, C.ENTRY, C.PC, C.SQ_CMD, C.JUMP_TARGET, C.JUMP_FLUE, C.SQ_STATE, C.SQ_ERR, C.SQ_FLAGS, C.STEPS, C.POINT, C.SEG_NOW, C.SEG_NEXT, C.JUMP_STATUS, C.STARVES, C.LOOP_DEPTH, C.CALL_DEPTH, C.LOOP_COUNT, C.COND, C.START_TIME, C.LIMTUR, C.RESULT_QUEUE, C.EPOCH_MODE, C.EPOCH, C.SINE_FREQ, C.SINE_PHASE, C.AUTORUN, C.ACQ_QUEUE]

/-- Objects of the channel block, part 4 of the list. -/
def objectsC4 : List Obj := [C.DATA, C.PRE, C.POST, C.DECIM, C.TRIG_SRC, C.TRIG_DIR, C.TRIG_LEVEL, C.TRIG_HYST, C.SLOPE_SPAN, C.TRIG_FLUE, C.TRIG_TIME, C.ACQ_TB, C.ARM_FLUE, C.AUTO_REARM, C.TGROUP, C.STREAM, C.CHUNK, C.ACQ_CMD, C.MASK_EN, C.MASK_SEG, C.MASK_LEN, C.MASK_VAR, C.MASK_ALIGN, C.MASK_STOPSEQ, C.VIOL_COUNT, C.ACQ_STATE, C.ACQ_ERR, C.CAP_SEQ, C.TRIG_MISSED, C.PRE_NOW, C.POST_NOW, C.LOST, C.VIOL_INDEX, C.LAST_TRIG, C.ARM_WAITS, C.LAST_FLAGS, C.FREEZE_FLUE, C.FREEZE_TIME, C.OFF_FLUE, C.FROZEN]

/-- Objects of the channel block, part 5 of the list. -/
def objectsC5 : List Obj := [C.TS_SRC, C.TS_ENTRY, C.TS_OFS, C.TS_SLOPE, C.T_FIXED, C.TS_HYST, C.T_NOW, C.T_APPLIED, C.CS_FLAGS, C.V_SETS, C.I_SETS, C.LAST_RUN, C.V_OFS, C.I_OFS, C.FF_CODE, C.FF_TIME, C.FF_FLAGS, C.FF_DETAIL, C.FS_CODE, C.FS_TIME, C.FF_LATER, C.FF_OVF, C.STANDING, C.FC_MASK, C.FC_NOREACT, C.FC_EVENTS, C.CTL_FLAGS]

/-- Every object of the channel block. -/
def objectsC : List Obj := objectsC0 ++ objectsC1 ++ objectsC2 ++ objectsC3 ++ objectsC4 ++ objectsC5

/-- S.03:1 REFRESH (R103). -/
def S.REFRESH : Obj := ⟨.stove, 0x03, 1, 1, 1, .u32, .rw, .owner, .c 0x7A120, .zeroOr 5000 1073741824⟩
/-- S.03:2 TRANSFERS (R103). -/
def S.TRANSFERS : Obj := ⟨.stove, 0x03, 2, 1, 1, .u32, .ro, .observer, .c 0, .any⟩
/-- S.03:3 RETRIES (R103). -/
def S.RETRIES : Obj := ⟨.stove, 0x03, 3, 1, 1, .u32, .rw, .operator, .c 0, .counter⟩
/-- S.03:4 UPSETS (R103). -/
def S.UPSETS : Obj := ⟨.stove, 0x03, 4, 1, 1, .u32, .rw, .operator, .c 0, .counter⟩
/-- S.03:5 FIRST_BAD_BIT (R103). -/
def S.FIRST_BAD_BIT : Obj := ⟨.stove, 0x03, 5, 1, 1, .u8, .ro, .observer, .c 0, .any⟩
/-- S.03:6 CHAIN_LENGTH (R103). -/
def S.CHAIN_LENGTH : Obj := ⟨.stove, 0x03, 6, 1, 1, .u8, .const_, .observer, .c 128, .any⟩
/-- S.05:1 SE_CMD (R109). -/
def S.SE_CMD : Obj := ⟨.stove, 0x05, 1, 1, 1, .bool, .rw, .owner, .c 0, .any⟩
/-- S.05:2 SE_PIN (R109). -/
def S.SE_PIN : Obj := ⟨.stove, 0x05, 2, 1, 1, .bool, .ro, .observer, .c 0, .any⟩
/-- S.05:3 SE_BLOCK (R109). -/
def S.SE_BLOCK : Obj := ⟨.stove, 0x05, 3, 1, 1, .u8, .ro, .observer, .c 1, .any⟩
/-- S.06:1 ILK_LEVEL (R114). -/
def S.ILK_LEVEL : Obj := ⟨.stove, 0x06, 1, 1, 1, .bool, .ro, .observer, .c 0, .any⟩
/-- S.06:2 ILK_EVENTS (R114). -/
def S.ILK_EVENTS : Obj := ⟨.stove, 0x06, 2, 1, 1, .u32, .rw, .operator, .c 0, .counter⟩
/-- S.06:3 ILK_LAST (R114). -/
def S.ILK_LAST : Obj := ⟨.stove, 0x06, 3, 1, 1, .time96, .ro, .observer, .c 0, .any⟩
/-- S.04:1 ROT_EN (R166). -/
def S.ROT_EN : Obj := ⟨.stove, 0x04, 1, 1, 1, .bool, .rw, .owner, .c 1, .any⟩
/-- S.04:2 ROT_INTERVAL (R166). -/
def S.ROT_INTERVAL : Obj := ⟨.stove, 0x04, 2, 1, 1, .u32, .rw, .owner, .c 60000, .range 0 86400000⟩
/-- S.04:3 MATCH_COUNT (R166). -/
def S.MATCH_COUNT : Obj := ⟨.stove, 0x04, 3, 1, 1, .u32, .rw, .owner, .c 65536, .range 4096 16777216⟩
/-- S.04:4 MATCH_LIMIT (R166). -/
def S.MATCH_LIMIT : Obj := ⟨.stove, 0x04, 4, 1, 1, .u32, .rw, .owner, .c 0x346DC, .any⟩
/-- S.04:5 ROT_STATE (R166). -/
def S.ROT_STATE : Obj := ⟨.stove, 0x04, 5, 1, 1, .u8, .ro, .observer, .c 0, .any⟩
/-- S.04:6 ROT_ROLE (R166). -/
def S.ROT_ROLE : Obj := ⟨.stove, 0x04, 6, 1, 1, .u8, .ro, .observer, .c 255, .any⟩
/-- S.04:7 ROT_NEXT (R166). -/
def S.ROT_NEXT : Obj := ⟨.stove, 0x04, 7, 1, 1, .u8, .rw, .operator, .c 0, .range 0 31⟩
/-- S.04:8 SWAPS (R166). -/
def S.SWAPS : Obj := ⟨.stove, 0x04, 8, 1, 1, .u32, .ro, .observer, .c 0, .any⟩
/-- S.04:9 MATCH_FAILS (R166). -/
def S.MATCH_FAILS : Obj := ⟨.stove, 0x04, 9, 1, 1, .u32, .rw, .operator, .c 0, .counter⟩
/-- S.04:10 FREE_SPARES (R166). -/
def S.FREE_SPARES : Obj := ⟨.stove, 0x04, 10, 1, 1, .u8, .ro, .observer, .c 2, .any⟩
/-- S.04:11 LAST_DIFF (R166). -/
def S.LAST_DIFF : Obj := ⟨.stove, 0x04, 11, 1, 1, .i32, .ro, .observer, .c 0, .any⟩
/-- S.04:16–49 ROLE (R166). -/
def S.ROLE : Obj := ⟨.stove, 0x04, 16, 34, 1, .u8, .ro, .observer, .c 0, .any⟩
/-- S.07:1 AUX_LEN (R177). -/
def S.AUX_LEN : Obj := ⟨.stove, 0x07, 1, 1, 1, .u8, .rw, .operator, .c 16, .range 1 16⟩
/-- S.07:2 AUX_START (R177). -/
def S.AUX_START : Obj := ⟨.stove, 0x07, 2, 1, 1, .u8, .wo, .operator, .c 0, .range 1 1⟩
/-- S.07:3 START_FLUE (R177). -/
def S.START_FLUE : Obj := ⟨.stove, 0x07, 3, 1, 1, .u16, .rw, .owner, .c 65535, .orNone 1023 0xFFFF⟩
/-- S.07:4 REPEAT (R177). -/
def S.REPEAT : Obj := ⟨.stove, 0x07, 4, 1, 1, .bool, .rw, .operator, .c 1, .any⟩
/-- S.07:5 AUX_LP (R177). -/
def S.AUX_LP : Obj := ⟨.stove, 0x07, 5, 1, 1, .bool, .rw, .owner, .c 0, .any⟩
/-- S.07:6 AUX_STATE (R177). -/
def S.AUX_STATE : Obj := ⟨.stove, 0x07, 6, 1, 1, .u8, .ro, .observer, .c 0, .any⟩
/-- S.07:7 OVERRUNS (R177). -/
def S.OVERRUNS : Obj := ⟨.stove, 0x07, 7, 1, 1, .u32, .rw, .operator, .c 0, .counter⟩
/-- S.07:8 URG_ENTRY (R177). -/
def S.URG_ENTRY : Obj := ⟨.stove, 0x07, 8, 1, 1, .u32, .rw, .operator, .c 15378, .special⟩
/-- S.07:9 URG_CMD (R177). -/
def S.URG_CMD : Obj := ⟨.stove, 0x07, 9, 1, 1, .u8, .wo, .operator, .c 0, .range 1 1⟩
/-- S.07:10 URG_FLUE (R177). -/
def S.URG_FLUE : Obj := ⟨.stove, 0x07, 10, 1, 1, .u16, .rw, .owner, .c 65535, .orNone 1023 0xFFFF⟩
/-- S.07:11 URG_OVERRUNS (R177). -/
def S.URG_OVERRUNS : Obj := ⟨.stove, 0x07, 11, 1, 1, .u32, .rw, .operator, .c 0, .counter⟩
/-- S.07:12 SEQ_COUNT (R177). -/
def S.SEQ_COUNT : Obj := ⟨.stove, 0x07, 12, 1, 1, .u32, .ro, .observer, .c 0, .any⟩
/-- S.07:13 CMP_START (R177). -/
def S.CMP_START : Obj := ⟨.stove, 0x07, 13, 1, 1, .u16, .rw, .owner, .c 0, .keep 0x0FFF⟩
/-- S.02:1–16 AUX_CODE (R178). -/
def S.AUX_CODE : Obj := ⟨.stove, 0x02, 1, 16, 1, .u16, .ro, .observer, .c 0, .any⟩
/-- S.02:17–32 AUX_VALUE (R178). -/
def S.AUX_VALUE : Obj := ⟨.stove, 0x02, 17, 16, 1, .f32, .ro, .observer, .c 0, .any⟩
/-- S.02:33 URG_CODE (R178). -/
def S.URG_CODE : Obj := ⟨.stove, 0x02, 33, 1, 1, .u16, .ro, .observer, .c 0, .any⟩
/-- S.02:34 URG_VALUE (R178). -/
def S.URG_VALUE : Obj := ⟨.stove, 0x02, 34, 1, 1, .f32, .ro, .observer, .c 0, .any⟩
/-- S.02:35 SEQ_START (R178). -/
def S.SEQ_START : Obj := ⟨.stove, 0x02, 35, 1, 1, .time96, .ro, .observer, .c 0, .any⟩
/-- S.08:1–12 CMP (R183). -/
def S.CMP : Obj := ⟨.stove, 0x08, 1, 12, 1, .u16, .rw, .owner, .c 0, .keep 0xCFFF⟩
/-- S.08:13 CMP_LEVEL (R183). -/
def S.CMP_LEVEL : Obj := ⟨.stove, 0x08, 13, 1, 1, .u16, .ro, .observer, .c 0, .any⟩
/-- S.09:1 TD_CODE (R184). -/
def S.TD_CODE : Obj := ⟨.stove, 0x09, 1, 1, 1, .u16, .rw, .owner, .c 0, .range 0 1023⟩
/-- S.09:2 TD_ROUTE (R184). -/
def S.TD_ROUTE : Obj := ⟨.stove, 0x09, 2, 1, 1, .u8, .rw, .owner, .c 0, .range 0 2⟩
/-- S.09:3 TD_CHANNEL (R184). -/
def S.TD_CHANNEL : Obj := ⟨.stove, 0x09, 3, 1, 1, .u8, .rw, .owner, .c 0, .range 0 15⟩
/-- S.00:1 ST_STATE (R390). -/
def S.ST_STATE : Obj := ⟨.stove, 0x00, 1, 1, 1, .u8, .ro, .observer, .c 0, .any⟩
/-- S.00:2 ST_HALF (R390). -/
def S.ST_HALF : Obj := ⟨.stove, 0x00, 2, 1, 1, .u8, .const_, .observer, .div 8, .any⟩
/-- S.00:3 ST_DIE (R390). -/
def S.ST_DIE : Obj := ⟨.stove, 0x00, 3, 1, 1, .u8, .const_, .observer, .div 4, .any⟩
/-- S.00:4 ST_SOURCE (R390). -/
def S.ST_SOURCE : Obj := ⟨.stove, 0x00, 4, 1, 1, .u16, .ro, .observer, .c 0, .any⟩
/-- S.00:5 ST_FENCED (R390). -/
def S.ST_FENCED : Obj := ⟨.stove, 0x00, 5, 1, 1, .u16, .ro, .observer, .c 0, .any⟩
/-- S.00:6 ST_LEAVES (R390). -/
def S.ST_LEAVES : Obj := ⟨.stove, 0x00, 6, 1, 1, .u16, .ro, .observer, .c 0, .any⟩
/-- S.00:7 SLOT_OVERRUNS (R390). -/
def S.SLOT_OVERRUNS : Obj := ⟨.stove, 0x00, 7, 1, 1, .u32, .rw, .operator, .c 0, .counter⟩
/-- S.00:8 IDLE_CC (R390). -/
def S.IDLE_CC : Obj := ⟨.stove, 0x00, 8, 1, 1, .u8, .ro, .observer, .c 4, .any⟩
/-- C.2C,S.0A:1 FF_CODE (R433). -/
def S.FF_CODE : Obj := ⟨.stove, 0x0A, 1, 1, 1, .u16, .ro, .observer, .c 0, .any⟩
/-- C.2C,S.0A:2 FF_TIME (R433). -/
def S.FF_TIME : Obj := ⟨.stove, 0x0A, 2, 1, 1, .time96, .ro, .observer, .c 0, .any⟩
/-- C.2C,S.0A:3 FF_FLAGS (R433). -/
def S.FF_FLAGS : Obj := ⟨.stove, 0x0A, 3, 1, 1, .u8, .ro, .observer, .c 0, .any⟩
/-- C.2C,S.0A:4 FF_DETAIL (R433). -/
def S.FF_DETAIL : Obj := ⟨.stove, 0x0A, 4, 1, 1, .u32, .ro, .observer, .c 0, .any⟩
/-- C.2C,S.0A:5 FS_CODE (R433). -/
def S.FS_CODE : Obj := ⟨.stove, 0x0A, 5, 1, 1, .u16, .ro, .observer, .c 0, .any⟩
/-- C.2C,S.0A:6 FS_TIME (R433). -/
def S.FS_TIME : Obj := ⟨.stove, 0x0A, 6, 1, 1, .time96, .ro, .observer, .c 0, .any⟩
/-- C.2C,S.0A:7 FF_LATER (R433). -/
def S.FF_LATER : Obj := ⟨.stove, 0x0A, 7, 1, 1, .u32, .ro, .observer, .c 0, .any⟩
/-- C.2C,S.0A:8 FF_OVF (R433). -/
def S.FF_OVF : Obj := ⟨.stove, 0x0A, 8, 1, 1, .bool, .ro, .observer, .c 0, .any⟩
/-- C.2C,S.0A:9 STANDING (R433). -/
def S.STANDING : Obj := ⟨.stove, 0x0A, 9, 1, 1, .u8, .ro, .observer, .c 0, .any⟩
/-- C.2D,S.0B:1 FC_MASK (R434). -/
def S.FC_MASK : Obj := ⟨.stove, 0x0B, 1, 1, 1, .u64, .rw, .owner, .c 0, .any⟩
/-- C.2D,S.0B:2 FC_NOREACT (R434). -/
def S.FC_NOREACT : Obj := ⟨.stove, 0x0B, 2, 1, 1, .u64, .rw, .owner, .c 0, .any⟩
/-- C.2D,S.0B:3 FC_EVENTS (R434). -/
def S.FC_EVENTS : Obj := ⟨.stove, 0x0B, 3, 1, 1, .u32, .ro, .observer, .c 0, .any⟩
/-- S.01:1–16 AUX_SEQ (R176). -/
def S.AUX_SEQ : Obj := ⟨.stove, 0x01, 1, 16, 1, .u32, .rw, .operator, .l [15360, 15361, 15362, 15363, 15364, 15365, 15366, 15367, 15368, 15369, 15370, 15371, 15376, 15377, 15378, 15380], .special⟩

/-- Objects of the stove block, part 0 of the list. -/
def objectsS0 : List Obj := [S.REFRESH, S.TRANSFERS, S.RETRIES, S.UPSETS, S.FIRST_BAD_BIT, S.CHAIN_LENGTH, S.SE_CMD, S.SE_PIN, S.SE_BLOCK, S.ILK_LEVEL, S.ILK_EVENTS, S.ILK_LAST, S.ROT_EN, S.ROT_INTERVAL, S.MATCH_COUNT, S.MATCH_LIMIT, S.ROT_STATE, S.ROT_ROLE, S.ROT_NEXT, S.SWAPS, S.MATCH_FAILS, S.FREE_SPARES, S.LAST_DIFF, S.ROLE, S.AUX_LEN, S.AUX_START, S.START_FLUE, S.REPEAT, S.AUX_LP, S.AUX_STATE, S.OVERRUNS, S.URG_ENTRY, S.URG_CMD, S.URG_FLUE, S.URG_OVERRUNS, S.SEQ_COUNT, S.CMP_START, S.AUX_CODE, S.AUX_VALUE, S.URG_CODE]

/-- Objects of the stove block, part 1 of the list. -/
def objectsS1 : List Obj := [S.URG_VALUE, S.SEQ_START, S.CMP, S.CMP_LEVEL, S.TD_CODE, S.TD_ROUTE, S.TD_CHANNEL, S.ST_STATE, S.ST_HALF, S.ST_DIE, S.ST_SOURCE, S.ST_FENCED, S.ST_LEAVES, S.SLOT_OVERRUNS, S.IDLE_CC, S.FF_CODE, S.FF_TIME, S.FF_FLAGS, S.FF_DETAIL, S.FS_CODE, S.FS_TIME, S.FF_LATER, S.FF_OVF, S.STANDING, S.FC_MASK, S.FC_NOREACT, S.FC_EVENTS, S.AUX_SEQ]

/-- Every object of the stove block. -/
def objectsS : List Obj := objectsS0 ++ objectsS1

/-- 0x2410:1 SC_CMD (R159). -/
def D.SC_CMD : Obj := ⟨.dev, 0x2410, 1, 1, 1, .u8, .wo, .owner, .c 0, .range 1 1⟩
/-- 0x2410:2 SC_STATUS (R159). -/
def D.SC_STATUS : Obj := ⟨.dev, 0x2410, 2, 1, 1, .u8, .ro, .observer, .c 0, .any⟩
/-- 0x2410:3 SC_ELAPSED (R159). -/
def D.SC_ELAPSED : Obj := ⟨.dev, 0x2410, 3, 1, 1, .u32, .ro, .observer, .c 0, .any⟩
/-- 0x2410:4 SC_FAILED (R159). -/
def D.SC_FAILED : Obj := ⟨.dev, 0x2410, 4, 1, 1, .u16, .ro, .observer, .c 0, .any⟩
/-- 0x2410:5 SC_SKIPPED (R159). -/
def D.SC_SKIPPED : Obj := ⟨.dev, 0x2410, 5, 1, 1, .u16, .ro, .observer, .c 0, .any⟩
/-- 0x2410:6 SC_DONE (R159). -/
def D.SC_DONE : Obj := ⟨.dev, 0x2410, 6, 1, 1, .time96, .ro, .observer, .c 0, .any⟩
/-- 0x2412:1 TRIM_SEL (R163). -/
def D.TRIM_SEL : Obj := ⟨.dev, 0x2412, 1, 1, 1, .u16, .rw, .observer, .c 0, .special⟩
/-- 0x2412:2–8 STAGE_GAIN (R163). -/
def D.STAGE_GAIN : Obj := ⟨.dev, 0x2412, 2, 7, 1, .i16, .ro, .observer, .c 0, .any⟩
/-- 0x2412:9–15 STAGE_OFS (R163). -/
def D.STAGE_OFS : Obj := ⟨.dev, 0x2412, 9, 7, 1, .i16, .ro, .observer, .c 0, .any⟩
/-- 0x2412:16 ABS_GAIN (R163). -/
def D.ABS_GAIN : Obj := ⟨.dev, 0x2412, 16, 1, 1, .i32, .ro, .observer, .c 0, .any⟩
/-- 0x2412:17 RESIDUAL (R163). -/
def D.RESIDUAL : Obj := ⟨.dev, 0x2412, 17, 1, 1, .u16, .ro, .observer, .c 0, .any⟩
/-- 0x2412:18 TRIM_RESULT (R163). -/
def D.TRIM_RESULT : Obj := ⟨.dev, 0x2412, 18, 1, 1, .u8, .ro, .observer, .c 0, .any⟩
/-- 0x2412:19 TRIM_TIME (R163). -/
def D.TRIM_TIME : Obj := ⟨.dev, 0x2412, 19, 1, 1, .time96, .ro, .observer, .c 0, .any⟩
/-- 0x2412:20 MATCH_OFS (R163). -/
def D.MATCH_OFS : Obj := ⟨.dev, 0x2412, 20, 1, 1, .i32, .ro, .observer, .c 0, .any⟩
/-- 0x2412:21 MATCH_GAIN (R163). -/
def D.MATCH_GAIN : Obj := ⟨.dev, 0x2412, 21, 1, 1, .u32, .ro, .observer, .c 0x40000000, .any⟩
/-- 0xA000:1 SEG_SEL (R189). -/
def D.SEG_SEL : Obj := ⟨.dev, 0xA000, 1, 1, 1, .u16, .rw, .observer, .c 0, .range 0 4095⟩
/-- 0xA000:2 SEG_OFS (R189). -/
def D.SEG_OFS : Obj := ⟨.dev, 0xA000, 2, 1, 1, .u16, .rw, .observer, .c 0, .special⟩
/-- 0xA001:1 KIND (R189). -/
def D.KIND : Obj := ⟨.dev, 0xA001, 1, 1, 1, .u8, .rw, .owner, .c 0, .range 0 5⟩
/-- 0xA001:2 NEXT (R189). -/
def D.NEXT : Obj := ⟨.dev, 0xA001, 2, 1, 1, .u16, .rw, .owner, .c 65535, .orNone 4095 65535⟩
/-- 0xA001:3 LEN (R189). -/
def D.LEN : Obj := ⟨.dev, 0xA001, 3, 1, 1, .u16, .rw, .owner, .c 1024, .range 1 1024⟩
/-- 0xA001:4 FILLED (R189). -/
def D.FILLED : Obj := ⟨.dev, 0xA001, 4, 1, 1, .bool, .rw, .owner, .c 0, .any⟩
/-- 0xA001:5 UF_ACTION (R189). -/
def D.UF_ACTION : Obj := ⟨.dev, 0xA001, 5, 1, 1, .u8, .rw, .owner, .c 0, .range 0 2⟩
/-- 0xA001:6 SAFE_SEG (R189). -/
def D.SAFE_SEG : Obj := ⟨.dev, 0xA001, 6, 1, 1, .u16, .rw, .owner, .c 65535, .orNone 4095 65535⟩
/-- 0xA001:7 ACTIVE (R189). -/
def D.ACTIVE : Obj := ⟨.dev, 0xA001, 7, 1, 1, .u8, .ro, .observer, .c 0, .any⟩
/-- 0xA001:8 SEG_CRC (R189). -/
def D.SEG_CRC : Obj := ⟨.dev, 0xA001, 8, 1, 1, .u32, .ro, .observer, .c 0, .any⟩
/-- 0xA002:1 SEG_DATA (R189). -/
def D.SEG_DATA : Obj := ⟨.dev, 0xA002, 1, 1, 1, .domain, .rw, .owner, .c 0, .any⟩
/-- 0xA010:1 AR_EN (R222). -/
def D.AR_EN : Obj := ⟨.dev, 0xA010, 1, 1, 1, .bool, .rw, .owner, .c 0, .any⟩
/-- 0xA010:2 AR_TRIGGER (R222). -/
def D.AR_TRIGGER : Obj := ⟨.dev, 0xA010, 2, 1, 1, .u8, .rw, .owner, .c 0, .range 0 1⟩
/-- 0xA010:3 AR_FLUE (R222). -/
def D.AR_FLUE : Obj := ⟨.dev, 0xA010, 3, 1, 1, .u16, .rw, .owner, .c 65535, .orNone 1023 0xFFFF⟩
/-- 0xA010:4 AR_STATUS (R222). -/
def D.AR_STATUS : Obj := ⟨.dev, 0xA010, 4, 1, 1, .u8, .ro, .observer, .c 0, .any⟩
/-- 0xA010:5 AR_STARTED (R222). -/
def D.AR_STARTED : Obj := ⟨.dev, 0xA010, 5, 1, 1, .u16, .ro, .observer, .c 0, .any⟩
/-- 0xA010:6 AR_REFUSED (R222). -/
def D.AR_REFUSED : Obj := ⟨.dev, 0xA010, 6, 1, 1, .u16, .ro, .observer, .c 0, .any⟩
/-- 0xB000+g:1 TG_MASTER (R248). -/
def D.TG_MASTER : Obj := ⟨.dev, 0xB000, 1, 1, 64, .u16, .rw, .owner, .c 65535, .orNone 383 65535⟩
/-- 0xB000+g:2 TG_CMD (R248). -/
def D.TG_CMD : Obj := ⟨.dev, 0xB000, 2, 1, 64, .u8, .wo, .operator, .c 0, .range 1 3⟩
/-- 0xB000+g:3 TG_STATE (R248). -/
def D.TG_STATE : Obj := ⟨.dev, 0xB000, 3, 1, 64, .u8, .ro, .observer, .c 0, .any⟩
/-- 0xB000+g:4 TG_AUTO (R248). -/
def D.TG_AUTO : Obj := ⟨.dev, 0xB000, 4, 1, 64, .bool, .rw, .owner, .c 0, .any⟩
/-- 0xB000+g:5 TG_MEMBERS (R248). -/
def D.TG_MEMBERS : Obj := ⟨.dev, 0xB000, 5, 1, 64, .u16, .ro, .observer, .c 0, .any⟩
/-- 0xB000+g:6 TG_FIRES (R248). -/
def D.TG_FIRES : Obj := ⟨.dev, 0xB000, 6, 1, 64, .u32, .ro, .observer, .c 0, .any⟩
/-- 0xB000+g:7 TG_LAST_UNIT (R248). -/
def D.TG_LAST_UNIT : Obj := ⟨.dev, 0xB000, 7, 1, 64, .u16, .ro, .observer, .c 65535, .any⟩
/-- 0xB000+g:8 TG_LAST_TIME (R248). -/
def D.TG_LAST_TIME : Obj := ⟨.dev, 0xB000, 8, 1, 64, .time96, .ro, .observer, .c 0, .any⟩
/-- 0x2503:1–4 QUOTA (R276). -/
def D.QUOTA : Obj := ⟨.dev, 0x2503, 1, 4, 1, .u32, .rw, .owner, .c 0x4000000, .range 0 67108864⟩
/-- 0x2503:5–8 USE (R276). -/
def D.USE : Obj := ⟨.dev, 0x2503, 5, 4, 1, .u32, .ro, .observer, .c 0, .any⟩
/-- 0x2503:9–12 QDROPS (R276). -/
def D.QDROPS : Obj := ⟨.dev, 0x2503, 9, 4, 1, .u32, .rw, .operator, .c 0, .counter⟩
/-- 0x2500:1 Q_SEL (R284). -/
def D.Q_SEL : Obj := ⟨.dev, 0x2500, 1, 1, 1, .u16, .rw, .observer, .c 0, .range 0 65535⟩
/-- 0x2501:1 BASE (R285). -/
def D.BASE : Obj := ⟨.dev, 0x2501, 1, 1, 1, .u32, .rw, .owner, .c 0, .special⟩
/-- 0x2501:2 SIZE_LOG2 (R285). -/
def D.SIZE_LOG2 : Obj := ⟨.dev, 0x2501, 2, 1, 1, .u8, .rw, .owner, .c 0, .range 10 24⟩
/-- 0x2501:3 ENABLE (R285). -/
def D.ENABLE : Obj := ⟨.dev, 0x2501, 3, 1, 1, .bool, .rw, .owner, .c 0, .any⟩
/-- 0x2501:4 WATERMARK (R285). -/
def D.WATERMARK : Obj := ⟨.dev, 0x2501, 4, 1, 1, .u32, .rw, .operator, .c 0, .special⟩
/-- 0x2501:5 WM_FLUE (R285). -/
def D.WM_FLUE : Obj := ⟨.dev, 0x2501, 5, 1, 1, .u16, .rw, .owner, .c 65535, .orNone 1023 65535⟩
/-- 0x2501:6 MARK_FLUE (R285). -/
def D.MARK_FLUE : Obj := ⟨.dev, 0x2501, 6, 1, 1, .u16, .rw, .owner, .c 65535, .orNone 1023 65535⟩
/-- 0x2501:7 RD_PTR (R285). -/
def D.RD_PTR : Obj := ⟨.dev, 0x2501, 7, 1, 1, .u32, .ro, .observer, .c 0, .any⟩
/-- 0x2501:8 CM_PTR (R285). -/
def D.CM_PTR : Obj := ⟨.dev, 0x2501, 8, 1, 1, .u32, .ro, .observer, .c 0, .any⟩
/-- 0x2501:9 WR_PTR (R285). -/
def D.WR_PTR : Obj := ⟨.dev, 0x2501, 9, 1, 1, .u32, .ro, .observer, .c 0, .any⟩
/-- 0x2501:10 LEVEL (R285). -/
def D.LEVEL : Obj := ⟨.dev, 0x2501, 10, 1, 1, .u32, .ro, .observer, .c 0, .any⟩
/-- 0x2501:11 AVAIL (R285). -/
def D.AVAIL : Obj := ⟨.dev, 0x2501, 11, 1, 1, .u32, .ro, .observer, .c 0, .any⟩
/-- 0x2501:12 REMAIN (R285). -/
def D.REMAIN : Obj := ⟨.dev, 0x2501, 12, 1, 1, .u32, .ro, .observer, .c 0, .any⟩
/-- 0x2501:13 Q_STATUS (R285). -/
def D.Q_STATUS : Obj := ⟨.dev, 0x2501, 13, 1, 1, .u16, .rw, .operator, .c 1, .w1c 0x0138⟩
/-- 0x2501:14 DROPPED (R285). -/
def D.DROPPED : Obj := ⟨.dev, 0x2501, 14, 1, 1, .u32, .rw, .operator, .c 0, .counter⟩
/-- 0x2501:15 GAPS (R285). -/
def D.GAPS : Obj := ⟨.dev, 0x2501, 15, 1, 1, .u32, .rw, .operator, .c 0, .counter⟩
/-- 0x2501:16 WM_CROSSINGS (R285). -/
def D.WM_CROSSINGS : Obj := ⟨.dev, 0x2501, 16, 1, 1, .u32, .rw, .operator, .c 0, .counter⟩
/-- 0x2501:17 LAST_READ (R285). -/
def D.LAST_READ : Obj := ⟨.dev, 0x2501, 17, 1, 1, .u32, .ro, .observer, .c 0, .any⟩
/-- 0x2501:18 CONSUMER (R285). -/
def D.CONSUMER : Obj := ⟨.dev, 0x2501, 18, 1, 1, .u8, .ro, .observer, .c 0, .any⟩
/-- 0x2501:19 PENDING_GAP (R285). -/
def D.PENDING_GAP : Obj := ⟨.dev, 0x2501, 19, 1, 1, .u32, .ro, .observer, .c 0, .any⟩
/-- 0x2502:1 QC_CMD (R286). -/
def D.QC_CMD : Obj := ⟨.dev, 0x2502, 1, 1, 1, .u8, .wo, .operator, .c 0, .range 1 3⟩
/-- 0x2502:2 QC_ARG (R286). -/
def D.QC_ARG : Obj := ⟨.dev, 0x2502, 2, 1, 1, .u16, .rw, .operator, .c 0, .any⟩
/-- 0x2504:1 Q_WORD (R286). -/
def D.Q_WORD : Obj := ⟨.dev, 0x2504, 1, 1, 1, .u32, .ro, .observer, .c 0, .any⟩
/-- 0x2504:2 Q_BLOCK (R286). -/
def D.Q_BLOCK : Obj := ⟨.dev, 0x2504, 2, 1, 1, .domain, .ro, .observer, .c 0, .any⟩
/-- 0x2202:1 SRC_SEL (R293). -/
def D.SRC_SEL : Obj := ⟨.dev, 0x2202, 1, 1, 1, .u16, .rw, .observer, .c 0, .special⟩
/-- 0x2202:2 SRC_FLUE (R293). -/
def D.SRC_FLUE : Obj := ⟨.dev, 0x2202, 2, 1, 1, .u16, .rw, .owner, .c 65535, .orNone 1023 65535⟩
/-- 0x2202:3 SRC_COUNT (R293). -/
def D.SRC_COUNT : Obj := ⟨.dev, 0x2202, 3, 1, 1, .u32, .ro, .observer, .c 0, .any⟩
/-- 0x2203:1 CONS_SEL (R297). -/
def D.CONS_SEL : Obj := ⟨.dev, 0x2203, 1, 1, 1, .u32, .rw, .observer, .c 0, .special⟩
/-- 0x2203:2 GATE (R297). -/
def D.GATE : Obj := ⟨.dev, 0x2203, 2, 1, 1, .u16, .rw, .owner, .c 0, .special⟩
/-- 0x2203:3 C_STATUS (R297). -/
def D.C_STATUS : Obj := ⟨.dev, 0x2203, 3, 1, 1, .u8, .rw, .operator, .c 0, .w1c 3⟩
/-- 0x2203:4 C_OVERRUNS (R297). -/
def D.C_OVERRUNS : Obj := ⟨.dev, 0x2203, 4, 1, 1, .u32, .rw, .operator, .c 0, .counter⟩
/-- 0x2203:5 C_MERGES (R297). -/
def D.C_MERGES : Obj := ⟨.dev, 0x2203, 5, 1, 1, .u32, .rw, .operator, .c 0, .counter⟩
/-- 0x2203:6 C_GATED (R297). -/
def D.C_GATED : Obj := ⟨.dev, 0x2203, 6, 1, 1, .u32, .rw, .operator, .c 0, .counter⟩
/-- 0x2201:1 FIRE (R304). -/
def D.FIRE : Obj := ⟨.dev, 0x2201, 1, 1, 1, .u16, .wo, .operator, .c 0, .range 0 1023⟩
/-- 0x2201:2 FIRE_BLOCK (R304). -/
def D.FIRE_BLOCK : Obj := ⟨.dev, 0x2201, 2, 1, 1, .u8, .rw, .observer, .c 0, .range 0 31⟩
/-- 0x2201:3 FIRE_BITS (R304). -/
def D.FIRE_BITS : Obj := ⟨.dev, 0x2201, 3, 1, 1, .u32, .wo, .operator, .c 0, .any⟩
/-- 0x2200:1 F_SEL (R305). -/
def D.F_SEL : Obj := ⟨.dev, 0x2200, 1, 1, 1, .u16, .rw, .observer, .c 0, .range 0 1023⟩
/-- 0x2204:1 F_LEVEL (R305). -/
def D.F_LEVEL : Obj := ⟨.dev, 0x2204, 1, 1, 1, .bool, .ro, .observer, .c 0, .any⟩
/-- 0x2204:2 F_SOFT (R305). -/
def D.F_SOFT : Obj := ⟨.dev, 0x2204, 2, 1, 1, .bool, .rw, .operator, .c 0, .any⟩
/-- 0x2204:3 F_EVENTS (R305). -/
def D.F_EVENTS : Obj := ⟨.dev, 0x2204, 3, 1, 1, .u32, .ro, .observer, .c 0, .any⟩
/-- 0x2204:4 F_MERGES (R305). -/
def D.F_MERGES : Obj := ⟨.dev, 0x2204, 4, 1, 1, .u32, .rw, .operator, .c 0, .counter⟩
/-- 0x2204:5 F_LAST (R305). -/
def D.F_LAST : Obj := ⟨.dev, 0x2204, 5, 1, 1, .time96, .ro, .observer, .c 0, .any⟩
/-- 0x2204:6 F_LAST_GEN (R305). -/
def D.F_LAST_GEN : Obj := ⟨.dev, 0x2204, 6, 1, 1, .u8, .ro, .observer, .c 0, .any⟩
/-- 0x2205:1 FL_FLAGS (R305). -/
def D.FL_FLAGS : Obj := ⟨.dev, 0x2205, 1, 1, 1, .u16, .rw, .operator, .c 0, .w1c 1⟩
/-- 0x2205:2 LOOP_FLUE (R305). -/
def D.LOOP_FLUE : Obj := ⟨.dev, 0x2205, 2, 1, 1, .u16, .ro, .observer, .c 65535, .any⟩
/-- 0x2205:3 LOOPS_CUT (R305). -/
def D.LOOPS_CUT : Obj := ⟨.dev, 0x2205, 3, 1, 1, .u32, .rw, .operator, .c 0, .counter⟩
/-- 0x2100+t:1 TB_NOW (R315). -/
def D.TB_NOW : Obj := ⟨.dev, 0x2100, 1, 1, 4, .time96, .ro, .observer, .c 0, .any⟩
/-- 0x2100+t:2 TB_FRAC (R315). -/
def D.TB_FRAC : Obj := ⟨.dev, 0x2100, 2, 1, 4, .u16, .ro, .observer, .c 0, .any⟩
/-- 0x2100+t:3 TB_INC (R315). -/
def D.TB_INC : Obj := ⟨.dev, 0x2100, 3, 1, 4, .u64, .rw, .owner, .c 0x100000000000, .range 0x0FFBE76C8B44 0x1004189374BC⟩
/-- 0x2100+t:4 STEP_ABS (R315). -/
def D.STEP_ABS : Obj := ⟨.dev, 0x2100, 4, 1, 4, .time96, .wo, .owner, .c 0, .any⟩
/-- 0x2100+t:5 STEP_REL (R315). -/
def D.STEP_REL : Obj := ⟨.dev, 0x2100, 5, 1, 4, .i64, .wo, .owner, .c 0, .any⟩
/-- 0x2100+t:6 STEP_UNLOCK (R315). -/
def D.STEP_UNLOCK : Obj := ⟨.dev, 0x2100, 6, 1, 4, .u8, .wo, .owner, .c 0, .range 1 1⟩
/-- 0x2100+t:7 TB_FLAGS (R315). -/
def D.TB_FLAGS : Obj := ⟨.dev, 0x2100, 7, 1, 4, .u16, .rw, .operator, .c 1, .w1c 0x00E0⟩
/-- 0x2100+t:8 JUMP_THRESHOLD (R315). -/
def D.JUMP_THRESHOLD : Obj := ⟨.dev, 0x2100, 8, 1, 4, .u32, .rw, .owner, .c 0xF4240, .range 1000 1000000000⟩
/-- 0x2100+t:9 SLEW_MAX (R315). -/
def D.SLEW_MAX : Obj := ⟨.dev, 0x2100, 9, 1, 4, .u32, .rw, .owner, .c 50000, .range 100 500000⟩
/-- 0x2100+t:10 SERVO_TC (R315). -/
def D.SERVO_TC : Obj := ⟨.dev, 0x2100, 10, 1, 4, .u8, .rw, .owner, .c 8, .range 1 255⟩
/-- 0x2100+t:11 TIME_ACCEPT (R315). -/
def D.TIME_ACCEPT : Obj := ⟨.dev, 0x2100, 11, 1, 4, .u8, .wo, .owner, .c 0, .range 1 2⟩
/-- 0x2100+t:12 SERVO_STATE (R315). -/
def D.SERVO_STATE : Obj := ⟨.dev, 0x2100, 12, 1, 4, .u8, .ro, .observer, .c 0, .any⟩
/-- 0x2100+t:13 REFUSED_OFS (R315). -/
def D.REFUSED_OFS : Obj := ⟨.dev, 0x2100, 13, 1, 4, .i64, .ro, .observer, .c 0, .any⟩
/-- 0x2100+t:14 STEPS (R315). -/
def D.TB_STEPS : Obj := ⟨.dev, 0x2100, 14, 1, 4, .u32, .ro, .observer, .c 0, .any⟩
/-- 0x2100+t:15 FREQ_EST (R315). -/
def D.FREQ_EST : Obj := ⟨.dev, 0x2100, 15, 1, 4, .i32, .ro, .observer, .c 0, .any⟩
/-- 0x2110,0x2111:1 ROLE (R324). -/
def D.ROLE : Obj := ⟨.dev, 0x2110, 1, 1, 2, .u8, .rw, .owner, .c 1, .range 0 2⟩
/-- 0x2110,0x2111:2 DELAY_MECH (R324). -/
def D.DELAY_MECH : Obj := ⟨.dev, 0x2110, 2, 1, 2, .u8, .rw, .owner, .c 1, .range 1 2⟩
/-- 0x2110,0x2111:3 TRANSPORT (R324). -/
def D.TRANSPORT : Obj := ⟨.dev, 0x2110, 3, 1, 2, .u8, .rw, .owner, .c 0, .range 0 2⟩
/-- 0x2110,0x2111:4 PTP_DOMAIN (R324). -/
def D.PTP_DOMAIN : Obj := ⟨.dev, 0x2110, 4, 1, 2, .u8, .rw, .owner, .c 0, .range 0 127⟩
/-- 0x2110,0x2111:5 TWO_STEP (R324). -/
def D.TWO_STEP : Obj := ⟨.dev, 0x2110, 5, 1, 2, .bool, .rw, .owner, .c 0, .any⟩
/-- 0x2110,0x2111:6 PRIORITY1 (R324). -/
def D.PRIORITY1 : Obj := ⟨.dev, 0x2110, 6, 1, 2, .u8, .rw, .owner, .c 128, .any⟩
/-- 0x2110,0x2111:7 PRIORITY2 (R324). -/
def D.PRIORITY2 : Obj := ⟨.dev, 0x2110, 7, 1, 2, .u8, .rw, .owner, .c 128, .any⟩
/-- 0x2110,0x2111:8 CLOCK_CLASS (R324). -/
def D.CLOCK_CLASS : Obj := ⟨.dev, 0x2110, 8, 1, 2, .u8, .rw, .owner, .c 248, .any⟩
/-- 0x2110,0x2111:9 LOG_SYNC (R324). -/
def D.LOG_SYNC : Obj := ⟨.dev, 0x2110, 9, 1, 2, .i8, .rw, .owner, .c 0, .range (-7) 4⟩
/-- 0x2110,0x2111:10 LOG_ANNOUNCE (R324). -/
def D.LOG_ANNOUNCE : Obj := ⟨.dev, 0x2110, 10, 1, 2, .i8, .rw, .owner, .c 1, .range 0 4⟩
/-- 0x2110,0x2111:11 ANNOUNCE_TIMEOUT (R324). -/
def D.ANNOUNCE_TIMEOUT : Obj := ⟨.dev, 0x2110, 11, 1, 2, .u8, .rw, .owner, .c 3, .range 2 255⟩
/-- 0x2110,0x2111:12 LOG_DELAY (R324). -/
def D.LOG_DELAY : Obj := ⟨.dev, 0x2110, 12, 1, 2, .i8, .rw, .owner, .c 0, .range (-7) 5⟩
/-- 0x2110,0x2111:13 DELAY_ASYM (R324). -/
def D.DELAY_ASYM : Obj := ⟨.dev, 0x2110, 13, 1, 2, .i32, .rw, .owner, .c 0, .any⟩
/-- 0x2110,0x2111:14 PORT_STATE (R324). -/
def D.PORT_STATE : Obj := ⟨.dev, 0x2110, 14, 1, 2, .u8, .ro, .observer, .c 1, .any⟩
/-- 0x2110,0x2111:15 MASTER_ID (R324). -/
def D.MASTER_ID : Obj := ⟨.dev, 0x2110, 15, 1, 2, .u64, .ro, .observer, .c 0, .any⟩
/-- 0x2110,0x2111:16 OFFSET (R324). -/
def D.OFFSET : Obj := ⟨.dev, 0x2110, 16, 1, 2, .i64, .ro, .observer, .c 0, .any⟩
/-- 0x2110,0x2111:17 MEAN_DELAY (R324). -/
def D.MEAN_DELAY : Obj := ⟨.dev, 0x2110, 17, 1, 2, .i64, .ro, .observer, .c 0, .any⟩
/-- 0x2110,0x2111:18 RX_IGNORED (R324). -/
def D.RX_IGNORED : Obj := ⟨.dev, 0x2110, 18, 1, 2, .u32, .rw, .operator, .c 0, .counter⟩
/-- 0x2118,0x2119:1 TSQ_HEAD (R327). -/
def D.TSQ_HEAD : Obj := ⟨.dev, 0x2118, 1, 1, 2, .domain, .ro, .observer, .c 0, .any⟩
/-- 0x2118,0x2119:2 TSQ_LEVEL (R327). -/
def D.TSQ_LEVEL : Obj := ⟨.dev, 0x2118, 2, 1, 2, .u8, .ro, .observer, .c 0, .any⟩
/-- 0x2118,0x2119:3 TSQ_FLAGS (R327). -/
def D.TSQ_FLAGS : Obj := ⟨.dev, 0x2118, 3, 1, 2, .u8, .rw, .operator, .c 0, .w1c 1⟩
/-- 0x2118,0x2119:4 TSQ_LOST (R327). -/
def D.TSQ_LOST : Obj := ⟨.dev, 0x2118, 4, 1, 2, .u32, .rw, .operator, .c 0, .counter⟩
/-- 0x2120,0x2121:1 LQ_TIME (R328). -/
def D.LQ_TIME : Obj := ⟨.dev, 0x2120, 1, 1, 2, .time96, .rw, .owner, .c 0, .any⟩
/-- 0x2120,0x2121:2 LQ_FLAGS (R328). -/
def D.LQ_FLAGS : Obj := ⟨.dev, 0x2120, 2, 1, 2, .u8, .rw, .owner, .c 0, .keep 3⟩
/-- 0x2120,0x2121:3 LQ_TAG (R328). -/
def D.LQ_TAG : Obj := ⟨.dev, 0x2120, 3, 1, 2, .u16, .rw, .owner, .c 0, .range 0 61439⟩
/-- 0x2120,0x2121:4 LQ_FRAME (R328). -/
def D.LQ_FRAME : Obj := ⟨.dev, 0x2120, 4, 1, 2, .domain, .wo, .owner, .c 0, .any⟩
/-- 0x2120,0x2121:5 LQ_LEVEL (R328). -/
def D.LQ_LEVEL : Obj := ⟨.dev, 0x2120, 5, 1, 2, .u8, .ro, .observer, .c 0, .any⟩
/-- 0x2120,0x2121:6 LQ_SENT (R328). -/
def D.LQ_SENT : Obj := ⟨.dev, 0x2120, 6, 1, 2, .u32, .ro, .observer, .c 0, .any⟩
/-- 0x2120,0x2121:7 LQ_LATE (R328). -/
def D.LQ_LATE : Obj := ⟨.dev, 0x2120, 7, 1, 2, .u32, .rw, .operator, .c 0, .counter⟩
/-- 0x2120,0x2121:8 LQ_DROPPED (R328). -/
def D.LQ_DROPPED : Obj := ⟨.dev, 0x2120, 8, 1, 2, .u32, .rw, .operator, .c 0, .counter⟩
/-- 0x2120,0x2121:9 LQ_LAST (R328). -/
def D.LQ_LAST : Obj := ⟨.dev, 0x2120, 9, 1, 2, .u32, .ro, .observer, .c 0, .any⟩
/-- 0x2120,0x2121:10 LQ_FLUSH (R328). -/
def D.LQ_FLUSH : Obj := ⟨.dev, 0x2120, 10, 1, 2, .u8, .wo, .owner, .c 0, .range 1 1⟩
/-- 0x2130+j:1 CMP_EN (R330). -/
def D.CMP_EN : Obj := ⟨.dev, 0x2130, 1, 1, 16, .bool, .rw, .operator, .c 0, .any⟩
/-- 0x2130+j:2 CMP_TB (R330). -/
def D.CMP_TB : Obj := ⟨.dev, 0x2130, 2, 1, 16, .u8, .rw, .owner, .c 2, .range 0 3⟩
/-- 0x2130+j:3 CMP_TIME (R330). -/
def D.CMP_TIME : Obj := ⟨.dev, 0x2130, 3, 1, 16, .time96, .rw, .operator, .c 0, .any⟩
/-- 0x2130+j:4 CMP_PERIOD (R330). -/
def D.CMP_PERIOD : Obj := ⟨.dev, 0x2130, 4, 1, 16, .u64, .rw, .operator, .c 0, .zeroOr 100 4611686018427387904⟩
/-- 0x2130+j:5 CMP_HITS (R330). -/
def D.CMP_HITS : Obj := ⟨.dev, 0x2130, 5, 1, 16, .u32, .ro, .observer, .c 0, .any⟩
/-- 0x2130+j:6 CMP_SKIPPED (R330). -/
def D.CMP_SKIPPED : Obj := ⟨.dev, 0x2130, 6, 1, 16, .u32, .rw, .operator, .c 0, .counter⟩
/-- 0x2140+j:1 CAP_FLUE (R331). -/
def D.CAP_FLUE : Obj := ⟨.dev, 0x2140, 1, 1, 16, .u16, .rw, .owner, .c 65535, .orNone 1023 65535⟩
/-- 0x2140+j:2 CAP_TB (R331). -/
def D.CAP_TB : Obj := ⟨.dev, 0x2140, 2, 1, 16, .u8, .rw, .owner, .c 2, .range 0 3⟩
/-- 0x2140+j:3 CAP_OVERWRITE (R331). -/
def D.CAP_OVERWRITE : Obj := ⟨.dev, 0x2140, 3, 1, 16, .bool, .rw, .operator, .c 0, .any⟩
/-- 0x2140+j:4 CAP_TIME (R331). -/
def D.CAP_TIME : Obj := ⟨.dev, 0x2140, 4, 1, 16, .time96, .ro, .observer, .c 0, .any⟩
/-- 0x2140+j:5 CAP_FRAC (R331). -/
def D.CAP_FRAC : Obj := ⟨.dev, 0x2140, 5, 1, 16, .u16, .ro, .observer, .c 0, .any⟩
/-- 0x2140+j:6 CAP_VALID (R331). -/
def D.CAP_VALID : Obj := ⟨.dev, 0x2140, 6, 1, 16, .bool, .ro, .observer, .c 0, .any⟩
/-- 0x2140+j:7 CAP_COUNT (R331). -/
def D.CAP_COUNT : Obj := ⟨.dev, 0x2140, 7, 1, 16, .u32, .ro, .observer, .c 0, .any⟩
/-- 0x2160:1 CV_COUNT (R333). -/
def D.CV_COUNT : Obj := ⟨.dev, 0x2160, 1, 1, 1, .u64, .ro, .observer, .c 0, .any⟩
/-- 0x2160:2 SYNC_ARM (R333). -/
def D.SYNC_ARM : Obj := ⟨.dev, 0x2160, 2, 1, 1, .u8, .wo, .owner, .c 0, .range 1 2⟩
/-- 0x2160:3 SYNC_LOAD (R333). -/
def D.SYNC_LOAD : Obj := ⟨.dev, 0x2160, 3, 1, 1, .u64, .rw, .owner, .c 0, .any⟩
/-- 0x2160:4 SYNC_OUT_AT (R333). -/
def D.SYNC_OUT_AT : Obj := ⟨.dev, 0x2160, 4, 1, 1, .u64, .rw, .owner, .c 0xFFFFFFFFFFFFFFFF, .any⟩
/-- 0x2160:5 SYNC_STATUS (R333). -/
def D.SYNC_STATUS : Obj := ⟨.dev, 0x2160, 5, 1, 1, .u8, .ro, .observer, .c 0, .any⟩
/-- 0x2160:6 SYNC_DELTA (R333). -/
def D.SYNC_DELTA : Obj := ⟨.dev, 0x2160, 6, 1, 1, .i64, .ro, .observer, .c 0, .any⟩
/-- 0x2160:7 SYNC_LAST (R333). -/
def D.SYNC_LAST : Obj := ⟨.dev, 0x2160, 7, 1, 1, .time96, .ro, .observer, .c 0, .any⟩
/-- 0x1100,0x1101:1 PORT_MODE (R341). -/
def D.PORT_MODE : Obj := ⟨.dev, 0x1100, 1, 1, 2, .u8, .rw, .owner, .c 7, .range 0 7⟩
/-- 0x1100,0x1101:2 AN_EN (R341). -/
def D.AN_EN : Obj := ⟨.dev, 0x1100, 2, 1, 2, .bool, .rw, .owner, .c 1, .any⟩
/-- 0x1100,0x1101:3 FEC_MODE (R341). -/
def D.FEC_MODE : Obj := ⟨.dev, 0x1100, 3, 1, 2, .u8, .rw, .owner, .c 0, .special⟩
/-- 0x1100,0x1101:4 LANE_POL (R341). -/
def D.LANE_POL : Obj := ⟨.dev, 0x1100, 4, 1, 2, .u8, .rw, .owner, .c 0, .any⟩
/-- 0x1100,0x1101:5 MAC_ADDR (R341). -/
def D.MAC_ADDR : Obj := ⟨.dev, 0x1100, 5, 1, 2, .u64, .rw, .owner, .c 0, .keep 0xFFFFFFFFFFFF⟩
/-- 0x1100,0x1101:6 MTU (R341). -/
def D.MTU : Obj := ⟨.dev, 0x1100, 6, 1, 2, .u16, .rw, .owner, .c 1500, .range 1500 9000⟩
/-- 0x1100,0x1101:7 VLAN (R341). -/
def D.VLAN : Obj := ⟨.dev, 0x1100, 7, 1, 2, .u16, .rw, .owner, .c 65535, .special⟩
/-- 0x1100,0x1101:8 IP4_ADDR (R341). -/
def D.IP4_ADDR : Obj := ⟨.dev, 0x1100, 8, 1, 2, .u32, .rw, .owner, .c 0, .any⟩
/-- 0x1100,0x1101:9 IP4_MASK (R341). -/
def D.IP4_MASK : Obj := ⟨.dev, 0x1100, 9, 1, 2, .u32, .rw, .owner, .c 0, .any⟩
/-- 0x1100,0x1101:10 IP6_ADDR (R341). -/
def D.IP6_ADDR : Obj := ⟨.dev, 0x1100, 10, 1, 2, .domain, .rw, .owner, .c 0, .any⟩
/-- 0x1100,0x1101:11 ETHERTYPE (R341). -/
def D.ETHERTYPE : Obj := ⟨.dev, 0x1100, 11, 1, 2, .u16, .rw, .owner, .c 34997, .special⟩
/-- 0x1100,0x1101:12 UDP_PORT (R341). -/
def D.UDP_PORT : Obj := ⟨.dev, 0x1100, 12, 1, 2, .u16, .rw, .owner, .c 47520, .range 1024 65535⟩
/-- 0x1100,0x1101:13 V1_EN (R341). -/
def D.V1_EN : Obj := ⟨.dev, 0x1100, 13, 1, 2, .bool, .rw, .owner, .c 0, .any⟩
/-- 0x1100,0x1101:14 V1_AUTOCLAIM (R341). -/
def D.V1_AUTOCLAIM : Obj := ⟨.dev, 0x1100, 14, 1, 2, .bool, .rw, .owner, .c 0, .any⟩
/-- 0x1100,0x1101:15 LEASE_MS (R341). -/
def D.LEASE_MS : Obj := ⟨.dev, 0x1100, 15, 1, 2, .u32, .rw, .owner, .c 0, .zeroOr 10 600000⟩
/-- 0x1100,0x1101:16 LOSS_ACTION (R341). -/
def D.LOSS_ACTION : Obj := ⟨.dev, 0x1100, 16, 1, 2, .u8, .rw, .owner, .c 1, .range 0 2⟩
/-- 0x1108,0x1109:1 LINK (R342). -/
def D.LINK : Obj := ⟨.dev, 0x1108, 1, 1, 2, .u8, .ro, .observer, .c 0, .any⟩
/-- 0x1108,0x1109:2 MODE_NOW (R342). -/
def D.MODE_NOW : Obj := ⟨.dev, 0x1108, 2, 1, 2, .u8, .ro, .observer, .c 0, .any⟩
/-- 0x1108,0x1109:3 FEC_NOW (R342). -/
def D.FEC_NOW : Obj := ⟨.dev, 0x1108, 3, 1, 2, .u8, .ro, .observer, .c 1, .any⟩
/-- 0x1108,0x1109:4 LANE_LOCK (R342). -/
def D.LANE_LOCK : Obj := ⟨.dev, 0x1108, 4, 1, 2, .u8, .ro, .observer, .c 0, .any⟩
/-- 0x1108,0x1109:5 FEC_CORR (R342). -/
def D.FEC_CORR : Obj := ⟨.dev, 0x1108, 5, 1, 2, .u64, .ro, .observer, .c 0, .any⟩
/-- 0x1108,0x1109:6 FEC_UNCORR (R342). -/
def D.FEC_UNCORR : Obj := ⟨.dev, 0x1108, 6, 1, 2, .u64, .ro, .observer, .c 0, .any⟩
/-- 0x1108,0x1109:7 RX_FRAMES (R342). -/
def D.RX_FRAMES : Obj := ⟨.dev, 0x1108, 7, 1, 2, .u64, .ro, .observer, .c 0, .any⟩
/-- 0x1108,0x1109:8 TX_FRAMES (R342). -/
def D.TX_FRAMES : Obj := ⟨.dev, 0x1108, 8, 1, 2, .u64, .ro, .observer, .c 0, .any⟩
/-- 0x1108,0x1109:9 RX_DROPPED (R342). -/
def D.RX_DROPPED : Obj := ⟨.dev, 0x1108, 9, 1, 2, .u32, .rw, .operator, .c 0, .counter⟩
/-- 0x1108,0x1109:10 RX_BAD (R342). -/
def D.RX_BAD : Obj := ⟨.dev, 0x1108, 10, 1, 2, .u32, .rw, .operator, .c 0, .counter⟩
/-- 0x1108,0x1109:11 LEASE_STATE (R342). -/
def D.LEASE_STATE : Obj := ⟨.dev, 0x1108, 11, 1, 2, .u8, .ro, .observer, .c 0, .any⟩
/-- 0x1108,0x1109:12 ACCESS_RATE (R342). -/
def D.ACCESS_RATE : Obj := ⟨.dev, 0x1108, 12, 1, 2, .u32, .ro, .observer, .c 0, .any⟩
/-- 0x1108,0x1109:13 PORT_FLAGS (R342). -/
def D.PORT_FLAGS : Obj := ⟨.dev, 0x1108, 13, 1, 2, .u8, .rw, .operator, .c 0, .w1c 6⟩
/-- 0x2012:1 GRANT_PORTS (R354). -/
def D.GRANT_PORTS : Obj := ⟨.dev, 0x2012, 1, 1, 1, .u8, .rw, .service, .c 0, .keep 3⟩
/-- 0x2012:2 GRANT_TIME (R354). -/
def D.GRANT_TIME : Obj := ⟨.dev, 0x2012, 2, 1, 1, .u32, .rw, .service, .c 600, .range 1 86400⟩
/-- 0x2012:3 GRANT_LEFT (R354). -/
def D.GRANT_LEFT : Obj := ⟨.dev, 0x2012, 3, 1, 1, .u32, .ro, .observer, .c 0, .any⟩
/-- 0x1300,0x1301:1 ST_SEL (R366). -/
def D.ST_SEL : Obj := ⟨.dev, 0x1300, 1, 1, 2, .u8, .rw, .observer, .c 0, .range 0 255⟩
/-- 0x1300,0x1301:2 ST_QUEUE (R366). -/
def D.ST_QUEUE : Obj := ⟨.dev, 0x1300, 2, 1, 2, .u32, .rw, .owner, .c 0xFFFFFFFF, .orNone 65535 4294967295⟩
/-- 0x1300,0x1301:3 ST_TRANSPORT (R366). -/
def D.ST_TRANSPORT : Obj := ⟨.dev, 0x1300, 3, 1, 2, .u8, .rw, .owner, .c 0, .range 0 2⟩
/-- 0x1300,0x1301:4 ST_DST_MAC (R366). -/
def D.ST_DST_MAC : Obj := ⟨.dev, 0x1300, 4, 1, 2, .u64, .rw, .owner, .c 0, .keep 0xFFFFFFFFFFFF⟩
/-- 0x1300,0x1301:5 ST_DST_IP4 (R366). -/
def D.ST_DST_IP4 : Obj := ⟨.dev, 0x1300, 5, 1, 2, .u32, .rw, .owner, .c 0, .any⟩
/-- 0x1300,0x1301:6 ST_DST_IP6 (R366). -/
def D.ST_DST_IP6 : Obj := ⟨.dev, 0x1300, 6, 1, 2, .domain, .rw, .owner, .c 0, .any⟩
/-- 0x1300,0x1301:7 ST_DST_UDP (R366). -/
def D.ST_DST_UDP : Obj := ⟨.dev, 0x1300, 7, 1, 2, .u16, .rw, .owner, .c 47520, .any⟩
/-- 0x1300,0x1301:8 ST_MAX_FRAME (R366). -/
def D.ST_MAX_FRAME : Obj := ⟨.dev, 0x1300, 8, 1, 2, .u16, .rw, .owner, .c 0, .special⟩
/-- 0x1300,0x1301:9 ST_HOLDOFF (R366). -/
def D.ST_HOLDOFF : Obj := ⟨.dev, 0x1300, 9, 1, 2, .u32, .rw, .owner, .c 100, .range 1 1000000⟩
/-- 0x1300,0x1301:10 ST_RATE (R366). -/
def D.ST_RATE : Obj := ⟨.dev, 0x1300, 10, 1, 2, .u32, .rw, .owner, .c 0, .zeroOr 1 400000⟩
/-- 0x1300,0x1301:11 ST_FLAGS (R366). -/
def D.ST_FLAGS : Obj := ⟨.dev, 0x1300, 11, 1, 2, .u8, .rw, .owner, .c 0, .keep 1⟩
/-- 0x1300,0x1301:12 ST_ENABLE (R366). -/
def D.ST_ENABLE : Obj := ⟨.dev, 0x1300, 12, 1, 2, .bool, .rw, .owner, .c 0, .any⟩
/-- 0x1300,0x1301:13 ST_CMD (R366). -/
def D.STM_CMD : Obj := ⟨.dev, 0x1300, 13, 1, 2, .u8, .wo, .operator, .c 0, .range 1 2⟩
/-- 0x1300,0x1301:14 ST_FRAMES (R366). -/
def D.ST_FRAMES : Obj := ⟨.dev, 0x1300, 14, 1, 2, .u32, .ro, .observer, .c 0, .any⟩
/-- 0x1300,0x1301:15 ST_WORDS (R366). -/
def D.ST_WORDS : Obj := ⟨.dev, 0x1300, 15, 1, 2, .u64, .ro, .observer, .c 0, .any⟩
/-- 0x1300,0x1301:16 ST_STATE (R366). -/
def D.ST_STATE : Obj := ⟨.dev, 0x1300, 16, 1, 2, .u8, .ro, .observer, .c 0, .any⟩
/-- 0x1310,0x1311:1 NT_MASK (R368). -/
def D.NT_MASK : Obj := ⟨.dev, 0x1310, 1, 1, 2, .u32, .rw, .owner, .c 0, .keep 0xFE⟩
/-- 0x1310,0x1311:2 NT_QUEUE (R368). -/
def D.NT_QUEUE : Obj := ⟨.dev, 0x1310, 2, 1, 2, .u32, .rw, .owner, .c 0xFFFFFFFF, .special⟩
/-- 0x1310,0x1311:3 NT_SENT (R368). -/
def D.NT_SENT : Obj := ⟨.dev, 0x1310, 3, 1, 2, .u32, .ro, .observer, .c 0, .any⟩
/-- 0x1310,0x1311:4 NT_DROPPED (R368). -/
def D.NT_DROPPED : Obj := ⟨.dev, 0x1310, 4, 1, 2, .u32, .rw, .operator, .c 0, .counter⟩
/-- 0x2010:1 OWN_SEL (R369). -/
def D.OWN_SEL : Obj := ⟨.dev, 0x2010, 1, 1, 1, .u16, .rw, .observer, .c 0, .range 0 383⟩
/-- 0x2010:2 OWN_PORT (R369). -/
def D.OWN_PORT : Obj := ⟨.dev, 0x2010, 2, 1, 1, .u8, .ro, .observer, .c 0, .any⟩
/-- 0x2010:3 OWN_EPOCH (R369). -/
def D.OWN_EPOCH : Obj := ⟨.dev, 0x2010, 3, 1, 1, .u16, .ro, .observer, .c 0, .any⟩
/-- 0x2010:4 OWN_CLAIM (R369). -/
def D.OWN_CLAIM : Obj := ⟨.dev, 0x2010, 4, 1, 1, .u32, .wo, .observer, .c 0, .any⟩
/-- 0x2010:5 OWN_WEST (R369). -/
def D.OWN_WEST : Obj := ⟨.dev, 0x2010, 5, 1, 1, .u32, .ro, .observer, .c 0, .any⟩
/-- 0x2010:6 OWN_EAST (R369). -/
def D.OWN_EAST : Obj := ⟨.dev, 0x2010, 6, 1, 1, .u32, .ro, .observer, .c 0, .any⟩
/-- 0x2010:7 OWN_CHECK (R369). -/
def D.OWN_CHECK : Obj := ⟨.dev, 0x2010, 7, 1, 1, .u8, .ro, .observer, .c 0, .any⟩
/-- 0x2010:8 OWN_DISPUTED (R369). -/
def D.OWN_DISPUTED : Obj := ⟨.dev, 0x2010, 8, 1, 1, .u16, .ro, .observer, .c 0, .any⟩
/-- 0x2010:9 OWN_CHECKS (R369). -/
def D.OWN_CHECKS : Obj := ⟨.dev, 0x2010, 9, 1, 1, .u32, .ro, .observer, .c 0, .any⟩
/-- 0x2011:1 ARB_SEL (R376). -/
def D.ARB_SEL : Obj := ⟨.dev, 0x2011, 1, 1, 1, .u16, .rw, .service, .c 65535, .orNone 383 65535⟩
/-- 0x2011:2 ARB_RESOLVE (R376). -/
def D.ARB_RESOLVE : Obj := ⟨.dev, 0x2011, 2, 1, 1, .u8, .wo, .service, .c 0, .range 0 4⟩
/-- 0x1000:1 VENDOR (R384). -/
def D.VENDOR : Obj := ⟨.dev, 0x1000, 1, 1, 1, (.str 16), .const_, .observer, .c 0x6B616E654E, .any⟩
/-- 0x1000:2 PRODUCT (R384). -/
def D.PRODUCT : Obj := ⟨.dev, 0x1000, 2, 1, 1, (.str 16), .const_, .observer, .c 0x363532564D20766F726970726F4D, .any⟩
/-- 0x1000:3 ORDER_CODE (R384). -/
def D.ORDER_CODE : Obj := ⟨.dev, 0x1000, 3, 1, 1, (.str 16), .const_, .observer, .c 0, .any⟩
/-- 0x1000:4 GRADE (R384). -/
def D.GRADE : Obj := ⟨.dev, 0x1000, 4, 1, 1, .u8, .const_, .observer, .c 0, .any⟩
/-- 0x1000:5 SERIAL (R384). -/
def D.SERIAL : Obj := ⟨.dev, 0x1000, 5, 1, 1, .u64, .const_, .observer, .c 0, .any⟩
/-- 0x1000:6 MAC_BASE (R384). -/
def D.MAC_BASE : Obj := ⟨.dev, 0x1000, 6, 1, 1, .u64, .const_, .observer, .c 0, .any⟩
/-- 0x1000:7 LOGIC_REV (R384). -/
def D.LOGIC_REV : Obj := ⟨.dev, 0x1000, 7, 1, 1, .u16, .const_, .observer, .c 0, .any⟩
/-- 0x1000:8–11 MS_REV (R384). -/
def D.MS_REV : Obj := ⟨.dev, 0x1000, 8, 4, 1, .u16, .const_, .observer, .c 0, .any⟩
/-- 0x1000:12 DATE_CODE (R384). -/
def D.DATE_CODE : Obj := ⟨.dev, 0x1000, 12, 1, 1, .u16, .const_, .observer, .c 0, .any⟩
/-- 0x1001:1 ROM_MAIN (R385). -/
def D.ROM_MAIN : Obj := ⟨.dev, 0x1001, 1, 1, 1, .u32, .const_, .observer, .c 0x1000000, .any⟩
/-- 0x1001:2 ROM_ISLAND (R385). -/
def D.ROM_ISLAND : Obj := ⟨.dev, 0x1001, 2, 1, 1, .u32, .const_, .observer, .c 0x1000000, .any⟩
/-- 0x1001:3 DICT_LAYOUT (R385). -/
def D.DICT_LAYOUT : Obj := ⟨.dev, 0x1001, 3, 1, 1, .u16, .const_, .observer, .c 1, .any⟩
/-- 0x1001:4 SAMOVAR_VERS (R385). -/
def D.SAMOVAR_VERS : Obj := ⟨.dev, 0x1001, 4, 1, 1, .u8, .const_, .observer, .c 3, .any⟩
/-- 0x1002:1 CAP_CHANNELS (R386). -/
def D.CAP_CHANNELS : Obj := ⟨.dev, 0x1002, 1, 1, 1, .u16, .const_, .observer, .c 256, .any⟩
/-- 0x1002:2 CAP_STOVES (R386). -/
def D.CAP_STOVES : Obj := ⟨.dev, 0x1002, 2, 1, 1, .u8, .const_, .observer, .c 16, .any⟩
/-- 0x1002:3 CAP_HEARTHS (R386). -/
def D.CAP_HEARTHS : Obj := ⟨.dev, 0x1002, 3, 1, 1, .u16, .const_, .observer, .c 128, .any⟩
/-- 0x1002:4 CAP_QUEUES (R386). -/
def D.CAP_QUEUES : Obj := ⟨.dev, 0x1002, 4, 1, 1, .u32, .const_, .observer, .c 65536, .any⟩
/-- 0x1002:5 CAP_QMEM (R386). -/
def D.CAP_QMEM : Obj := ⟨.dev, 0x1002, 5, 1, 1, .u32, .const_, .observer, .c 0x4000000, .any⟩
/-- 0x1002:6 CAP_SEGMENTS (R386). -/
def D.CAP_SEGMENTS : Obj := ⟨.dev, 0x1002, 6, 1, 1, .u16, .const_, .observer, .c 4096, .any⟩
/-- 0x1002:7 CAP_FLUES (R386). -/
def D.CAP_FLUES : Obj := ⟨.dev, 0x1002, 7, 1, 1, .u16, .const_, .observer, .c 1024, .any⟩
/-- 0x1002:8 CAP_TBASES (R386). -/
def D.CAP_TBASES : Obj := ⟨.dev, 0x1002, 8, 1, 1, .u8, .const_, .observer, .c 4, .any⟩
/-- 0x1002:9 CAP_PORTS (R386). -/
def D.CAP_PORTS : Obj := ⟨.dev, 0x1002, 9, 1, 1, .u8, .const_, .observer, .c 2, .any⟩
/-- 0x1002:10 CAP_LANES (R386). -/
def D.CAP_LANES : Obj := ⟨.dev, 0x1002, 10, 1, 1, .u8, .const_, .observer, .c 8, .any⟩
/-- 0x2404:1 T_POLL (R401). -/
def D.T_POLL : Obj := ⟨.dev, 0x2404, 1, 1, 1, .u32, .rw, .owner, .c 10, .range 1 1000⟩
/-- 0x2404:2 TS_STALE (R401). -/
def D.TS_STALE : Obj := ⟨.dev, 0x2404, 2, 1, 1, .u32, .rw, .owner, .c 100, .range 10 10000⟩
/-- 0x2404:3 SET_MERGE (R401). -/
def D.SET_MERGE : Obj := ⟨.dev, 0x2404, 3, 1, 1, .f32, .rw, .owner, .c 0x3F800000, .special⟩
/-- 0x2404:4 RUN_SPREAD (R401). -/
def D.RUN_SPREAD : Obj := ⟨.dev, 0x2404, 4, 1, 1, .f32, .rw, .owner, .c 0x40000000, .special⟩
/-- 0x2401:1 CR_CHANNEL (R406). -/
def D.CR_CHANNEL : Obj := ⟨.dev, 0x2401, 1, 1, 1, .u16, .rw, .owner, .c 0, .range 0 255⟩
/-- 0x2401:2 CR_VAR (R406). -/
def D.CR_VAR : Obj := ⟨.dev, 0x2401, 2, 1, 1, .u8, .rw, .owner, .c 0, .range 0 1⟩
/-- 0x2401:3 CR_RANGE (R406). -/
def D.CR_RANGE : Obj := ⟨.dev, 0x2401, 3, 1, 1, .u8, .rw, .owner, .c 0, .range 0 7⟩
/-- 0x2401:4 CR_SET (R406). -/
def D.CR_SET : Obj := ⟨.dev, 0x2401, 4, 1, 1, .u8, .rw, .owner, .c 0, .range 0 7⟩
/-- 0x2401:5 CR_POINTS (R406). -/
def D.CR_POINTS : Obj := ⟨.dev, 0x2401, 5, 1, 1, .u8, .rw, .owner, .c 3, .range 2 3⟩
/-- 0x2401:6–8 PT_1, PT_2, PT_3 (R406). -/
def D.PT_1 : Obj := ⟨.dev, 0x2401, 6, 3, 1, .f32, .rw, .owner, .l [0xBF4CCCCD, 0x0, 0x3F4CCCCD], .special⟩
/-- 0x2401:9 CR_TRUTH (R406). -/
def D.CR_TRUTH : Obj := ⟨.dev, 0x2401, 9, 1, 1, .u8, .rw, .owner, .c 0, .range 0 1⟩
/-- 0x2401:10 CR_COMPL (R406). -/
def D.CR_COMPL : Obj := ⟨.dev, 0x2401, 10, 1, 1, .f32, .rw, .owner, .c 0x3A83126F, .special⟩
/-- 0x2401:11 CR_SETTLE (R406). -/
def D.CR_SETTLE : Obj := ⟨.dev, 0x2401, 11, 1, 1, .u32, .rw, .owner, .c 0x4C4B40, .range 1000 2147483648⟩
/-- 0x2401:12 CR_APERTURE (R406). -/
def D.CR_APERTURE : Obj := ⟨.dev, 0x2401, 12, 1, 1, .u32, .rw, .owner, .c 0x7A120, .range 1000 2147483648⟩
/-- 0x2401:13 CR_TOL (R406). -/
def D.CR_TOL : Obj := ⟨.dev, 0x2401, 13, 1, 1, .u32, .rw, .owner, .c 42950, .range 1 16777216⟩
/-- 0x2401:14 CR_CMD (R406). -/
def D.CR_CMD : Obj := ⟨.dev, 0x2401, 14, 1, 1, .u8, .wo, .owner, .c 0, .range 1 2⟩
/-- 0x2401:15 CR_STATE (R406). -/
def D.CR_STATE : Obj := ⟨.dev, 0x2401, 15, 1, 1, .u8, .ro, .observer, .c 0, .any⟩
/-- 0x2401:16 CR_POINT (R406). -/
def D.CR_POINT : Obj := ⟨.dev, 0x2401, 16, 1, 1, .u8, .ro, .observer, .c 0, .any⟩
/-- 0x2401:17 CR_REJECTS (R406). -/
def D.CR_REJECTS : Obj := ⟨.dev, 0x2401, 17, 1, 1, .u8, .ro, .observer, .c 0, .any⟩
/-- 0x2401:18 CR_RESULT (R406). -/
def D.CR_RESULT : Obj := ⟨.dev, 0x2401, 18, 1, 1, .u8, .ro, .observer, .c 0, .any⟩
/-- 0x2401:19 CR_TEMP (R406). -/
def D.CR_TEMP : Obj := ⟨.dev, 0x2401, 19, 1, 1, .f32, .ro, .observer, .c 0, .any⟩
/-- 0x2401:20 CR_STARTER (R406). -/
def D.CR_STARTER : Obj := ⟨.dev, 0x2401, 20, 1, 1, .u8, .ro, .observer, .c 0, .any⟩
/-- 0x2402:1 CM_STATE (R410). -/
def D.CM_STATE : Obj := ⟨.dev, 0x2402, 1, 1, 1, .u8, .ro, .observer, .c 0, .any⟩
/-- 0x2402:2 CM_UNIT (R410). -/
def D.CM_UNIT : Obj := ⟨.dev, 0x2402, 2, 1, 1, .u8, .ro, .observer, .c 0, .any⟩
/-- 0x2402:3 CM_NOMINAL (R410). -/
def D.CM_NOMINAL : Obj := ⟨.dev, 0x2402, 3, 1, 1, .f64, .ro, .observer, .c 0, .any⟩
/-- 0x2402:4 CM_DEVICE (R410). -/
def D.CM_DEVICE : Obj := ⟨.dev, 0x2402, 4, 1, 1, .f64, .ro, .observer, .c 0, .any⟩
/-- 0x2402:5 CM_ENTRY (R410). -/
def D.CM_ENTRY : Obj := ⟨.dev, 0x2402, 5, 1, 1, .f64, .wo, .owner, .c 0, .any⟩
/-- 0x2402:6 CM_TIMEOUT (R410). -/
def D.CM_TIMEOUT : Obj := ⟨.dev, 0x2402, 6, 1, 1, .u32, .rw, .owner, .c 600, .range 10 86400⟩
/-- 0x2400:1 ST_CMD (R421). -/
def D.CAL_ST_CMD : Obj := ⟨.dev, 0x2400, 1, 1, 1, .u8, .wo, .owner, .c 0, .range 1 2⟩
/-- 0x2400:2 STORE_RESULT (R421). -/
def D.STORE_RESULT : Obj := ⟨.dev, 0x2400, 2, 1, 1, .u8, .ro, .observer, .c 0, .any⟩
/-- 0x2400:3 BANK_NOW (R421). -/
def D.BANK_NOW : Obj := ⟨.dev, 0x2400, 3, 1, 1, .u8, .ro, .observer, .c 0, .any⟩
/-- 0x2400:4 SEQ_NOW (R421). -/
def D.SEQ_NOW : Obj := ⟨.dev, 0x2400, 4, 1, 1, .u32, .ro, .observer, .c 0, .any⟩
/-- 0x2400:5 LOAD_RESULT (R421). -/
def D.LOAD_RESULT : Obj := ⟨.dev, 0x2400, 5, 1, 1, .u8, .ro, .observer, .c 0, .any⟩
/-- 0x2400:6 DIRTY (R421). -/
def D.DIRTY : Obj := ⟨.dev, 0x2400, 6, 1, 1, .bool, .ro, .observer, .c 0, .any⟩
/-- 0x2400:7 STORED_AT (R421). -/
def D.STORED_AT : Obj := ⟨.dev, 0x2400, 7, 1, 1, .time96, .ro, .observer, .c 0, .any⟩
/-- 0x2302:1 FC_SEL (R430). -/
def D.FC_SEL : Obj := ⟨.dev, 0x2302, 1, 1, 1, .u16, .rw, .observer, .c 4352, .special⟩
/-- 0x2302:2 FC_N (R430). -/
def D.FC_N : Obj := ⟨.dev, 0x2302, 2, 1, 1, .u8, .rw, .owner, .c 0, .special⟩
/-- 0x2302:3 FC_WINDOW (R430). -/
def D.FC_WINDOW : Obj := ⟨.dev, 0x2302, 3, 1, 1, .u32, .rw, .owner, .c 1000, .range 1 3600000⟩
/-- 0x2302:4 FC_REACT (R430). -/
def D.FC_REACT : Obj := ⟨.dev, 0x2302, 4, 1, 1, .u8, .rw, .owner, .c 0, .special⟩
/-- 0x2302:5 FC_HIST (R430). -/
def D.FC_HIST : Obj := ⟨.dev, 0x2302, 5, 1, 1, .bool, .rw, .owner, .c 1, .any⟩
/-- 0x2302:6 FC_FIXED (R430). -/
def D.FC_FIXED : Obj := ⟨.dev, 0x2302, 6, 1, 1, .bool, .ro, .observer, .c 0, .any⟩
/-- 0x2300:1 DF_CODE (R435). -/
def D.DF_CODE : Obj := ⟨.dev, 0x2300, 1, 1, 1, .u16, .ro, .observer, .c 0, .any⟩
/-- 0x2300:2 DF_UNIT (R435). -/
def D.DF_UNIT : Obj := ⟨.dev, 0x2300, 2, 1, 1, .u16, .ro, .observer, .c 0, .any⟩
/-- 0x2300:3 DF_TIME (R435). -/
def D.DF_TIME : Obj := ⟨.dev, 0x2300, 3, 1, 1, .time96, .ro, .observer, .c 0, .any⟩
/-- 0x2300:4 DF_OVF (R435). -/
def D.DF_OVF : Obj := ⟨.dev, 0x2300, 4, 1, 1, .bool, .ro, .observer, .c 0, .any⟩
/-- 0x2300:5 WORST (R435). -/
def D.WORST : Obj := ⟨.dev, 0x2300, 5, 1, 1, .u8, .ro, .observer, .c 0, .any⟩
/-- 0x2300:6 FENCED_CH (R435). -/
def D.FENCED_CH : Obj := ⟨.dev, 0x2300, 6, 1, 1, .u16, .ro, .observer, .c 0, .any⟩
/-- 0x2300:7 FENCED_ST (R435). -/
def D.FENCED_ST : Obj := ⟨.dev, 0x2300, 7, 1, 1, .u16, .ro, .observer, .c 0, .any⟩
/-- 0x2300:8 FENCED_IF (R435). -/
def D.FENCED_IF : Obj := ⟨.dev, 0x2300, 8, 1, 1, .u8, .ro, .observer, .c 0, .any⟩
/-- 0x2300:9 EVENTS (R435). -/
def D.EVENTS : Obj := ⟨.dev, 0x2300, 9, 1, 1, .u32, .ro, .observer, .c 0, .any⟩
/-- 0x2300:10 SEVERE (R435). -/
def D.SEVERE : Obj := ⟨.dev, 0x2300, 10, 1, 1, .u32, .ro, .observer, .c 0, .any⟩
/-- 0x2300:11 LAST_CODE (R435). -/
def D.LAST_CODE : Obj := ⟨.dev, 0x2300, 11, 1, 1, .u16, .ro, .observer, .c 0, .any⟩
/-- 0x2300:12 LAST_UNIT (R435). -/
def D.LAST_UNIT : Obj := ⟨.dev, 0x2300, 12, 1, 1, .u16, .ro, .observer, .c 0, .any⟩
/-- 0x2301:1 CH_ANY (R436). -/
def D.CH_ANY : Obj := ⟨.dev, 0x2301, 1, 1, 1, .u64, .ro, .observer, .c 0, .any⟩
/-- 0x2301:2 ST_ANY (R436). -/
def D.ST_ANY : Obj := ⟨.dev, 0x2301, 2, 1, 1, .u64, .ro, .observer, .c 0, .any⟩
/-- 0x2301:3 DEV_ANY (R436). -/
def D.DEV_ANY : Obj := ⟨.dev, 0x2301, 3, 1, 1, .u64, .ro, .observer, .c 0, .any⟩
/-- 0x2301:4 CH_SEVERE (R436). -/
def D.CH_SEVERE : Obj := ⟨.dev, 0x2301, 4, 1, 1, .u64, .ro, .observer, .c 0, .any⟩
/-- 0x2301:5 ST_SEVERE (R436). -/
def D.ST_SEVERE : Obj := ⟨.dev, 0x2301, 5, 1, 1, .u64, .ro, .observer, .c 0, .any⟩
/-- 0x2301:6 DEV_SEVERE (R436). -/
def D.DEV_SEVERE : Obj := ⟨.dev, 0x2301, 6, 1, 1, .u64, .ro, .observer, .c 0, .any⟩
/-- 0x2301:7 STICKY_SINCE (R436). -/
def D.STICKY_SINCE : Obj := ⟨.dev, 0x2301, 7, 1, 1, .time96, .ro, .observer, .c 0, .any⟩
/-- 0x2306:1 FLT_SEVERITY (R440). -/
def D.FLT_SEVERITY : Obj := ⟨.dev, 0x2306, 1, 1, 1, .u8, .rw, .owner, .c 3, .range 1 3⟩
/-- 0x2306:2 FLT_LOW (R440). -/
def D.FLT_LOW : Obj := ⟨.dev, 0x2306, 2, 1, 1, .bool, .ro, .observer, .c 0, .any⟩
/-- 0x2306:3 FLT_FALLS (R440). -/
def D.FLT_FALLS : Obj := ⟨.dev, 0x2306, 3, 1, 1, .u32, .rw, .operator, .c 0, .counter⟩
/-- 0x2304:1 H_COUNT (R444). -/
def D.H_COUNT : Obj := ⟨.dev, 0x2304, 1, 1, 1, .u16, .ro, .observer, .c 0, .any⟩
/-- 0x2304:2 H_NEWEST (R444). -/
def D.H_NEWEST : Obj := ⟨.dev, 0x2304, 2, 1, 1, .u32, .ro, .observer, .c 0, .any⟩
/-- 0x2304:3 H_SEL (R444). -/
def D.H_SEL : Obj := ⟨.dev, 0x2304, 3, 1, 1, .u32, .rw, .observer, .c 0, .any⟩
/-- 0x2304:4 H_RECORD (R444). -/
def D.H_RECORD : Obj := ⟨.dev, 0x2304, 4, 1, 1, .domain, .ro, .observer, .c 0, .any⟩
/-- 0x2304:5 H_PENDING (R444). -/
def D.H_PENDING : Obj := ⟨.dev, 0x2304, 5, 1, 1, .u8, .ro, .observer, .c 0, .any⟩
/-- 0x2304:6 H_LOST (R444). -/
def D.H_LOST : Obj := ⟨.dev, 0x2304, 6, 1, 1, .u32, .rw, .operator, .c 0, .counter⟩
/-- 0x2304:7 H_STATE (R444). -/
def D.H_STATE : Obj := ⟨.dev, 0x2304, 7, 1, 1, .u8, .ro, .observer, .c 0, .any⟩
/-- 0x2304:8 H_BOOTS (R444). -/
def D.H_BOOTS : Obj := ⟨.dev, 0x2304, 8, 1, 1, .u16, .ro, .observer, .c 0, .any⟩
/-- 0x2305:1 CLR_TARGET (R445). -/
def D.CLR_TARGET : Obj := ⟨.dev, 0x2305, 1, 1, 1, .u16, .rw, .observer, .c 0, .special⟩
/-- 0x2305:2 CLR_CMD (R445). -/
def D.CLR_CMD : Obj := ⟨.dev, 0x2305, 2, 1, 1, .u8, .wo, .owner, .c 0, .range 1 4⟩
/-- 0x2305:3 CLR_RESULT (R445). -/
def D.CLR_RESULT : Obj := ⟨.dev, 0x2305, 3, 1, 1, .u8, .ro, .observer, .c 0, .any⟩
/-- 0x2303:1 INJ_CHECKER (R450). -/
def D.FI_INJ_CHECKER : Obj := ⟨.dev, 0x2303, 1, 1, 1, .u8, .rw, .service, .c 0, .range 0 6⟩
/-- 0x2303:2 INJ_INSTANCE (R450). -/
def D.FI_INJ_INSTANCE : Obj := ⟨.dev, 0x2303, 2, 1, 1, .u16, .rw, .service, .c 0, .any⟩
/-- 0x2303:3 INJ_MODE (R450). -/
def D.FI_INJ_MODE : Obj := ⟨.dev, 0x2303, 3, 1, 1, .u8, .rw, .service, .c 0, .range 0 2⟩
/-- 0x2303:4 INJ_CLASSIFY (R450). -/
def D.FI_INJ_CLASSIFY : Obj := ⟨.dev, 0x2303, 4, 1, 1, .bool, .rw, .service, .c 0, .any⟩
/-- 0x2303:5 INJ_STATE (R450). -/
def D.FI_INJ_STATE : Obj := ⟨.dev, 0x2303, 5, 1, 1, .u8, .ro, .observer, .c 0, .any⟩
/-- 0x2303:6 INJ_HITS (R450). -/
def D.FI_INJ_HITS : Obj := ⟨.dev, 0x2303, 6, 1, 1, .u32, .ro, .observer, .c 0, .any⟩
/-- 0x2303:7 INJ_REAL (R450). -/
def D.FI_INJ_REAL : Obj := ⟨.dev, 0x2303, 7, 1, 1, .u32, .ro, .observer, .c 0, .any⟩
/-- 0x2303:8 INJ_LAST (R450). -/
def D.FI_INJ_LAST : Obj := ⟨.dev, 0x2303, 8, 1, 1, .domain, .ro, .observer, .c 0, .any⟩
/-- 0x2021:1–9 RAIL_V (R458). -/
def D.RAIL_V : Obj := ⟨.dev, 0x2021, 1, 9, 1, .f32, .ro, .observer, .c 0, .any⟩
/-- 0x2021:10 SM_LOW (R458). -/
def D.SM_LOW : Obj := ⟨.dev, 0x2021, 10, 1, 1, .u16, .ro, .observer, .c 0, .any⟩
/-- 0x2021:11 SM_MIN (R458). -/
def D.SM_MIN : Obj := ⟨.dev, 0x2021, 11, 1, 1, .domain, .ro, .observer, .c 0, .any⟩
/-- 0x2022:1 CORE_LOCK (R462). -/
def D.CORE_LOCK : Obj := ⟨.dev, 0x2022, 1, 1, 1, .bool, .ro, .observer, .c 0, .any⟩
/-- 0x2022:2 CV_LOCK (R462). -/
def D.CV_LOCK : Obj := ⟨.dev, 0x2022, 2, 1, 1, .bool, .ro, .observer, .c 0, .any⟩
/-- 0x2022:3 CV_MUL (R462). -/
def D.CV_MUL : Obj := ⟨.dev, 0x2022, 3, 1, 1, .u8, .rw, .owner, .c 1, .range 1 16⟩
/-- 0x2022:4 CV_DIV (R462). -/
def D.CV_DIV : Obj := ⟨.dev, 0x2022, 4, 1, 1, .u8, .rw, .owner, .c 1, .range 1 16⟩
/-- 0x2022:5 F_CV (R462). -/
def D.F_CV : Obj := ⟨.dev, 0x2022, 5, 1, 1, .f64, .ro, .observer, .c 0, .any⟩
/-- 0x2022:6 CVCLK_MEAS (R462). -/
def D.CVCLK_MEAS : Obj := ⟨.dev, 0x2022, 6, 1, 1, .f64, .ro, .observer, .c 0, .any⟩
/-- 0x2022:7 SYSCLK_MEAS (R462). -/
def D.SYSCLK_MEAS : Obj := ⟨.dev, 0x2022, 7, 1, 1, .f64, .ro, .observer, .c 0, .any⟩
/-- 0x2022:8 REF_LOST (R462). -/
def D.REF_LOST : Obj := ⟨.dev, 0x2022, 8, 1, 1, .u8, .ro, .observer, .c 0, .any⟩
/-- 0x2022:9 FL_DIV (R462). -/
def D.FL_DIV : Obj := ⟨.dev, 0x2022, 9, 1, 1, .u8, .rw, .owner, .c 10, .range 10 40⟩
/-- 0x2023:1 DT_LOGIC (R463). -/
def D.DT_LOGIC : Obj := ⟨.dev, 0x2023, 1, 1, 1, .f32, .ro, .observer, .c 0, .any⟩
/-- 0x2023:2–5 DT_MS (R463). -/
def D.DT_MS : Obj := ⟨.dev, 0x2023, 2, 4, 1, .f32, .ro, .observer, .c 0, .any⟩
/-- 0x2023:6 DT_MAX (R463). -/
def D.DT_MAX : Obj := ⟨.dev, 0x2023, 6, 1, 1, .f32, .ro, .observer, .c 0, .any⟩
/-- 0x2020:1 PD_CMD (R465). -/
def D.PD_CMD : Obj := ⟨.dev, 0x2020, 1, 1, 1, .u16, .wo, .owner, .c 0, .any⟩
/-- 0x2020:2–5 PD_CH (R465). -/
def D.PD_CH : Obj := ⟨.dev, 0x2020, 2, 4, 1, .u64, .ro, .observer, .c 0, .any⟩
/-- 0x2020:6 PD_STOVE (R465). -/
def D.PD_STOVE : Obj := ⟨.dev, 0x2020, 6, 1, 1, .u16, .ro, .observer, .c 0, .any⟩
/-- 0x2020:7 PD_LANE (R465). -/
def D.PD_LANE : Obj := ⟨.dev, 0x2020, 7, 1, 1, .u8, .ro, .observer, .c 0, .any⟩
/-- 0x2020:8 PD_MISC (R465). -/
def D.PD_MISC : Obj := ⟨.dev, 0x2020, 8, 1, 1, .u32, .ro, .observer, .c 0, .any⟩
/-- 0x2020:9 PD_SWITCHING (R465). -/
def D.PD_SWITCHING : Obj := ⟨.dev, 0x2020, 9, 1, 1, .u8, .ro, .observer, .c 0, .any⟩
/-- 0x2001:1 RST_CMD (R471). -/
def D.RST_CMD : Obj := ⟨.dev, 0x2001, 1, 1, 1, .u8, .wo, .service, .c 0, .range 1 3⟩
/-- 0x2001:2 BOOT_NEXT (R471). -/
def D.BOOT_NEXT : Obj := ⟨.dev, 0x2001, 2, 1, 1, .u8, .rw, .service, .c 255, .orNone 3 0xFF⟩
/-- 0x2003:1 IMG_CMD (R481). -/
def D.IMG_CMD : Obj := ⟨.dev, 0x2003, 1, 1, 1, .u8, .wo, .service, .c 0, .range 1 2⟩
/-- 0x2003:2 IMG_OFS (R481). -/
def D.IMG_OFS : Obj := ⟨.dev, 0x2003, 2, 1, 1, .u32, .rw, .service, .c 0, .special⟩
/-- 0x2003:3 IMG_DATA (R481). -/
def D.IMG_DATA : Obj := ⟨.dev, 0x2003, 3, 1, 1, .domain, .wo, .service, .c 0, .any⟩
/-- 0x2003:4 IMG_LEN (R481). -/
def D.IMG_LEN : Obj := ⟨.dev, 0x2003, 4, 1, 1, .u32, .rw, .service, .c 0, .any⟩
/-- 0x2003:5 IMG_STATE (R481). -/
def D.IMG_STATE : Obj := ⟨.dev, 0x2003, 5, 1, 1, .u8, .ro, .observer, .c 0, .any⟩
/-- 0x2003:6 IMG_BANK_NOW (R481). -/
def D.IMG_BANK_NOW : Obj := ⟨.dev, 0x2003, 6, 1, 1, .u8, .ro, .observer, .c 0, .any⟩
/-- 0x2003:7 IMG_SEQ_NOW (R481). -/
def D.IMG_SEQ_NOW : Obj := ⟨.dev, 0x2003, 7, 1, 1, .u32, .ro, .observer, .c 0, .any⟩
/-- 0x2003:8 IMG_RESULT (R481). -/
def D.IMG_RESULT : Obj := ⟨.dev, 0x2003, 8, 1, 1, .u8, .ro, .observer, .c 0, .any⟩
/-- 0x2003:9 IMG_REFUSED (R481). -/
def D.IMG_REFUSED : Obj := ⟨.dev, 0x2003, 9, 1, 1, .u16, .ro, .observer, .c 0, .any⟩
/-- 0x2000:1 DS_STATE (R485). -/
def D.DS_STATE : Obj := ⟨.dev, 0x2000, 1, 1, 1, .u8, .ro, .observer, .c 0, .any⟩
/-- 0x2000:2 DS_PHASE (R485). -/
def D.DS_PHASE : Obj := ⟨.dev, 0x2000, 2, 1, 1, .u8, .ro, .observer, .c 0, .any⟩
/-- 0x2000:3 UPTIME (R485). -/
def D.UPTIME : Obj := ⟨.dev, 0x2000, 3, 1, 1, .u64, .ro, .observer, .c 0, .any⟩
/-- 0x2002:1 BOOT_MODE (R485). -/
def D.BOOT_MODE : Obj := ⟨.dev, 0x2002, 1, 1, 1, .u8, .ro, .observer, .c 0, .any⟩
/-- 0x2002:2 BOOT_SRC (R485). -/
def D.BOOT_SRC : Obj := ⟨.dev, 0x2002, 2, 1, 1, .u8, .ro, .observer, .c 0, .any⟩
/-- 0x2002:3 STRAPS (R485). -/
def D.STRAPS : Obj := ⟨.dev, 0x2002, 3, 1, 1, .u8, .ro, .observer, .c 0, .any⟩
/-- 0x2002:4 RESET_CAUSE (R485). -/
def D.RESET_CAUSE : Obj := ⟨.dev, 0x2002, 4, 1, 1, .u8, .ro, .observer, .c 1, .any⟩
/-- 0x2002:5 BOOT_RESULT (R485). -/
def D.BOOT_RESULT : Obj := ⟨.dev, 0x2002, 5, 1, 1, .u8, .ro, .observer, .c 0, .any⟩
/-- 0x2002:6 BOOT_MS (R485). -/
def D.BOOT_MS : Obj := ⟨.dev, 0x2002, 6, 1, 1, .u32, .ro, .observer, .c 0, .any⟩
/-- 0x2002:7 WD_RESETS (R485). -/
def D.WD_RESETS : Obj := ⟨.dev, 0x2002, 7, 1, 1, .u8, .ro, .observer, .c 0, .any⟩
/-- 0x2603:1 CON_RATE (R488). -/
def D.CON_RATE : Obj := ⟨.dev, 0x2603, 1, 1, 1, .u32, .rw, .service, .c 0x1C200, .oneOf [9600, 19200, 38400, 57600, 115200, 230400, 460800, 921600, 1000000, 2000000, 3000000]⟩
/-- 0x2603:2 CON_AUTOBAUD (R488). -/
def D.CON_AUTOBAUD : Obj := ⟨.dev, 0x2603, 2, 1, 1, .bool, .rw, .service, .c 1, .any⟩
/-- 0x2603:3 CON_ECHO (R488). -/
def D.CON_ECHO : Obj := ⟨.dev, 0x2603, 3, 1, 1, .bool, .rw, .service, .c 1, .any⟩
/-- 0x2603:4 CON_SCOPE (R488). -/
def D.CON_SCOPE : Obj := ⟨.dev, 0x2603, 4, 1, 1, .u8, .ro, .observer, .c 0, .any⟩
/-- 0x2603:5 CON_FRAMING (R488). -/
def D.CON_FRAMING : Obj := ⟨.dev, 0x2603, 5, 1, 1, .u32, .rw, .service, .c 0, .counter⟩
/-- 0x2600:1 TPA_SRC (R495). -/
def D.TPA_SRC : Obj := ⟨.dev, 0x2600, 1, 1, 1, .u8, .rw, .service, .c 0, .special⟩
/-- 0x2600:2 TPA_STOVE (R495). -/
def D.TPA_STOVE : Obj := ⟨.dev, 0x2600, 2, 1, 1, .u8, .rw, .service, .c 0, .range 0 15⟩
/-- 0x2600:3 TPB_SRC (R495). -/
def D.TPB_SRC : Obj := ⟨.dev, 0x2600, 3, 1, 1, .u8, .rw, .service, .c 0, .special⟩
/-- 0x2600:4 TPB_STOVE (R495). -/
def D.TPB_STOVE : Obj := ⟨.dev, 0x2600, 4, 1, 1, .u8, .rw, .service, .c 0, .range 0 15⟩
/-- 0x2600:5 TPA_EXPECT (R495). -/
def D.TPA_EXPECT : Obj := ⟨.dev, 0x2600, 5, 1, 1, .f32, .ro, .observer, .c 0, .any⟩
/-- 0x2600:6 TPB_EXPECT (R495). -/
def D.TPB_EXPECT : Obj := ⟨.dev, 0x2600, 6, 1, 1, .f32, .ro, .observer, .c 0, .any⟩
/-- 0x2602:1 CT_BALL (R498). -/
def D.CT_BALL : Obj := ⟨.dev, 0x2602, 1, 1, 1, .u16, .rw, .service, .c 0, .any⟩
/-- 0x2602:2 CT_POL (R498). -/
def D.CT_POL : Obj := ⟨.dev, 0x2602, 2, 1, 1, .u8, .rw, .service, .c 0, .range 0 1⟩
/-- 0x2602:3 CT_CMD (R498). -/
def D.CT_CMD : Obj := ⟨.dev, 0x2602, 3, 1, 1, .u8, .wo, .service, .c 0, .range 1 1⟩
/-- 0x2602:4 CT_V (R498). -/
def D.CT_V : Obj := ⟨.dev, 0x2602, 4, 1, 1, .f32, .ro, .observer, .c 0, .any⟩
/-- 0x2602:5 CT_R (R498). -/
def D.CT_R : Obj := ⟨.dev, 0x2602, 5, 1, 1, .f32, .ro, .observer, .c 0, .any⟩
/-- 0x2602:6 CT_RESULT (R498). -/
def D.CT_RESULT : Obj := ⟨.dev, 0x2602, 6, 1, 1, .u8, .ro, .observer, .c 0, .any⟩
/-- 0x2601:1 FT_SEL (R500). -/
def D.FT_SEL : Obj := ⟨.dev, 0x2601, 1, 1, 1, .u8, .rw, .service, .c 1, .range 1 10⟩
/-- 0x2601:2 FT_UNIT (R500). -/
def D.FT_UNIT : Obj := ⟨.dev, 0x2601, 2, 1, 1, .u16, .rw, .service, .c 0, .any⟩
/-- 0x2601:3 FT_ARG (R500). -/
def D.FT_ARG : Obj := ⟨.dev, 0x2601, 3, 1, 1, .u32, .rw, .service, .c 0, .any⟩
/-- 0x2601:4 FT_CMD (R500). -/
def D.FT_CMD : Obj := ⟨.dev, 0x2601, 4, 1, 1, .u8, .wo, .service, .c 0, .range 1 2⟩
/-- 0x2601:5 FT_STATE (R500). -/
def D.FT_STATE : Obj := ⟨.dev, 0x2601, 5, 1, 1, .u8, .ro, .observer, .c 0, .any⟩
/-- 0x2601:6 FT_STEP (R500). -/
def D.FT_STEP : Obj := ⟨.dev, 0x2601, 6, 1, 1, .u8, .ro, .observer, .c 0, .any⟩
/-- 0x2601:7 FT_RESULT (R500). -/
def D.FT_RESULT : Obj := ⟨.dev, 0x2601, 7, 1, 1, .u8, .ro, .observer, .c 0, .any⟩
/-- 0x2601:8 FT_VALUE (R500). -/
def D.FT_VALUE : Obj := ⟨.dev, 0x2601, 8, 1, 1, .f32, .ro, .observer, .c 0, .any⟩
/-- 0x2601:9 FT_EXPECT (R500). -/
def D.FT_EXPECT : Obj := ⟨.dev, 0x2601, 9, 1, 1, .f32, .ro, .observer, .c 0, .any⟩
/-- 0x2601:10 FT_DETAIL (R500). -/
def D.FT_DETAIL : Obj := ⟨.dev, 0x2601, 10, 1, 1, .u32, .ro, .observer, .c 0, .any⟩
/-- 0x2601:11 FT_ENTRY (R500). -/
def D.FT_ENTRY : Obj := ⟨.dev, 0x2601, 11, 1, 1, .f64, .wo, .service, .c 0, .any⟩
/-- 0x2210:1–16 EVI_CFG (R308). -/
def D.EVI_CFG : Obj := ⟨.dev, 0x2210, 1, 16, 1, .u16, .rw, .owner, .c 4, .special⟩
/-- 0x2211:1–16 EVO_CFG (R309). -/
def D.EVO_CFG : Obj := ⟨.dev, 0x2211, 1, 16, 1, .u32, .rw, .owner, .c 100, .special⟩
/-- 0x2212:1 EVI_LEVEL (R309). -/
def D.EVI_LEVEL : Obj := ⟨.dev, 0x2212, 1, 1, 1, .u16, .ro, .observer, .c 0, .any⟩
/-- 0x2212:2 EVO_LEVEL (R309). -/
def D.EVO_LEVEL : Obj := ⟨.dev, 0x2212, 2, 1, 1, .u16, .ro, .observer, .c 0, .any⟩
/-- 0x2403:0–255 CAL_FACTORS (R416). -/
def D.CAL_FACTORS : Obj := ⟨.dev, 0x2403, 0, 256, 1, .domain, .rw, .owner, .c 0, .any⟩

/-- Objects of the device block, part 0 of the list. -/
def objectsD0 : List Obj := [D.SC_CMD, D.SC_STATUS, D.SC_ELAPSED, D.SC_FAILED, D.SC_SKIPPED, D.SC_DONE, D.TRIM_SEL, D.STAGE_GAIN, D.STAGE_OFS, D.ABS_GAIN, D.RESIDUAL, D.TRIM_RESULT, D.TRIM_TIME, D.MATCH_OFS, D.MATCH_GAIN, D.SEG_SEL, D.SEG_OFS, D.KIND, D.NEXT, D.LEN, D.FILLED, D.UF_ACTION, D.SAFE_SEG, D.ACTIVE, D.SEG_CRC, D.SEG_DATA, D.AR_EN, D.AR_TRIGGER, D.AR_FLUE, D.AR_STATUS, D.AR_STARTED, D.AR_REFUSED, D.TG_MASTER, D.TG_CMD, D.TG_STATE, D.TG_AUTO, D.TG_MEMBERS, D.TG_FIRES, D.TG_LAST_UNIT, D.TG_LAST_TIME]

/-- Objects of the device block, part 1 of the list. -/
def objectsD1 : List Obj := [D.QUOTA, D.USE, D.QDROPS, D.Q_SEL, D.BASE, D.SIZE_LOG2, D.ENABLE, D.WATERMARK, D.WM_FLUE, D.MARK_FLUE, D.RD_PTR, D.CM_PTR, D.WR_PTR, D.LEVEL, D.AVAIL, D.REMAIN, D.Q_STATUS, D.DROPPED, D.GAPS, D.WM_CROSSINGS, D.LAST_READ, D.CONSUMER, D.PENDING_GAP, D.QC_CMD, D.QC_ARG, D.Q_WORD, D.Q_BLOCK, D.SRC_SEL, D.SRC_FLUE, D.SRC_COUNT, D.CONS_SEL, D.GATE, D.C_STATUS, D.C_OVERRUNS, D.C_MERGES, D.C_GATED, D.FIRE, D.FIRE_BLOCK, D.FIRE_BITS, D.F_SEL]

/-- Objects of the device block, part 2 of the list. -/
def objectsD2 : List Obj := [D.F_LEVEL, D.F_SOFT, D.F_EVENTS, D.F_MERGES, D.F_LAST, D.F_LAST_GEN, D.FL_FLAGS, D.LOOP_FLUE, D.LOOPS_CUT, D.TB_NOW, D.TB_FRAC, D.TB_INC, D.STEP_ABS, D.STEP_REL, D.STEP_UNLOCK, D.TB_FLAGS, D.JUMP_THRESHOLD, D.SLEW_MAX, D.SERVO_TC, D.TIME_ACCEPT, D.SERVO_STATE, D.REFUSED_OFS, D.TB_STEPS, D.FREQ_EST, D.ROLE, D.DELAY_MECH, D.TRANSPORT, D.PTP_DOMAIN, D.TWO_STEP, D.PRIORITY1, D.PRIORITY2, D.CLOCK_CLASS, D.LOG_SYNC, D.LOG_ANNOUNCE, D.ANNOUNCE_TIMEOUT, D.LOG_DELAY, D.DELAY_ASYM, D.PORT_STATE, D.MASTER_ID, D.OFFSET]

/-- Objects of the device block, part 3 of the list. -/
def objectsD3 : List Obj := [D.MEAN_DELAY, D.RX_IGNORED, D.TSQ_HEAD, D.TSQ_LEVEL, D.TSQ_FLAGS, D.TSQ_LOST, D.LQ_TIME, D.LQ_FLAGS, D.LQ_TAG, D.LQ_FRAME, D.LQ_LEVEL, D.LQ_SENT, D.LQ_LATE, D.LQ_DROPPED, D.LQ_LAST, D.LQ_FLUSH, D.CMP_EN, D.CMP_TB, D.CMP_TIME, D.CMP_PERIOD, D.CMP_HITS, D.CMP_SKIPPED, D.CAP_FLUE, D.CAP_TB, D.CAP_OVERWRITE, D.CAP_TIME, D.CAP_FRAC, D.CAP_VALID, D.CAP_COUNT, D.CV_COUNT, D.SYNC_ARM, D.SYNC_LOAD, D.SYNC_OUT_AT, D.SYNC_STATUS, D.SYNC_DELTA, D.SYNC_LAST, D.PORT_MODE, D.AN_EN, D.FEC_MODE, D.LANE_POL]

/-- Objects of the device block, part 4 of the list. -/
def objectsD4 : List Obj := [D.MAC_ADDR, D.MTU, D.VLAN, D.IP4_ADDR, D.IP4_MASK, D.IP6_ADDR, D.ETHERTYPE, D.UDP_PORT, D.V1_EN, D.V1_AUTOCLAIM, D.LEASE_MS, D.LOSS_ACTION, D.LINK, D.MODE_NOW, D.FEC_NOW, D.LANE_LOCK, D.FEC_CORR, D.FEC_UNCORR, D.RX_FRAMES, D.TX_FRAMES, D.RX_DROPPED, D.RX_BAD, D.LEASE_STATE, D.ACCESS_RATE, D.PORT_FLAGS, D.GRANT_PORTS, D.GRANT_TIME, D.GRANT_LEFT, D.ST_SEL, D.ST_QUEUE, D.ST_TRANSPORT, D.ST_DST_MAC, D.ST_DST_IP4, D.ST_DST_IP6, D.ST_DST_UDP, D.ST_MAX_FRAME, D.ST_HOLDOFF, D.ST_RATE, D.ST_FLAGS, D.ST_ENABLE]

/-- Objects of the device block, part 5 of the list. -/
def objectsD5 : List Obj := [D.STM_CMD, D.ST_FRAMES, D.ST_WORDS, D.ST_STATE, D.NT_MASK, D.NT_QUEUE, D.NT_SENT, D.NT_DROPPED, D.OWN_SEL, D.OWN_PORT, D.OWN_EPOCH, D.OWN_CLAIM, D.OWN_WEST, D.OWN_EAST, D.OWN_CHECK, D.OWN_DISPUTED, D.OWN_CHECKS, D.ARB_SEL, D.ARB_RESOLVE, D.VENDOR, D.PRODUCT, D.ORDER_CODE, D.GRADE, D.SERIAL, D.MAC_BASE, D.LOGIC_REV, D.MS_REV, D.DATE_CODE, D.ROM_MAIN, D.ROM_ISLAND, D.DICT_LAYOUT, D.SAMOVAR_VERS, D.CAP_CHANNELS, D.CAP_STOVES, D.CAP_HEARTHS, D.CAP_QUEUES, D.CAP_QMEM, D.CAP_SEGMENTS, D.CAP_FLUES, D.CAP_TBASES]

/-- Objects of the device block, part 6 of the list. -/
def objectsD6 : List Obj := [D.CAP_PORTS, D.CAP_LANES, D.T_POLL, D.TS_STALE, D.SET_MERGE, D.RUN_SPREAD, D.CR_CHANNEL, D.CR_VAR, D.CR_RANGE, D.CR_SET, D.CR_POINTS, D.PT_1, D.CR_TRUTH, D.CR_COMPL, D.CR_SETTLE, D.CR_APERTURE, D.CR_TOL, D.CR_CMD, D.CR_STATE, D.CR_POINT, D.CR_REJECTS, D.CR_RESULT, D.CR_TEMP, D.CR_STARTER, D.CM_STATE, D.CM_UNIT, D.CM_NOMINAL, D.CM_DEVICE, D.CM_ENTRY, D.CM_TIMEOUT, D.CAL_ST_CMD, D.STORE_RESULT, D.BANK_NOW, D.SEQ_NOW, D.LOAD_RESULT, D.DIRTY, D.STORED_AT, D.FC_SEL, D.FC_N, D.FC_WINDOW]

/-- Objects of the device block, part 7 of the list. -/
def objectsD7 : List Obj := [D.FC_REACT, D.FC_HIST, D.FC_FIXED, D.DF_CODE, D.DF_UNIT, D.DF_TIME, D.DF_OVF, D.WORST, D.FENCED_CH, D.FENCED_ST, D.FENCED_IF, D.EVENTS, D.SEVERE, D.LAST_CODE, D.LAST_UNIT, D.CH_ANY, D.ST_ANY, D.DEV_ANY, D.CH_SEVERE, D.ST_SEVERE, D.DEV_SEVERE, D.STICKY_SINCE, D.FLT_SEVERITY, D.FLT_LOW, D.FLT_FALLS, D.H_COUNT, D.H_NEWEST, D.H_SEL, D.H_RECORD, D.H_PENDING, D.H_LOST, D.H_STATE, D.H_BOOTS, D.CLR_TARGET, D.CLR_CMD, D.CLR_RESULT, D.FI_INJ_CHECKER, D.FI_INJ_INSTANCE, D.FI_INJ_MODE, D.FI_INJ_CLASSIFY]

/-- Objects of the device block, part 8 of the list. -/
def objectsD8 : List Obj := [D.FI_INJ_STATE, D.FI_INJ_HITS, D.FI_INJ_REAL, D.FI_INJ_LAST, D.RAIL_V, D.SM_LOW, D.SM_MIN, D.CORE_LOCK, D.CV_LOCK, D.CV_MUL, D.CV_DIV, D.F_CV, D.CVCLK_MEAS, D.SYSCLK_MEAS, D.REF_LOST, D.FL_DIV, D.DT_LOGIC, D.DT_MS, D.DT_MAX, D.PD_CMD, D.PD_CH, D.PD_STOVE, D.PD_LANE, D.PD_MISC, D.PD_SWITCHING, D.RST_CMD, D.BOOT_NEXT, D.IMG_CMD, D.IMG_OFS, D.IMG_DATA, D.IMG_LEN, D.IMG_STATE, D.IMG_BANK_NOW, D.IMG_SEQ_NOW, D.IMG_RESULT, D.IMG_REFUSED, D.DS_STATE, D.DS_PHASE, D.UPTIME, D.BOOT_MODE]

/-- Objects of the device block, part 9 of the list. -/
def objectsD9 : List Obj := [D.BOOT_SRC, D.STRAPS, D.RESET_CAUSE, D.BOOT_RESULT, D.BOOT_MS, D.WD_RESETS, D.CON_RATE, D.CON_AUTOBAUD, D.CON_ECHO, D.CON_SCOPE, D.CON_FRAMING, D.TPA_SRC, D.TPA_STOVE, D.TPB_SRC, D.TPB_STOVE, D.TPA_EXPECT, D.TPB_EXPECT, D.CT_BALL, D.CT_POL, D.CT_CMD, D.CT_V, D.CT_R, D.CT_RESULT, D.FT_SEL, D.FT_UNIT, D.FT_ARG, D.FT_CMD, D.FT_STATE, D.FT_STEP, D.FT_RESULT, D.FT_VALUE, D.FT_EXPECT, D.FT_DETAIL, D.FT_ENTRY, D.EVI_CFG, D.EVO_CFG, D.EVI_LEVEL, D.EVO_LEVEL, D.CAL_FACTORS]

/-- Every object of the device block. -/
def objectsD : List Obj := objectsD0 ++ objectsD1 ++ objectsD2 ++ objectsD3 ++ objectsD4 ++ objectsD5 ++ objectsD6 ++ objectsD7 ++ objectsD8 ++ objectsD9

/-- The object of a list that holds offset `off` (of instance `u`) and subindex `sub`. -/
def findObj : List Obj → Nat → Nat → Option Obj
  | [], _, _ => none
  | o :: os, off, sub =>
    if o.off ≤ off && decide (off < o.off + o.ninst) && decide (o.sub ≤ sub) && decide (sub < o.sub + o.nsubs)
    then some o else findObj os off sub

/-- The highest subindex an object defines at an offset, where its subindices start at 1 (R380). -/
def topSub (os : List Obj) (off : Nat) : Nat :=
  os.foldl (fun m o => if o.off ≤ off && decide (off < o.off + o.ninst) then max m (o.sub + o.nsubs - 1) else m) 0

/-- An object found at an index and subindex: the row, the unit or instance, and the place within the row. -/
structure Found where
  o : Obj
  unit : Nat
  i : Nat
  deriving DecidableEq, Repr

/-- The object at a full index and subindex (R9, R378, R379); none where the spec defines none. Subindex 0 of
R380, the Limtur registers and the windows of DOMAIN type are answered beside it. -/
def lookupObj (index sub : Nat) : Option Found :=
  if 0x4000 ≤ index && decide (index < 0x8000) then
    let u := (index - 0x4000) / 0x40
    let off := (index - 0x4000) % 0x40
    if off ≥ 0x38 then none else
    (findObj objectsC off sub).map (fun o => ⟨o, u, sub - o.sub⟩)
  else if 0x8000 ≤ index && decide (index < 0xA000) then
    let u := 256 + (index - 0x8000) / 0x40
    let off := (index - 0x8000) % 0x40
    if off = 0x28 || off = 0x29 then none else
    (findObj objectsC off sub).map (fun o => ⟨o, u, sub - o.sub⟩)
  else if 0x3000 ≤ index && decide (index < 0x3100) then
    (findObj objectsS ((index - 0x3000) % 0x10) sub).map (fun o => ⟨o, (index - 0x3000) / 0x10, sub - o.sub⟩)
  else
    (findObj objectsD index sub).map (fun o => ⟨o, index - o.off, sub - o.sub⟩)

/-- The highest subindex of the object at an index: what subindex 0 reads where R380 adds it; none where the
index is not defined or its table lists subindex 0 itself. -/
def countSub (index : Nat) : Option Nat :=
  let t :=
    if 0x4000 ≤ index && decide (index < 0x8000) then
      let off := (index - 0x4000) % 0x40
      if off ≥ 0x38 then 0 else topSub objectsC off
    else if 0x8000 ≤ index && decide (index < 0xA000) then
      let off := (index - 0x8000) % 0x40
      if off = 0x28 || off = 0x29 then 0 else topSub objectsC off
    else if 0x3000 ≤ index && decide (index < 0x3100) then topSub objectsS ((index - 0x3000) % 0x10)
    else topSub objectsD index
  if t = 0 then none else some t

/-- The default of an object found. -/
def Found.default (f : Found) : Int := f.o.default f.unit f.i

end Sys2Proof.Machine
end

