-- ==== Sys2Proof/Machine/UnitTypes.lean ====
section
/-! DEFINITION. The state of one channel (physical or virtual), of one stove and of one hearth, beside the values
of its dictionary objects. Times of converter edges are counts of the internal tick; times of gate edges are in 1/64
of a converter period. -/

namespace Sys2Proof.Machine

/-- Channel states (R36). -/
inductive ChState where
  | off
  | monitor
  | source
  | hold
  | calibrating
  | fenced
  deriving DecidableEq, Repr

/-- The code of a channel state in CH_STATE (R36). -/
def ChState.code : ChState → Nat
  | .off => 0
  | .monitor => 1
  | .source => 2
  | .hold => 3
  | .calibrating => 4
  | .fenced => 5

/-- Switch states (R44, R54). -/
inductive Sw where
  | idle
  | low
  | high
  deriving DecidableEq, Repr

/-- The code of a switch state in CTL_FLAGS (R63). -/
def Sw.code : Sw → Nat
  | .idle => 0
  | .low => 1
  | .high => 2

/-- An injection run in progress (R87, R88). -/
structure Inj where
  /-- running -/
  on : Bool := false
  /-- tick of the first slot of the run -/
  from_ : Nat := 0
  /-- sample index within the run -/
  k : Nat := 0
  /-- PRBS register -/
  prbs : Nat := 0
  /-- samples since the last recorded one -/
  skip : Nat := 0
  /-- records of the packet in progress, four words each, oldest first -/
  recs : List (List Nat) := []
  /-- TB2 time of the first record, in ns -/
  first : Nat := 0
  deriving DecidableEq, Repr

/-- One converter watched for standing still (R79). -/
structure Stuck where
  last : Int := 0
  run : Nat := 0
  edge : Bool := false
  deriving DecidableEq, Repr

/-- The control engine's state of one channel (R36–R88). -/
structure Ctl where
  /-- channel state (R36) -/
  st : ChState := .off
  /-- commanded switch state (R51, R55) -/
  sw : Sw := .idle
  /-- switch state whose gate the last edge turned on (R54) -/
  out : Sw := .idle
  /-- switch state before the last edge: its gate fell at the edge -/
  prior : Sw := .idle
  /-- time of the last edge, in 1/64 cv; none before the first -/
  edgeAt : Option Nat := none
  /-- time at which a pending edge to `sw` lands, in 1/64 cv (R55) -/
  pend : Option Nat := none
  /-- force DAC code (R37, R84) -/
  dac : Nat := 524288
  /-- target in force (R41, R45) -/
  tgt : Int := 0
  /-- corrected V samples with their phase terms, newest first, at most four (R50, R53) -/
  hv : List Int := []
  /-- the same for I -/
  hi : List Int := []
  /-- sample edge of the sample waiting for its slot (R20, R49) -/
  fresh : Option Nat := none
  /-- whether that sample saturated at correction, V and I (R81, R140) -/
  satV : Bool := false
  satI : Bool := false
  /-- the slot is taken by a converter swap or a substitution (R21, R171) -/
  swapSlot : Bool := false
  /-- band in force (R60–R62) -/
  band : Int := 0x51EB85
  /-- times of the edges to high since the switch was last idle, newest first, at most 17 (R61) -/
  highs : List Nat := []
  /-- BAND_LOCKED (R61) -/
  locked : Bool := false
  /-- limit in force: upper or lower (R67–R70) -/
  limit : Option Bool := none
  /-- a limit has been in force since a calibration pair began (R412 cause 6) -/
  limSeen : Bool := false
  /-- ticks of recent hand-overs (R71) -/
  hands : List Nat := []
  /-- consecutive missed decisions (R65) -/
  missRun : Nat := 0
  /-- the idle state of R65 has been forced in this run of misses -/
  idled : Bool := false
  /-- linear trim in 2^-51 of full scale (R84) -/
  trim : Int := 0
  /-- sticky flags, CTL_FLAGS bits 15:0 (R63) -/
  sticky : Nat := 0
  /-- sum and count of the error over the running switching period (R76) -/
  oscSum : Int := 0
  oscN : Nat := 0
  /-- sign of the last average, start of the excursion cycle, whether its peak is above OSC_THRESH, qualifying cycles (R76) -/
  oscPos : Option Bool := none
  oscStart : Nat := 0
  oscBig : Bool := false
  oscRun : Nat := 0
  /-- converters watched for standing still (R79) -/
  stuckV : Stuck := {}
  stuckI : Stuck := {}
  /-- Kelvin check: samples and sum of the running half-period, sums of the halves before, failed full periods (R80) -/
  kelN : Nat := 0
  kelSum : Int := 0
  kelHalf : Option Int := none
  kelBad : Nat := 0
  /-- current direction of the sense check: false in, true reversed -/
  kelRev : Bool := false
  /-- consecutive saturated samples (R81) -/
  satRun : Nat := 0
  /-- injection run (R87) -/
  inj : Inj := {}
  /-- feed-forward entries, key table × 256 + entry (R58, R59) -/
  ff : SMap Nat := []
  /-- interleave phases of the last 16 own edges: within Tt/64 (R134) -/
  ilOk : List Bool := []
  deriving DecidableEq, Repr

/-- Phase of a range change of one variable (R104). -/
inductive RngPhase where
  | steady
  /-- requested range -/
  | pending (r : Nat)
  | making (r : Nat)
  /-- range left, converter tick of the MAKE latch -/
  | made (old since : Nat)
  /-- T_MAKE has elapsed, the BREAK waits for its transfer -/
  | breakDue (old : Nat)
  | breaking (old : Nat)
  deriving DecidableEq, Repr

/-- Range selection of one variable of a channel (R89–R107). -/
structure Rng where
  /-- range in force: I_NOW or V_NOW -/
  now : Nat
  ph : RngPhase := .steady
  /-- request held during Making, Made or Breaking (R106) -/
  held : Option Nat := none
  /-- request held back by range lock or a sweep point (R96, R97); true where autorange upward made it -/
  deferred : Option (Nat × Bool) := none
  /-- consecutive samples above AR_UP; tick since which the reading is below AR_DOWN; OVER_TOP (R95) -/
  up : Nat := 0
  below : Option Nat := none
  overTop : Bool := false
  /-- both paths made after a failed BREAK (R104) -/
  both : Bool := false
  /-- range before the last MAKE latch, and the first sample edge corrected with the new range (R105) -/
  prev : Nat := 0
  newFrom : Nat := 0
  deriving DecidableEq, Repr

/-- Who runs an aperture (R146, R148). -/
inductive ApOwner where
  | free
  | step
  deriving DecidableEq, Repr

/-- A running aperture (R146–R149). -/
structure Ap where
  owner : ApOwner
  /-- edge of its first sample; time of that edge in ns and TB of AP_TB -/
  edge0 : Nat
  start : Nat
  mode : Nat
  /-- samples it holds in AP_MODE 0; line events still to come in AP_MODE 1 -/
  len : Nat
  n : Nat := 0
  sumV : Int := 0
  sumI : Int := 0
  rawV : Int := 0
  rawI : Int := 0
  flagV : Nat := 0
  flagI : Nat := 0
  /-- tick at which LINE_TIMEOUT runs out -/
  lineDue : Nat := 0
  /-- ended by a line event or a MAKE latch -/
  ended : Bool := false
  /-- the accumulators at its latest sample (R209) -/
  accQ : Int := 0
  accE : Int := 0
  deriving DecidableEq, Repr

/-- A charge or energy accumulator (R152–R154): exact in units of 2^-64 A·s or 2^-60 J. -/
structure Accu where
  val : Int := 0
  run : Bool := true
  sat : Bool := false
  miss : Bool := false
  /-- last increment -/
  inc : Int := 0
  /-- TB2 time of the last clear, and samples repeated since then -/
  since : Nat := 0
  held : Nat := 0
  /-- ACC_CMD commands that wait for their sample edge, oldest first: edge, command, TB2 time of that edge (R154) -/
  cmds : List (Nat × Nat × Nat) := []
  deriving DecidableEq, Repr

/-- Lock-in phases (R156). -/
inductive LiPhase where
  | idle
  | waitTurn
  | settling
  /-- the settle turns have gone by; the window has begun -/
  | settled
  | integrating
  deriving DecidableEq, Repr

/-- A complete window of the lock-in: samples, sums in 2^-60 of a Q2.31 code, and frequency word (R157). -/
structure LiDone where
  n : Nat
  vr : Int
  vi : Int
  ir : Int
  ii : Int
  f : Nat
  deriving DecidableEq, Repr

/-- Lock-in demodulator (R156–R158). -/
structure LockIn where
  ph : LiPhase := .idle
  /-- whole turns of the reference at the last sample -/
  turn : Int := 0
  /-- turns left in the settle or the window -/
  left : Nat := 0
  n : Nat := 0
  vr : Int := 0
  vi : Int := 0
  ir : Int := 0
  ii : Int := 0
  /-- a valid result has been published; the last window had too little current -/
  valid : Bool := false
  weak : Bool := false
  /-- a complete window whose result is not published yet -/
  done : Option LiDone := none
  deriving DecidableEq, Repr

/-- Path factors of one variable (R394). -/
structure Factors where
  o : Int := 0
  g : Int := 0x40000000
  k2 : Int := 0
  deriving DecidableEq, Repr

/-- A sample kept for the sums of a hearth: its edge, Q2.31 values and raw codes (R130). -/
structure OldSample where
  edge : Nat
  yV : Int
  yI : Int
  cV : Int
  cI : Int
  deriving DecidableEq, Repr

/-- Measurement state of a channel (R135–R158, R394, R402). -/
structure Meas where
  /-- last Q2.31 samples, raw codes and their edge -/
  yV : Int := 0
  yI : Int := 0
  cV : Int := 0
  cI : Int := 0
  edge : Nat := 0
  /-- the two samples before it, newest first -/
  past : List OldSample := []
  /-- a sample has been delivered since reset; the last one was at a code limit, or beyond Q1.31 -/
  got : Bool := false
  overV : Bool := false
  overI : Bool := false
  /-- sample edges of the last swap or substitution of the V and the I role (R170, R171) -/
  swapV : Option Nat := none
  swapI : Option Nat := none
  ap : Option Ap := none
  /-- the free-running aperture starts at the next sample -/
  freeNext : Bool := false
  /-- the first edge the first free-running aperture may start with (R146) -/
  freeFrom : Nat := 0
  /-- an aperture of a step or point that waits for its first sample: mode, length, first edge it may start with -/
  stepNext : Option (Nat × Nat × Nat) := none
  /-- the last aperture of a step or point, until its record is written -/
  stepRes : Option Ap := none
  /-- a calibration pair: length of the second reading still to start, and the first reading (R409) -/
  again : Option Nat := none
  stepFirst : Option Ap := none
  /-- AP_MODE 1: a line event has arrived and the next sample starts the aperture -/
  lineSeen : Bool := false
  /-- tick from which LINE_TIMEOUT counts while an aperture waits for its first line event -/
  lineWait : Option Nat := none
  q : Accu := {}
  e : Accu := {}
  li : LockIn := {}
  /-- converters settle until this tick (R138) -/
  settle : Option Nat := none
  stale : Bool := false
  /-- factors in force and pending, key 0–7 current ranges, 8–11 voltage ranges (R395, R402) -/
  fact : SMap Factors := []
  pend : Option (SMap Factors) := none
  /-- tick at which factors were made pending, and the temperature they were formed at -/
  pendAt : Nat := 0
  pendT : Int := 0
  /-- the factors before those in force, and the first edge corrected with those in force (R402) -/
  factOld : SMap Factors := []
  factFrom : Nat := 0
  /-- core cycle of the last temperature poll; TEMP_LOST; TEMP_OUT at that poll (R398, R399) -/
  polled : Nat := 0
  tempLost : Bool := false
  tempOut : Bool := false
  deriving DecidableEq, Repr

/-- A physical converter ADC00–ADC33 (R163–R166). -/
structure Conv where
  /-- role held (0–31) or spare state: 0x40 free, 0x41 calibrating, 0x42 matching, 0x43 freed, 0x80 failed -/
  role : Nat
  failed : Bool := false
  matchOfs : Int := 0
  matchGain : Int := 0x40000000
  /-- TRIM_RESULT and TRIM_TIME -/
  result : Nat := 0
  time : Nat := 0
  /-- the model's own: number of the first free value of its stage factors, 0 before a pass (log 8) -/
  fact : Nat := 0
  deriving DecidableEq, Repr

/-- The converter ADCc after power-on (R164). -/
def Conv.initial (c : Nat) : Conv := ⟨if c < 32 then c else 0x40, false, 0, 0x40000000, 0, 0, 0⟩

/-- States of spare rotation (R168). -/
inductive RotPhase where
  | waiting
  | calSpare
  | matching
  | swapPending
  | calFreed
  | paused
  | disabled
  deriving DecidableEq, Repr

/-- The code of a rotation state in ROT_STATE (R166). -/
def RotPhase.code : RotPhase → Nat
  | .waiting => 0
  | .calSpare => 1
  | .matching => 2
  | .swapPending => 3
  | .calFreed => 4
  | .paused => 5
  | .disabled => 6

/-- Spare rotation of a stove (R168–R170). -/
structure Rot where
  ph : RotPhase := .waiting
  role : Nat := 255
  spare : Nat := 0
  freed : Nat := 0
  /-- core cycle from which ROT_INTERVAL counts -/
  since : Nat := 0
  /-- tick at which the phase's time ends -/
  due : Nat := 0
  n : Nat := 0
  sum : Int := 0
  deriving DecidableEq, Repr

/-- A self-calibration under way (R159–R161): the tick at which it ends, its channels and its spares, these as
stove × 256 + converter; whether it is a SELFCAL run, and the TB2 time of its start. -/
structure SelfRun where
  due : Nat
  units : List Nat
  spares : List Nat
  selfcal : Bool
  deriving DecidableEq, Repr

/-- A transfer on the range link (R99). -/
structure Transfer where
  /-- patterns of positions 0 to 15 -/
  pats : List Nat
  /-- false on the first LOAD and CHECK, true on the repeat -/
  again : Bool
  /-- INIT: no make-before-break (R102) -/
  init : Bool
  /-- core cycle at which the running CHECK ends -/
  due : Nat
  /-- of the failed CHECK: the stage for FIRST_BAD_BIT; whether it was injected, and whether a real mismatch stood
  (R99, R451, R452) -/
  bad : Nat := 0
  wasInj : Bool := false
  wasReal : Bool := false
  deriving DecidableEq, Repr

/-- Range link of a stove (R98–R107). -/
structure Link where
  xfer : Option Transfer := none
  /-- an INIT transfer is wanted (R102) -/
  initDue : Bool := false
  latched : SMap Nat := []
  /-- core cycle from which the next LOAD may start, and the tick of the last latch for REFRESH (R100, R102) -/
  lastCc : Nat := 0
  lastTick : Nat := 0
  fault : Bool := false
  deriving DecidableEq, Repr

/-- What an event a unit raises inherits from the flue event its consumer acted on (R302): the generation it carries
and the consumer's number. -/
structure Cause where
  gen : Nat := 0
  cons : Nat := 0
  deriving DecidableEq, Repr

/-- A conversion of the auxiliary ADC under way (R179–R182). -/
inductive AuxPhase where
  | idle
  /-- entry number 1–16 of the running sequence -/
  | seq (entry : Nat)
  /-- urgent with the sequence idle -/
  | urgent
  /-- urgent, the entry interrupted -/
  | urgentIn (entry : Nat)
  deriving DecidableEq, Repr

/-- Auxiliary scan of a stove (R175–R183). -/
structure Aux where
  ph : AuxPhase := .idle
  /-- copy of the sequence taken at its start (R180) -/
  copy : List Nat := []
  /-- urgent entry as read when the request landed -/
  urg : Nat := 0
  /-- a start held during an urgent conversion (R181) -/
  heldStart : Bool := false
  /-- TB2 time of the running sequence's start -/
  start : Nat := 0
  /-- tick at which the conversion under way ends -/
  due : Nat := 0
  /-- generation of the flue event that started the sequence, and the urgent request (R302) -/
  gen : Cause := {}
  genU : Cause := {}
  /-- core cycle at which an entry's result was last updated (R398) -/
  upd : SMap Nat := []
  deriving DecidableEq, Repr

/-- A stove (R15, R92–R115, R159–R186). -/
structure Stove where
  fenced : Bool := false
  /-- STk_ILK_N is high at the ball -/
  ilk : Bool := true
  /-- STAGE_EN is forced low from outside (R111) -/
  extLow : Bool := false
  link : Link := {}
  conv : SMap Conv := []
  rot : Rot := {}
  /-- roles waiting for a spare (R171) -/
  substWait : List Nat := []
  /-- roles held by a substituted converter, roles suspect, roles reported failed: bit r -/
  subst : Nat := 0
  suspect : Nat := 0
  noSpare : Nat := 0
  aux : Aux := {}
  /-- comparator outputs (R183) -/
  cmp : Nat := 0
  /-- the words in the staging buffer, at most 64, oldest first: the bank group each goes to (R23) -/
  staged : List Nat := []
  deriving DecidableEq, Repr

/-- A word of the hearth bus: the leader's predicted current in its range, and the leader with its fraction (R127). -/
structure BusWord where
  x : Int
  range : Nat
  leader : Nat
  f : Rat2
  deriving DecidableEq, Repr

/-- A command that a hearth's leaves in several stoves carry out 2 cv later: its code, the code of the state it was given
in, whether a step of the hearth's own engine gave it, its cause, and the tick (R124). -/
structure HearthCmd where
  code : Nat
  inState : Nat
  eng : Bool
  cause : Cause
  due : Nat
  deriving DecidableEq, Repr

/-- A hearth, beside its channel state (R116–R134). -/
structure Hearth where
  /-- leaves outside the active set -/
  out : List Nat := []
  /-- leaves fenced with the hearth (R132) -/
  fencedWith : List Nat := []
  /-- tick at whose slots the next active set comes into force (R128) -/
  due : Option Nat := none
  /-- leaves that leave, and that rejoin, at that tick -/
  leaving : List Nat := []
  joining : List Nat := []
  /-- commands that its leaves carry out at a later tick, in order -/
  cmds : List HearthCmd := []
  /-- the hearth bus's newest words by sample edge, none where the leader's decision was missed (R127) -/
  bus : List (Nat × Option BusWord) := []
  ilLocked : Bool := false
  deriving DecidableEq, Repr

end Sys2Proof.Machine
end

