-- ==== Sys2Proof/Machine/DevTypes.lean ====
section
/-! DEFINITION. The state of the device-wide units: clocks, time bases, flue events in flight, ownership. -/

namespace Sys2Proof.Machine

open Sys2Proof

/-- The clocks (R4, R18, R25): core cycles, and converter edges formed from them. -/
structure Clock where
  /-- core cycles since power-on -/
  cc : Nat := 0
  /-- converter clock phase in units of f_cv per core cycle, below f_core; 0 on a converter edge -/
  phase : Nat := 0
  /-- converter edges since power-on -/
  tick : Nat := 0
  /-- the device cv count, 64 bits (R333) -/
  cv : Nat := 0
  /-- f_cv in force, in Hz (R4, R461) -/
  fcv : Nat := 50000000
  /-- f_core in Hz (R19) -/
  fcore : Nat := 1000000000
  /-- frequency of CVCLK in Hz (R460) -/
  cvclk : Nat := 50000000
  /-- tick of the last load of the device cv count, and what the count had less what it took (R334) -/
  loadTick : Nat := 0
  loadDelta : Int := 0
  deriving DecidableEq, Repr

/-- Servo states (R315, R321). -/
inductive Servo where
  | off
  | acquire
  | tracking
  | locked
  | holdover
  | refused
  deriving DecidableEq, Repr

/-- SERVO_STATE code (R315). -/
def Servo.code : Servo → Nat
  | .off => 0
  | .acquire => 1
  | .tracking => 2
  | .locked => 3
  | .holdover => 4
  | .refused => 5

/-- A time base (R313–R322): the time as one count of 2^-44 ns. -/
structure TimeBase where
  acc : Nat := 0
  inc : Nat := 2 ^ 44
  stepAvail : Bool := true
  locked : Bool := false
  timeJump : Bool := false
  masterLost : Bool := false
  /-- sticky bits 7:5 of TB_FLAGS -/
  sticky : Nat := 0
  /-- TIME_ACCEPT 1 given and not yet used -/
  grant : Bool := false
  servo : Servo := .off
  /-- frequency estimate in 2^-6 ns/s (R320) -/
  freq : Int := 0
  /-- previous offset, its place among consecutive offsets of at most 100 ns, test of R321 suspended -/
  oPrev : Option Int := none
  good : Nat := 0
  suspend : Bool := false
  refusedOfs : Int := 0
  steps : Nat := 0
  /-- identity of the last master -/
  master : Option Nat := none
  /-- core cycle and amount of the last step, in 2^-44 ns, for the stamps of earlier edges (R332) -/
  lastStep : Option (Nat × Int) := none
  deriving DecidableEq, Repr

/-- A flue event on its way (R298, R302). -/
structure FlueEvt where
  flue : Nat
  gen : Nat
  /-- core cycle in which it was raised; cycles by which the edge at an EVI ball came before it (R331) -/
  cc : Nat
  back : Nat := 0
  deriving DecidableEq, Repr

/-- A flue event on its way into the converter domain, for one consumer input (R299). -/
structure CvEvt where
  consumer : Nat
  gen : Nat
  /-- tick at whose edge it arrives -/
  due : Nat
  deriving DecidableEq, Repr

/-- A consumer input (R295, R297). -/
structure Cons where
  gate : Nat := 0
  status : Nat := 0
  overruns : Nat := 0
  merges : Nat := 0
  gated : Nat := 0
  deriving DecidableEq, Repr

/-- A flue (R288, R305). -/
structure Flue where
  soft : Bool := false
  events : Nat := 0
  merges : Nat := 0
  last : Nat := 0
  lastGen : Nat := 0
  deriving DecidableEq, Repr

/-- A pin EVO (R309): the toggled level, and the core cycle at which its pulse ends. -/
structure Evo where
  tog : Bool := false
  ends : Option Nat := none
  deriving DecidableEq, Repr

/-- What coefficients held before the writes that landed in the cv of tick `at_` (R72): the values of objects, key, default
and value, and of each channel the target, the band and the feed-forward entries. -/
structure Olds where
  at_ : Nat := 0
  vals : List (Nat × Int × Int) := []
  chs : List (Nat × Int × Int × SMap Nat) := []
  deriving DecidableEq, Repr

/-- One copy of the ownership of a unit (R369): owner 0 none, 1 port A, 2 port B, and the epoch. -/
structure OwnCopy where
  owner : Nat := 0
  epoch : Nat := 0
  deriving DecidableEq, Repr

/-- Ownership of a unit: the West and the East copy (R374). -/
structure Own where
  west : OwnCopy := {}
  east : OwnCopy := {}
  split : Bool := false
  deriving DecidableEq, Repr

/-- An open reservation of a queue (R269): pointer of its length word, words reserved, class, and a serial number
that names it to its producer. -/
structure Resv where
  at_ : Nat
  n : Nat
  cls : Nat
  id : Nat
  deriving DecidableEq, Repr

/-- A queue descriptor (R261–R285). -/
structure Queue where
  base : Nat := 0
  sizeLog2 : Nat := 10
  enable : Bool := false
  watermark : Nat := 0
  wmFlue : Nat := 0xFFFF
  markFlue : Nat := 0xFFFF
  rd : Nat := 0
  cm : Nat := 0
  wr : Nat := 0
  remain : Nat := 0
  /-- sticky bits of Q_STATUS: CORRUPT 8, UNDERRUN 5, OVERFLOW 4, WM_REACHED 3 -/
  sticky : Nat := 0
  fault : Bool := false
  /-- the lasting fault has been cleared, so that ENABLE 0 and then 1 may end it (R281) -/
  faultCleared : Bool := false
  /-- a malformed item-start word has been met and no flush has come since (R279) -/
  bad : Bool := false
  dropped : Nat := 0
  gaps : Nat := 0
  crossings : Nat := 0
  lastRead : Nat := 0
  /-- 0 dictionary reads, 1 stream of port A, 2 stream of port B -/
  consumer : Nat := 0
  /-- MARK_FLUE events since the queue was enabled (R266) -/
  marks : Nat := 0
  /-- pending gap marker: items lost and cause bits 29:26 (R265) -/
  gapCount : Nat := 0
  gapCause : Nat := 0
  resv : Option Resv := none
  /-- serial number of the next reservation -/
  serial : Nat := 0
  /-- words visible to a stream with the core cycle in which they became so, oldest first; kept while bound (R364) -/
  vis : List (Nat × Nat) := []
  /-- class and bytes of the packet being read (R274) -/
  cur : Option (Nat × Nat) := none
  /-- bytes charged to the classes by packets of this queue -/
  chg : SMap Nat := []
  deriving DecidableEq, Repr

/-- The descriptor of queue `q` after a full or core reset (R282, R283). -/
def Queue.initial (q : Nat) : Queue :=
  if q < 512 then
    let n := q / 2
    let p := n % 16
    let k := n / 16
    if q % 2 = 1 then { base := 0x400000 * p + 0x10000 * k, sizeLog2 := 16, enable := true }
    else { base := 0x400000 * p + 0x100000 + 0x4000 * k, sizeLog2 := 14, enable := true }
  else {}

/-- A valid set of path factors (R416): temperature as F32 bits, factors, low 32 bits of the TB3 seconds at which it was
made, source and points. -/
structure CalSet where
  temp : Nat
  o : Int
  g : Int
  k2 : Int
  secs : Nat
  src : Nat
  pts : Nat
  deriving DecidableEq, Repr

/-- What a bank of the calibration store holds (R417–R419). -/
inductive Bank where
  | erased
  /-- a store that was cut off: neither valid nor erased; the SEQ of its header, if that has been programmed -/
  | torn (header : Option Nat)
  /-- a committed bank: SEQ, SERIAL, the sets of its records -/
  | valid (seq serial : Nat) (sets : SMap CalSet)
  deriving DecidableEq, Repr

/-- A store under way (R419): the snapshot, and whether the shadow has changed since. -/
structure Store where
  snap : SMap CalSet
  changed : Bool := false
  deriving DecidableEq, Repr

/-- A path-calibration run (R408). -/
structure CalRun where
  u : Nat
  volt : Bool
  range : Nat
  meter : Bool
  /-- channel state before the run, and the state the run gave it -/
  before : ChState
  given : ChState
  /-- saved values of MODE, SETPOINT, COMPLIANCE, AUTORANGE and APERTURE, and saved ranges I and V -/
  vals : List Int
  rI : Nat
  rV : Nat
  /-- point in progress, 0, 1 or 2, and the points left after it -/
  point : Nat
  rest : List Nat
  /-- tick at which CR_SETTLE ends -/
  due : Nat := 0
  /-- core cycle at which CM_TIMEOUT ends -/
  entryDue : Nat := 0
  /-- true value received for the point in progress, F64 bits -/
  entry : Option Nat := none
  /-- reading accepted for the point in progress: sum of m in 2^-61, and twice the samples of a reading -/
  reading : Option (Int × Nat) := none
  /-- points done, oldest first: reading and true value -/
  done : List ((Int × Nat) × Nat) := []
  /-- temperatures taken in the run, F32 bits -/
  temps : List Nat
  deriving DecidableEq, Repr

/-- Status codes (R349). -/
inductive Status where
  | ok
  | noObject
  | access
  | level
  | notOwner
  | staleEpoch
  | split
  | length
  | segmentActive
  | value
  | state
  | busy
  | notDone
  | malformed
  | tooLarge
  | seqConflict
  /-- the model's own: no answer at all, from a port that is fenced or a device held in reset (R437, R456) -/
  | noAnswer
  deriving DecidableEq, Repr

/-- The code of a status (R349). -/
def Status.code : Status → Nat
  | .ok => 0
  | .noObject => 1
  | .access => 2
  | .level => 3
  | .notOwner => 4
  | .staleEpoch => 5
  | .split => 6
  | .length => 7
  | .segmentActive => 8
  | .value => 9
  | .state => 10
  | .busy => 11
  | .notDone => 12
  | .malformed => 13
  | .tooLarge => 14
  | .seqConflict => 15
  | .noAnswer => 255

end Sys2Proof.Machine
end

