-- ==== Sys2Proof/Machine/PortTypes.lean ====
section
/-! DEFINITION. The state of the host ports and of the time-base unit beside the time bases: PTP engines, time-stamp and
launch queues, replay caches, streams, Limtur snapshots, SYNC pins. -/

namespace Sys2Proof.Machine

open Sys2Proof

/-- A transmit time stamp (R327): tag, time in ns and fraction in 2^-16 ns, sequence number of a PTP message. -/
structure Stamp where
  tag : Nat
  ns : Nat
  frac : Nat
  seq : Nat := 0
  deriving DecidableEq, Repr

/-- A frame that waits for its launch time (R328); `late` once its time has passed before it could be sent (R329). -/
structure Launch where
  time : Nat
  flags : Nat
  tag : Nat
  bytes : List Byte
  late : Bool
  deriving DecidableEq, Repr

/-- A clock from which Announce messages have come (R323): identity, messages that count towards its qualification, core
cycle of the last one, data set. -/
structure Foreign where
  id : Nat
  seen : Nat
  last : Nat
  data : List Nat
  deriving DecidableEq, Repr

/-- What the PTP engine of a port holds beside its objects (R323, R324). -/
structure Ptp where
  foreign : List Foreign := []
  /-- core cycles of the last Announce and the last Sync of the master -/
  annAt : Nat := 0
  syncAt : Nat := 0
  /-- two-step Sync that waits for its Follow_Up: sequence number, receive time and correction -/
  sync : Option (Nat × Int × Int) := none
  /-- receive time less send time of the last Sync -/
  down : Option Int := none
  /-- delay request sent: sequence number and send time -/
  req : Option (Nat × Int) := none
  /-- peer-delay response that waits for its follow-up: sequence number, receive time less send time of the request,
  request receipt time of the peer, correction -/
  presp : Option (Nat × Int × Int × Int) := none
  /-- messages to send in answer or follow-up: kind and sequence number -/
  owed : List (Nat × Nat) := []
  /-- core cycle at which a message of each kind was last sent, and the next sequence number -/
  sentAt : SMap Nat := []
  seq : Nat := 0
  deriving DecidableEq, Repr

/-- What leaves a port: where a frame goes and what it carries. -/
inductive Sent where
  /-- a launch frame, whole but for the frame check sequence (R328) -/
  | launch (bytes : List Byte)
  /-- an Ethernet frame to `dst` with a tag, type and payload -/
  | frame (dst : Nat) (vlan : Option Nat) (etherType : Nat) (payload : List Byte)
  /-- a UDP datagram to an address and port -/
  | udp (v6 : Bool) (addr : Nat) (port : Nat) (payload : List Byte)
  /-- a PTP message: kind, sequence number, send time on the port's time base in ns -/
  | ptp (kind seq : Nat) (time : Nat)
  /-- an ARP reply that gives the port's address for its IPv4 address, to a MAC address (R340) -/
  | arp (dst ip : Nat)
  /-- a neighbour advertisement of the port's IPv6 address, to a MAC address (R340) -/
  | neighbour (dst : Nat)
  /-- an ICMP or ICMPv6 echo reply: address, and the message after its checksum (R340) -/
  | echo (v6 : Bool) (addr : Nat) (body : List Byte)
  deriving DecidableEq, Repr

/-- A request that waits for its execution (R357): source as one number (`macSource`, `udpSource`), bytes and the port's time at its arrival, in 2^-44 ns. -/
structure Request where
  src : Nat
  bytes : List Byte
  at_ : Nat
  deriving DecidableEq, Repr

/-- An answer kept in the replay cache (R355). -/
structure Cached where
  src : Nat
  v1 : Bool
  seq : Nat
  crc : Nat
  resp : List Byte
  deriving DecidableEq, Repr

/-- A stream (R364–R367). -/
structure Stream where
  queue : Nat := 0xFFFFFFFF
  transport : Nat := 0
  mac : Nat := 0
  ip4 : Nat := 0
  ip6 : Nat := 0
  udp : Nat := 47520
  maxFrame : Nat := 0
  holdoff : Nat := 100
  rate : Nat := 0
  flags : Nat := 0
  enable : Bool := false
  frames : Nat := 0
  words : Nat := 0
  /-- number of the next frame since the stream was enabled -/
  seq : Nat := 0
  /-- the hold-off has passed -/
  due : Bool := false
  /-- core cycle from which ST_RATE allows the next frame -/
  next : Nat := 0
  deriving DecidableEq, Repr

/-- A host port (R338–R373). -/
structure Port where
  /-- LINK: 0 down, 1 negotiating, 2 training, 3 up -/
  link : Nat := 0
  /-- PORT_CFG has been written since the last reset (R341) -/
  wrote : Bool := false
  ptp : Ptp := {}
  /-- stamped frames whose entry has not yet come to TX_TSQ, and TX_TSQ itself, oldest first (R327) -/
  tsIn : List Stamp := []
  tsq : List Stamp := []
  /-- launch queue in the order of sending, and core cycle to which the last launch frame holds the line (R328, R329) -/
  launch : List Launch := []
  busyTo : Nat := 0
  /-- requests that wait, oldest first; replay cache, newest first (R355, R357) -/
  reqs : List Request := []
  cache : List Cached := []
  /-- lease: 0 off, 1 running, 2 expired; core cycle of the last renewal (R373) -/
  lease : Nat := 0
  leaseAt : Nat := 0
  /-- accesses in the present second and the second it is (R342 ACCESS_RATE) -/
  accs : Nat := 0
  second : Nat := 0
  /-- Limtur snapshots and held high halves, by channel × 4096 + register (R363) -/
  snaps : SMap Nat := []
  highs : SMap Nat := []
  streams : SMap Stream := []
  /-- stream served last (R364) -/
  turn : Nat := 255
  /-- what the port has sent since the last reset, newest first -/
  sent : List Sent := []
  deriving DecidableEq, Repr

/-- SYNC_IN and SYNC_OUT (R333–R336). -/
structure CvSync where
  /-- SYNC_STATUS: 0 idle, 1 armed, 2 loaded -/
  status : Nat := 0
  /-- tick of the edge at which the count takes SYNC_LOAD -/
  due : Option Nat := none
  delta : Int := 0
  last : Nat := 0
  /-- core cycle at which the pulse of SYNC_OUT ends; tick at which the last one started -/
  outEnds : Option Nat := none
  outTick : Option Nat := none
  deriving DecidableEq, Repr

end Sys2Proof.Machine
end

