-- ==== Sys2Proof/Machine/FaultTypes.lean ====
section
/-! DEFINITION. The state of the fault collector and its history, of the supplies and clocks, of resets and the boot, of
the service island and of a field test, beside the values of their dictionary objects. -/

namespace Sys2Proof.Machine

open Sys2Proof

/-! ### Faults (R424–R453) -/

/-- A fault record, but for its sequence number and check (R441). -/
structure FRec where
  code : Nat
  unit : Nat
  flags : Nat
  count : Nat
  boot : Nat
  /-- TB2 time of the first event in ns -/
  time : Nat
  detail : Nat
  deriving DecidableEq, Repr

/-- A slot of the ring in flash that has been programmed: RSEQ, whether its check holds, the record (R442). -/
structure HSlot where
  rseq : Nat
  good : Bool
  rcd : FRec
  deriving DecidableEq, Repr

/-- N, W, reaction and history of a source (R429, R430). -/
structure SrcCfg where
  n : Nat
  win : Nat
  react : Nat
  hist : Bool
  deriving DecidableEq, Repr

/-- The fault collector (R424–R451). -/
structure Collector where
  /-- sources whose configuration has been written, by code (R430) -/
  cfg : SMap SrcCfg := []
  /-- core cycles of the latest events of a pair of code and unit, newest first, at most 14; by code × 65536 + unit (R429) -/
  times : SMap (List Nat) := []
  /-- STANDING of the ports, the halves and the device, by target (R536) -/
  stand : SMap Nat := []
  /-- core cycle, one added, of the last severe event of a target (R447) -/
  sevAt : SMap Nat := []
  /-- ports fenced on their own: bit n (R448) -/
  portMarks : Nat := 0
  /-- records in the retention RAM, oldest first (R443) -/
  pending : List FRec := []
  /-- checker and instance that are armed (R450) -/
  armed : Nat × Nat := (0, 0)
  /-- record of the last injected access (R450) -/
  last : Option FRec := none
  deriving DecidableEq, Repr

/-- The persistent history (R442–R444). -/
structure History where
  /-- slots of the ring, 0 to 4,223 -/
  ring : SMap HSlot := []
  /-- slot and sequence number of the next record -/
  next : Nat := 0
  seq : Nat := 1
  /-- core cycle up to which the mean rate of R443 has been used -/
  used : Nat := 0
  /-- the oldest pending record has failed its read-back once: whether by injection, and whether it was a real error -/
  tried : Option (Bool × Bool) := none
  stopped : Bool := false
  deriving DecidableEq, Repr

/-! ### Supplies, clocks, domains (R454–R467) -/

/-- Supplies, clock inputs and the switches of domains. -/
structure Power where
  /-- VSRV stands; every main rail stands in its window, and the core cycle since which it does -/
  vsrv : Bool := true
  rails : Bool := true
  railsAt : Nat := 0
  /-- VDDIO is above 0.3 V (R498) -/
  vddio : Bool := true
  /-- the flash answers (R476) -/
  flash : Bool := true
  /-- lowest readings of the rails since reset, F32 bits, by place in RAIL_V (R458) -/
  mins : SMap Nat := []
  /-- highest reading of a die since reset, in 10^-3 °C (R463) -/
  dieMax : Option Int := none
  /-- CVCLK has no edges; the core or the converter PLL has lost lock by itself (R428, R447) -/
  cvLost : Bool := false
  coreOut : Bool := false
  cvOut : Bool := false
  /-- core cycle at which the converter PLL has relocked (R461) -/
  relock : Option Nat := none
  /-- switches of domains, the one in progress first: domain and whether on (R467); core cycle at which that one ends -/
  switches : List (Nat × Bool) := []
  switchDue : Nat := 0
  deriving DecidableEq, Repr

/-! ### Resets and the boot (R468–R485) -/

/-- An entry of an image that waits for its domain (R480). -/
structure Entry where
  index : Nat
  sub : Nat
  isDomain : Bool
  bytes : List Byte
  deriving DecidableEq, Repr

/-- Resets and the boot. -/
structure BootSt where
  /-- BOOT[2:0] at the balls (R475), and BOOT_NEXT, kept by the island (R471) -/
  balls : Nat := 0
  next : Nat := 0xFF
  /-- a soft reset on its way: level 1 full, 2 core, 3 channel, and the core cycle at which it acts (R471) -/
  soft : Option (Nat × Nat) := none
  /-- RST_N is low; a JTAG instruction holds the device (R468, R528) -/
  rstLow : Bool := false
  jtag : Bool := false
  /-- core cycles at which phase 0 began and ended (R485) -/
  zero : Nat := 0
  from_ : Nat := 0
  /-- core cycle at which the present phase began -/
  phaseAt : Nat := 0
  /-- the boot follows a core reset; it follows a power-on (R469, R443) -/
  core : Bool := false
  powerOn : Bool := true
  /-- domains the image records as off, and entries it holds for them (R479, R480) -/
  wantOff : List Nat := []
  entries : List Entry := []
  deriving DecidableEq, Repr

/-! ### Service island (R486–R504) -/

/-- A line the console has sent (R489). -/
inductive Line where
  /-- a status line -/
  | status (x : Status)
  | text (s : String)
  /-- an object's value -/
  | val (index sub : Nat) (v : Val)
  /-- bytes in hexadecimal -/
  | hex (bytes : List Byte)
  deriving DecidableEq, Repr

/-- A continuity measurement under way (R498, R499): polarity, core cycle at which it ends, and whether the console's
CONT runs it, which measures both polarities. -/
structure CtRun where
  pol : Nat
  due : Nat
  cont : Bool
  deriving DecidableEq, Repr

/-- A console command that reads the flash, waiting behind a calibration store or an image erase (R493). -/
inductive FlashCmd where
  | hist (n : Nat)
  | verify
  | dump (addr n : Nat)
  deriving DecidableEq, Repr

/-- The service island. -/
structure Island where
  /-- lines the console has sent since the island's reset, newest first -/
  lines : List Line := []
  /-- the rate of the line is being measured (R487) -/
  measuring : Bool := true
  ct : Option CtRun := none
  /-- ball last measured, and its readings at both polarities in µV (R499) -/
  ball : Nat := 0
  plus : Option Int := none
  minus : Option Int := none
  /-- CON_SCOPE at the last change (R490) -/
  scope : Nat := 0
  /-- flash commands that wait, oldest first (R493) -/
  waits : List FlashCmd := []
  deriving DecidableEq, Repr

/-- A field test under way (R501–R503). -/
structure FtRun where
  no : Nat
  unit : Nat
  arg : Nat
  /-- core cycle at which the present wait began -/
  since : Nat := 0
  /-- readings so far, oldest first: measured ones in the unit of their step, meter entries as F64 bits -/
  vals : List Int := []
  /-- test 9: the spare and the holder of the role -/
  convs : Nat × Nat := (0, 0)
  /-- objects changed for the test, to be restored: key and value -/
  saved : List (Nat × Option Int) := []
  deriving DecidableEq, Repr

end Sys2Proof.Machine
end

