-- ==== Sys2Proof/Machine/SeqTypes.lean ====
section
/-! DEFINITION. The state of the sequence engines, the waveform segments, the acquisition units and the trigger
groups, beside the values of their dictionary objects. -/

namespace Sys2Proof.Machine

/-- A segment's descriptor (R189). -/
structure Seg where
  kind : Nat := 0
  next : Nat := 0xFFFF
  len : Nat := 1024
  filled : Bool := false
  ufAction : Nat := 0
  safeSeg : Nat := 0xFFFF
  deriving DecidableEq, Repr

/-- Engine states (R193, R195). -/
inductive SqState where
  | idle
  | armed
  | running
  | waiting
  | paused
  | done
  | error
  deriving DecidableEq, Repr

/-- SQ_STATE code (R193). -/
def SqState.code : SqState → Nat
  | .idle => 0
  | .armed => 1
  | .running => 2
  | .waiting => 3
  | .paused => 4
  | .done => 5
  | .error => 6

/-- What an engine has in progress; times are internal ticks. -/
inductive SqStep where
  /-- nothing: the step at PC starts in the slot `Seq.slot` -/
  | none
  /-- a FORCE that waits for its MAKE latches (R203) -/
  | force
  /-- a ramp from `t0` to `t1` over `n` slots from `s` on (R204) -/
  | ramp (t0 t1 : Int) (n s : Nat)
  /-- a SINE with a duration that ends at `due` (R215) -/
  | sine (due : Nat)
  | dwell (due : Nat)
  /-- a WAIT whose timeout is `due`, if it has one (R206) -/
  | wait (due : Option Nat)
  | measure
  /-- a sweep point that waits for its PT_FLUE event (R213) -/
  | pointArm
  /-- a sweep point that starts in the slot `Seq.slot` -/
  | point
  /-- a sweep point that waits for its MAKE latches (R203) -/
  | pointMake
  /-- the source delay before a point's aperture or wait, to `due` -/
  | pointDelay (due : Nat)
  /-- a point's aperture or lock-in wait -/
  | pointMeasure
  /-- a point with neither, to `due` -/
  | pointRest (due : Nat)
  | play
  deriving DecidableEq, Repr

/-- A wait for a lock-in result (R209). -/
inductive ZWait where
  | no
  | waiting
  | got
  | nothing
  deriving DecidableEq, Repr

/-- The sine generator in force (R214, R215). -/
structure Sine where
  f : Nat
  p : Nat
  ampl : Nat
  ofs : Int
  deriving DecidableEq, Repr

/-- A sweep in progress (R213). -/
structure Sweep where
  /-- list segment and place of the next or present point -/
  seg : Nat
  place : Nat
  count : Nat
  /-- POINT: index within the sweep -/
  idx : Nat := 0
  arm : Bool
  flue : Nat
  queue : Nat
  deriving DecidableEq, Repr

/-- A waveform in progress (R216–R219). -/
structure Play where
  /-- segment playing, its first cv, cv per sample, and its samples, which R191 keeps from changing -/
  seg : Nat
  start : Nat
  div : Nat
  data : List Int
  /-- segment scheduled as next -/
  next : Option Nat := none
  /-- whether it is scheduled by a jump request -/
  jumped : Bool := false
  /-- a jump request that waits: target and the cv in which it landed; taken at the boundary after next if late -/
  jump : Option (Nat × Nat) := none
  /-- a pending request missed the first boundary after it -/
  late : Bool := false
  /-- number of samples of the segment put into the target so far -/
  fed : Nat := 0
  /-- the segment that UF_ACTION 0 waits for, and the cv at which it starts once FILLED has landed -/
  starved : Option Nat := none
  startAt : Option Nat := none
  deriving DecidableEq, Repr

/-- A measurement: V and I as F32 bits. -/
structure VI where
  v : Int
  i : Int
  deriving DecidableEq, Repr

/-- A sequence engine (R192–R221). -/
structure Seq where
  st : SqState := .idle
  /-- the state before Paused -/
  prev : SqState := .idle
  pausedAt : Nat := 0
  err : Nat := 0
  /-- PC: the step in progress, or the last executed (R192); and the address of the step that starts next -/
  pc : Nat := 0
  nextPc : Nat := 0
  steps : Nat := 0
  /-- open loops, innermost first: loop start and passes left, 0 endless (R220) -/
  loops : List (Nat × Nat) := []
  /-- open calls, innermost first: return address and loop depth -/
  calls : List (Nat × Nat) := []
  cond : Nat := 0
  startTime : Nat := 0
  /-- tick of the slot in which the next step or point starts -/
  slot : Nat := 0
  /-- the ARM event of the step at PC has come -/
  armed : Bool := false
  step : SqStep := .none
  /-- tick of the last slot whose target stands in SETPOINT: the engine's, or one written over it (R205) -/
  setAt : Nat := 0
  /-- words of the step or point in progress, and tick of its slot -/
  words : List Nat := []
  at_ : Nat := 0
  /-- WAIT: condition met; samples and sum of the running block (R206) -/
  met : Bool := false
  blkN : Nat := 0
  blkSum : Int := 0
  z : ZWait := .no
  /-- Z_LOW and the result a lock-in wait got: Z_MAG and Z_PHASE (R208, R209) -/
  zLow : Bool := false
  zMag : Int := 0
  zPhase : Int := 0
  sine : Option Sine := none
  sweep : Option Sweep := none
  play : Option Play := none
  jumpStatus : Nat := 0
  /-- an event the paused state waits for was latched (R195) -/
  latch : Bool := false
  /-- the last two measurements, newest first (R207, R210) -/
  meas2 : List VI := []
  /-- what the flue event the engine last acted on gives its events (R302) -/
  cause : Cause := {}
  deriving DecidableEq, Repr

/-- Acquisition unit states (R230, R258). -/
inductive AcqState where
  | idle
  | waitSpace
  | armed
  | triggered
  | closing
  | rearm
  deriving DecidableEq, Repr

/-- ACQ_STATE code (R258). -/
def AcqState.code : AcqState → Nat
  | .idle => 0
  | .waitSpace => 1
  | .armed => 2
  | .triggered => 3
  | .closing => 4
  | .rearm => 5

/-- A kept sample: edge, the words written for it, its ranges, and its value for the mask. -/
structure Kept where
  edge : Nat
  words : List Nat
  rV : Nat
  rI : Nat
  x : Int := 0
  deriving DecidableEq, Repr

/-- An event within a capture: kind, new range, first edge affected (R242). -/
structure AcqEvt where
  kind : Nat
  arg : Nat
  edge : Nat
  deriving DecidableEq, Repr

/-- An acquisition unit (R225–R247). -/
structure Acq where
  st : AcqState := .idle
  err : Nat := 0
  capSeq : Nat := 0
  /-- serial number of the open reservation of the packet in progress -/
  resv : Option Nat := none
  /-- ring, newest first, and the number of samples ever written into it -/
  ring : List Kept := []
  written : Nat := 0
  /-- the last kept sample of an Armed unit without a ring (PRE 0): the trigger sample where it is at the edge (R236) -/
  lastKept : Option Kept := none
  /-- samples that moved out of the ring at the trigger (R238) -/
  moved : Nat := 0
  /-- post-trigger samples of the packet in progress, newest first, and of the whole capture -/
  post : List Kept := []
  postN : Nat := 0
  /-- trigger edge, and the trigger sample's edge once it is fixed (R236) -/
  trigEdge : Option Nat := none
  trigAt : Option Nat := none
  /-- time and fraction of the trigger sample edge on ACQ_TB -/
  trigNs : Nat := 0
  trigFrac : Nat := 0
  cause : Nat := 0
  unit : Nat := 0
  evts : List AcqEvt := []
  lost : Nat := 0
  /-- H8 flags gathered so far -/
  flags : Nat := 0
  viol : Option Nat := none
  /-- stream part in progress, its samples so far, and whether they are lost (R247) -/
  part : Nat := 0
  partN : Nat := 0
  partOpen : Bool := false
  /-- crossing memory: a sample lay below the rising, above the falling threshold; recent values (R234) -/
  below : Bool := false
  above : Bool := false
  hist : List Int := []
  /-- TRIG_SRC 8 has fired since the arm -/
  timed : Bool := false
  /-- kept samples since the arm; the mask test runs -/
  maskK : Nat := 0
  maskOn : Bool := false
  /-- first edge that belongs to the arm; edge of the last sample taken, none before the first -/
  from_ : Nat := 0
  last : Option Nat := none
  /-- tick of the commit, and of the end of Re-arm -/
  due : Nat := 0
  heldArm : Bool := false
  /-- tick at which a violation's STOP lands (R256) -/
  stopDue : Option Nat := none
  lastTrig : Nat := 0
  lastFlags : Nat := 0
  lastViol : Nat := 0xFFFFFFFF
  seenI : Nat := 7
  seenV : Nat := 3
  fcause : Cause := {}
  deriving DecidableEq, Repr

/-- Trigger group states (R248). -/
inductive GrpState where
  | idle
  | armed
  | fired
  deriving DecidableEq, Repr

/-- A trigger accepted by the group fabric: edge, unit, cause, tick of its arrival (R251). -/
structure GrpTrig where
  edge : Nat
  unit : Nat
  cause : Nat
  arrived : Nat
  deriving DecidableEq, Repr

/-- A trigger group (R248–R252). -/
structure Grp where
  st : GrpState := .idle
  trig : Option GrpTrig := none
  fcause : Cause := {}
  deriving DecidableEq, Repr

end Sys2Proof.Machine
end

