-- ==== Sys2Proof/Machine/State.lean ====
section
/-! DEFINITION. The state of the block as plain data, and the state in which power-on reset holds it. -/

namespace Sys2Proof.Machine

open Sys2Proof

/-- A channel, physical (0–255) or virtual (256–383). -/
structure Chan where
  ctl : Ctl := {}
  rngI : Rng := { now := 7 }
  rngV : Rng := { now := 3 }
  meas : Meas := {}
  /-- tick at which a freeze of autorange ends (R307) -/
  freeze : Option Nat := none
  deriving DecidableEq, Repr

/-- Everything the device holds beside its flash, its waveform memory and the commands that wait. -/
structure Dev where
  /-- values of dictionary objects that are not at their default, by index × 256 + subindex, and party × 2^24 for a
  value that each party holds for itself (R382) -/
  dict : SMap Int := []
  clk : Clock := {}
  /-- time bases TB0–TB3 -/
  tb : SMap TimeBase := []
  chans : SMap Chan := []
  stoves : SMap Stove := []
  /-- core cycle up to which the staging buffers have been served; stove served last by each bank group (R23) -/
  stagedCc : Nat := 0
  stagedLast : SMap Nat := []
  /-- hearths, by virtual channel 256–383 -/
  hearths : SMap Hearth := []
  /-- segment descriptors, sequence engines, acquisition units, trigger groups -/
  segs : SMap Seg := []
  seqs : SMap Seq := []
  acqs : SMap Acq := []
  grps : SMap Grp := []
  /-- shadow of the calibration store: channel × 96 + range × 8 + set (R395, R396); banks A and B, a store under way -/
  shadow : SMap CalSet := []
  bankA : Bank := .erased
  bankB : Bank := .erased
  storing : Option Store := none
  /-- image banks whose contents an erase or commit not yet ended, or cut off, leaves open: bit 0 A, bit 1 B (R481) -/
  imgTorn : Nat := 0
  /-- the path-calibration run, and channels whose saved ranges are still being restored (R408, R414) -/
  cr : Option CalRun := none
  crRest : List Nat := []
  /-- self-calibrations under way -/
  cals : List SelfRun := []
  own : SMap Own := []
  /-- core cycle at which a Service grant ends (R354); core cycle of the last cross-check (R374) -/
  grantDue : Nat := 0
  ownChecked : Nat := 0
  /-- host ports 0 (A) and 1 (B) (R338–R373) -/
  ports : SMap Port := []
  /-- SYNC_IN and SYNC_OUT (R333–R336); fraction of the time each capture unit holds, in 2^-16 ns (R331) -/
  cvs : CvSync := {}
  capFrac : SMap Nat := []
  /-- the hearth that holds a unit as a member (R118): unit to virtual channel, 0 for none -/
  parent : SMap Nat := []
  /-- fenced ports and fenced firmware halves: bit 0 A or West, bit 1 B or East (R437) -/
  portFenced : Nat := 0
  halfFenced : Nat := 0
  /-- queue descriptors that are not as `Queue.initial` gives them -/
  queues : SMap Queue := []
  /-- queue memory, 64 MiB (R22, R260); an unlisted byte reads 0x00 (log 7) -/
  qmem : Mem := []
  /-- bytes charged to the producer classes (R274) -/
  use : SMap Nat := []
  /-- flue routes by source number (R293): flue and count of events -/
  routes : SMap Nat := []
  srcCount : SMap Nat := []
  /-- the power-on reset holds the device, or its main rails are absent: the console's island scope (R456, R490) -/
  held : Bool := true
  /-- power domains that are on: bit n is domain n (R464) -/
  pd : Nat := 0
  /-- reports on their way to the fault collector with the TB2 time in ns of their detection, oldest first -/
  reports : List (Report × Nat) := []
  /-- consumer inputs and flues (R288, R295) -/
  conss : SMap Cons := []
  flues : SMap Flue := []
  /-- flue events in the router and on their way into the converter domain, oldest first (R299) -/
  evts : List FlueEvt := []
  evtsCv : List CvEvt := []
  /-- filtered ball levels of the pins EVI, and the pins EVO (R308, R309); FLT_N is low (R445) -/
  evi : Nat := 0
  evo : SMap Evo := []
  fltLow : Bool := true
  /-- fault collector and history (R424–R451) -/
  flt : Collector := {}
  hist : History := {}
  /-- supplies and clocks; resets and the boot; service island; field test (R454–R504) -/
  pwr : Power := {}
  boot : BootSt := {}
  isl : Island := {}
  ft : Option FtRun := none
  /-- coefficients before the writes of the present cv (R72) -/
  olds : Olds := {}
  /-- the model's own: free values drawn so far -/
  free : Nat := 0
  /-- status of the last access (R349) and what it read -/
  status : Status := .ok
  value : Option Val := none
  deriving DecidableEq, Repr

/-- The state of the block: the device, its two large memories, and the commands that wait, first in, first out. -/
structure State where
  dev : Dev := {}
  /-- waveform memory, 16 MiB (R187); an unlisted byte reads 0x00 -/
  wmem : Mem := []
  /-- the flash behind the flash balls (R417, R441, R477); an unlisted byte reads 0xFF -/
  flash : Mem := []
  pending : List Instr := []
  deriving DecidableEq, Repr

/-- Why a step stops with a fault. No command of this block ends a run: every refusal of the device is a status of
its state (log 1). The type is closed and has one constructor that nothing raises (safe). -/
inductive Fault where
  /-- raised by nobody; safe -/
  | none
  deriving DecidableEq, Repr

/-- Why a step gives no meaning. -/
inductive Refusal where
  /-- raised by an arm of `exec` for a command not modelled yet; safe -/
  | notModelled (mnemonic : String)
  deriving DecidableEq, Repr

/-- The state in which the power-on reset holds the device (R454, R456, R469): every object at its default, every
power domain off, the boot not begun, nothing in memory (log 4, log 5, log 6). -/
def State.reset : State := {}

end Sys2Proof.Machine
end

