-- ==== Sys2Proof/Machine/Ops.lean ====
section
/-! DEFINITION. The named operations every meaning is written with: reading and writing objects, channels, stoves,
hearths and queues; letting time pass; stamps; raising events and reports; drawing a free value. -/

namespace Sys2Proof.Machine

open Sys2Proof

/-! ### Objects of the dictionary -/

/-- The value of subindex `o.sub + i` of an object of unit `u`. -/
def Dev.rdi (d : Dev) (o : Obj) (u i : Nat) : Int := SMap.get (o.default u i) d.dict (o.key u i)

/-- The object with `v` in subindex `o.sub + i`. -/
def Dev.wri (d : Dev) (o : Obj) (u i : Nat) (v : Int) : Dev :=
  { d with dict := SMap.set (o.default u i) d.dict (o.key u i) v }

/-- The value of an object of unit `u`. -/
def Dev.rd (d : Dev) (o : Obj) (u : Nat) : Int := d.rdi o u 0

/-- The object with value `v`. -/
def Dev.wr (d : Dev) (o : Obj) (u : Nat) (v : Int) : Dev := d.wri o u 0 v

/-- The value of an object as a natural number. -/
def Dev.rdN (d : Dev) (o : Obj) (u : Nat) : Nat := (d.rd o u).toNat

/-- The value of subindex `o.sub + i` as a natural number. -/
def Dev.rdiN (d : Dev) (o : Obj) (u i : Nat) : Nat := (d.rdi o u i).toNat

/-- Whether a BOOL object is set. -/
def Dev.flag (d : Dev) (o : Obj) (u : Nat) : Bool := d.rd o u ≠ 0

/-- Place of a value that each party holds for itself (R382). -/
def partyKey (p : Party) (o : Obj) (u i : Nat) : Nat := 0x1000000 * (p.num + 1) + o.key u i

/-- A party's own value of a selector (R382). -/
def Dev.rdp (d : Dev) (p : Party) (o : Obj) (u : Nat) : Int :=
  SMap.get (o.default u 0) d.dict (partyKey p o u 0)

/-- The same as a natural number. -/
def Dev.rdpN (d : Dev) (p : Party) (o : Obj) (u : Nat) : Nat := (d.rdp p o u).toNat

/-- A party's selector with value `v`. -/
def Dev.wrp (d : Dev) (p : Party) (o : Obj) (u : Nat) (v : Int) : Dev :=
  { d with dict := SMap.set (o.default u 0) d.dict (partyKey p o u 0) v }

/-- A saturating counter of `w` bits grown by `n`. -/
def Dev.bump (d : Dev) (o : Obj) (u : Nat) (w n : Nat) : Dev :=
  d.wr o u (min (d.rd o u + n) (2 ^ w - 1))

/-- A wrapping counter of `w` bits grown by `n`. -/
def Dev.wrap (d : Dev) (o : Obj) (u : Nat) (w n : Nat) : Dev :=
  d.wr o u ((d.rd o u + n) % 2 ^ w)

/-! ### Units -/

/-- The channel `u`. -/
def Dev.ch (d : Dev) (u : Nat) : Chan := SMap.get {} d.chans u

/-- Channel `u` as `c`. -/
def Dev.setCh (d : Dev) (u : Nat) (c : Chan) : Dev := { d with chans := SMap.ins d.chans u c }

/-- Channel `u` changed by `f`. -/
def Dev.modCh (d : Dev) (u : Nat) (f : Chan → Chan) : Dev := d.setCh u (f (d.ch u))

/-- The control state of channel `u` changed by `f`. -/
def Dev.modCtl (d : Dev) (u : Nat) (f : Ctl → Ctl) : Dev := d.modCh u fun c => { c with ctl := f c.ctl }

/-- The measurement state of channel `u` changed by `f`. -/
def Dev.modMeas (d : Dev) (u : Nat) (f : Meas → Meas) : Dev := d.modCh u fun c => { c with meas := f c.meas }

/-- The range state of one variable of a channel. -/
def Chan.rng (c : Chan) (volt : Bool) : Rng := if volt then c.rngV else c.rngI

/-- The range state of one variable of channel `u` changed by `f`. -/
def Dev.modRng (d : Dev) (u : Nat) (volt : Bool) (f : Rng → Rng) : Dev :=
  d.modCh u fun c => if volt then { c with rngV := f c.rngV } else { c with rngI := f c.rngI }

/-- The stove `k`. -/
def Dev.st (d : Dev) (k : Nat) : Stove := SMap.get {} d.stoves k

/-- Stove `k` changed by `f`. -/
def Dev.modSt (d : Dev) (k : Nat) (f : Stove → Stove) : Dev :=
  { d with stoves := SMap.ins d.stoves k (f (d.st k)) }

/-- The hearth of virtual channel `h`. -/
def Dev.he (d : Dev) (h : Nat) : Hearth := SMap.get {} d.hearths h

/-- Hearth `h` changed by `f`. -/
def Dev.modHe (d : Dev) (h : Nat) (f : Hearth → Hearth) : Dev :=
  { d with hearths := SMap.ins d.hearths h (f (d.he h)) }

/-- The time base `t`. -/
def Dev.tbase (d : Dev) (t : Nat) : TimeBase := SMap.get {} d.tb t

/-- Time base `t` changed by `f`. -/
def Dev.modTb (d : Dev) (t : Nat) (f : TimeBase → TimeBase) : Dev :=
  { d with tb := SMap.ins d.tb t (f (d.tbase t)) }

/-- The descriptor of queue `q`. -/
def Dev.qu (d : Dev) (q : Nat) : Queue := SMap.get (Queue.initial q) d.queues q

/-- Queue `q` as `x`. -/
def Dev.setQu (d : Dev) (q : Nat) (x : Queue) : Dev := { d with queues := SMap.ins d.queues q x }

/-- Queue `q` changed by `f`. -/
def Dev.modQu (d : Dev) (q : Nat) (f : Queue → Queue) : Dev := d.setQu q (f (d.qu q))

/-- The descriptor of segment `g`. -/
def Dev.seg (d : Dev) (g : Nat) : Seg := SMap.get {} d.segs g

/-- Segment `g` changed by `f`. -/
def Dev.modSeg (d : Dev) (g : Nat) (f : Seg → Seg) : Dev := { d with segs := SMap.ins d.segs g (f (d.seg g)) }

/-- The sequence engine of unit `u`. -/
def Dev.sq (d : Dev) (u : Nat) : Seq := SMap.get {} d.seqs u

/-- The sequence engine of unit `u` changed by `f`. -/
def Dev.modSq (d : Dev) (u : Nat) (f : Seq → Seq) : Dev := { d with seqs := SMap.ins d.seqs u (f (d.sq u)) }

/-- The acquisition unit of unit `u`. -/
def Dev.aq (d : Dev) (u : Nat) : Acq := SMap.get {} d.acqs u

/-- The acquisition unit of `u` changed by `f`. -/
def Dev.modAq (d : Dev) (u : Nat) (f : Acq → Acq) : Dev := { d with acqs := SMap.ins d.acqs u (f (d.aq u)) }

/-- Host port `n`: 0 for A, 1 for B. -/
def Dev.port (d : Dev) (n : Nat) : Port := SMap.get {} d.ports n

/-- Host port `n` changed by `f`. -/
def Dev.modPort (d : Dev) (n : Nat) (f : Port → Port) : Dev := { d with ports := SMap.ins d.ports n (f (d.port n)) }

/-- The trigger group `g`. -/
def Dev.gr (d : Dev) (g : Nat) : Grp := SMap.get {} d.grps g

/-- Trigger group `g` changed by `f`. -/
def Dev.modGr (d : Dev) (g : Nat) (f : Grp → Grp) : Dev := { d with grps := SMap.ins d.grps g (f (d.gr g)) }

/-- The stove of a physical channel (R8). -/
def stoveOf (u : Nat) : Nat := u / 16

/-- The position of a physical channel in its stove (R8). -/
def posOf (u : Nat) : Nat := u % 16

/-- Whether a unit is a physical channel. -/
def isPhys (u : Nat) : Bool := decide (u < 256)

/-- Whether power domain `n` is on (R464). -/
def Dev.pdOn (d : Dev) (n : Nat) : Bool := bit d.pd n

/-! ### Time -/

/-- Core cycles until `n` more converter edges have come (R18). -/
def Clock.ccFor (c : Clock) (n : Nat) : Nat :=
  if n = 0 then 0 else (n * c.fcore - c.phase + (c.fcv - 1)) / c.fcv

/-- The clocks `k` core cycles later (R18, R25). -/
def Clock.adv (c : Clock) (k : Nat) : Clock :=
  let ph := c.phase + k * c.fcv
  let n := ph / c.fcore
  { c with cc := c.cc + k, phase := ph % c.fcore, tick := c.tick + n, cv := (c.cv + n) % 2 ^ 64 }

/-- The device `k` core cycles later: clocks, and TB_INC added to every time base in each (R313). -/
def Dev.advCc (d : Dev) (k : Nat) : Dev :=
  if k = 0 then d else
  let f := fun (t : TimeBase) => { t with acc := t.acc + k * t.inc }
  let d1 := { d with clk := d.clk.adv k }
  (((d1.modTb 0 f).modTb 1 f).modTb 2 f).modTb 3 f

/-- The device at core cycle `c`, if that lies ahead (log 3). -/
def Dev.reachCc (d : Dev) (c : Nat) : Dev := d.advCc (c - d.clk.cc)

/-- The device at converter edge `t`, if that lies ahead (log 3). -/
def Dev.reach (d : Dev) (t : Nat) : Dev := d.advCc (d.clk.ccFor (t - d.clk.tick))

/-- Core cycles since the slot of position `p` in the cv of edge `t` began, negative while it is ahead: slot 0 begins at
the synchronised edge, which lies more than 0 and at most 1 cc after the converter edge; a slot that would begin with the
next converter edge is put in the cycle before it (R18, log 15). -/
def Clock.sinceSlot (c : Clock) (t p : Nat) : Int :=
  let x : Int := ((c.tick : Int) - t) * c.fcore + c.phase
  x / c.fcv - (min (p + b2n (x % c.fcv == 0)) (c.fcore / max 1 c.fcv - 1) : Nat)

/-- Core cycles until that slot, 0 once it has come. -/
def Clock.toSlot (c : Clock) (t p : Nat) : Nat := (-(c.sinceSlot t p)).toNat

/-- The position of a unit's slot: that of a physical channel, and 0 for a virtual channel's engine (R18, R197). -/
def slotPos (u : Nat) : Nat := if isPhys u then posOf u else 0

/-- The device at the slot of unit `u` in the cv of edge `t`, if that lies ahead (R18, log 3). -/
def Dev.reachSlot (d : Dev) (u t : Nat) : Dev := d.advCc (d.clk.toSlot t (slotPos u))

/-- The cv of unit `u`'s first slot that sees what lands now: this cv's, or the next one's once that is over (R18). -/
def Dev.seeSlot (d : Dev) (u : Nat) : Nat :=
  if 0 < d.clk.sinceSlot d.clk.tick (slotPos u) then d.clk.tick + 1 else d.clk.tick

/-- The cv after the first of unit `u`'s slots that sees what lands now: where a START or an ARM event has its step begin,
1 to 2 cv later (R195, R201). -/
def Dev.nextSlot (d : Dev) (u : Nat) : Nat := d.seeSlot u + 1

/-- Time of a base in ns. -/
def TimeBase.ns (t : TimeBase) : Nat := t.acc / 2 ^ 44

/-- The fraction of a base in 2^-16 ns (R313). -/
def TimeBase.frac (t : TimeBase) : Nat := t.acc / 2 ^ 28 % 2 ^ 16

/-- TB2 time of the present cycle, in ns (R332). -/
def Dev.now2 (d : Dev) : Nat := (d.tbase 2).ns

/-- The stamp of converter edge `m`, gone by or to come, on time base `t`, in 2^-44 ns: the base's value at that edge, a step
that came after it taken back (R332). -/
def Dev.stampAcc (d : Dev) (t m : Nat) : Nat :=
  let b := d.tbase t
  let c := d.clk
  let span : Int := ((c.tick : Int) - m) * c.fcore + c.phase
  let back : Int := b.inc * span / c.fcv
  let step : Int := match b.lastStep with
    | some (cc, amt) => if c.cc < cc + span / c.fcv then amt else 0
    | none => 0
  ((b.acc : Int) - back - step).toNat

/-- The stamp of converter edge `m` on time base `t` in ns. -/
def Dev.stamp (d : Dev) (t m : Nat) : Nat := d.stampAcc t m / 2 ^ 44

/-- The time of base `t`, in ns, in the slot of unit `u` in the cv of edge `m` (R18, R208). -/
def Dev.slotStamp (d : Dev) (t u m : Nat) : Nat :=
  let b := d.tbase t
  let back := d.clk.sinceSlot m (slotPos u)
  let step : Int := match b.lastStep with
    | some (cc, amt) => if (d.clk.cc : Int) < cc + back then amt else 0
    | none => 0
  ((b.acc : Int) - back * b.inc - step).toNat / 2 ^ 44

/-- The three words of a TIME96 given in ns: seconds low, seconds high, nanoseconds. -/
def time96Words (ns : Nat) : List Nat :=
  [ns / 1000000000 % 2 ^ 32, ns / 1000000000 / 2 ^ 32 % 2 ^ 32, ns % 1000000000]

/-! ### Events, reports and free values -/

/-- Source number of event `e` of channel `u`, of stove `k` and of the device (R290). -/
def srcCh (u e : Nat) : Nat := 16 * u + e
/-- Source number of event `e` of stove `k` (R290). -/
def srcSt (k e : Nat) : Nat := 0x1800 + 32 * k + e
/-- Source number of device event `e` (R290). -/
def srcDev (e : Nat) : Nat := 0x1A60 + e
/-- Source number of trigger group `g` (R290). -/
def srcGroup (g : Nat) : Nat := 0x1A00 + g
/-- Source number of compare unit `j` (R290). -/
def srcCmp (j : Nat) : Nat := 0x1A40 + j
/-- Source number of pin EVIi (R290). -/
def srcEvi (i : Nat) : Nat := 0x1A50 + i

/-- A report sent to the fault collector (R429, R432). -/
def Dev.report (d : Dev) (code unit detail : Nat) : Dev :=
  { d with reports := d.reports ++ [(⟨code, unit, detail, 0⟩, (d.tbase 2).ns)] }

/-- An event put on flue `f` at generation `g` in this cycle. -/
def Dev.raiseFlue (d : Dev) (f g : Nat) : Dev :=
  if 1023 < f then d else { d with evts := d.evts ++ [⟨f, g, d.clk.cc, 0⟩] }

/-- The consumer input `c`. -/
def Dev.cons (d : Dev) (c : Nat) : Cons := SMap.get {} d.conss c

/-- Consumer input `c` changed by `f`. -/
def Dev.modCons (d : Dev) (c : Nat) (f : Cons → Cons) : Dev := { d with conss := SMap.upd {} d.conss c f }

/-- A re-emission on flue `f` suppressed because of consumer `c` (R303). -/
def Dev.cutLoop (d : Dev) (f c : Nat) : Dev :=
  let d1 := ((d.wr D.FL_FLAGS 0 1).wr D.LOOP_FLUE 0 f).bump D.LOOPS_CUT 0 32 1
  (d1.modCons c fun x => { x with status := x.status ||| 2 }).report 0x3628 0 f

/-- Flue of source `src`, above 1,023 for none (R293). -/
def Dev.routeOf (d : Dev) (src : Nat) : Nat := SMap.get 0xFFFF d.routes src

/-- Source `src` raises its event with what its cause gives it: on its flue, if it is routed to one; a generation
above 8 is cut (R293, R302, R303). -/
def Dev.raiseC (d : Dev) (src : Nat) (c : Cause) : Dev :=
  let f := d.routeOf src
  if 1023 < f then d
  else if 8 < c.gen then d.cutLoop f c.cons
  else { d with srcCount := SMap.upd 0 d.srcCount src (fun n => (n + 1) % 2 ^ 32) }.raiseFlue f c.gen

/-- Source `src` raises its event at generation 0. -/
def Dev.raise (d : Dev) (src : Nat) : Dev := d.raiseC src {}

/-- The next free value of `w` bits. -/
def Dev.freeBits (d : Dev) (w : Nat) : Nat := (Config.freeValue w d.free).toNat

/-- The device after a free value has been drawn. -/
def Dev.drawn (d : Dev) : Dev := { d with free := d.free + 1 }

/-- The device with the status of the last access. -/
def Dev.say (d : Dev) (x : Status) : Dev := { d with status := x }

/-- The device with status OK and a value read. -/
def Dev.give (d : Dev) (v : Val) : Dev := { d with status := .ok, value := some v }

/-- The outcome every command of the block has: a next state. -/
def State.done (s : State) : Host.Outcome State Fault Refusal := .next s

end Sys2Proof.Machine
end

