-- ==== Sys2Proof/Machine/FtOps.lean ====
section
/-! DEFINITION. Field tests as the rest of the device sees them: what a running test holds, and how it ends (R500–R502). -/

namespace Sys2Proof.Machine

open Sys2Proof

/-- Whether a running test holds channel `u`: channel tests 2, 3, 4; stove tests 5, 6, 7 hold every channel of the
stove; test 9 holds the channel of the role it exercises (R501, R502). -/
def FtRun.holds (r : FtRun) (u : Nat) : Bool :=
  decide (u < 256) &&
    (((r.no == 2 || r.no == 3 || r.no == 4) && r.unit == u) ||
      ((r.no == 5 || r.no == 6 || r.no == 7) && r.unit == stoveOf u) ||
      (r.no == 9 && r.unit == stoveOf u && r.arg / 2 == posOf u))

/-- Whether the running test holds channel `u`. -/
def Dev.ftHolds (d : Dev) (u : Nat) : Bool :=
  match d.ft with
  | some r => r.holds u
  | none => false

/-- Whether the running test has its unit on stove `k` (R501). -/
def Dev.ftOnStove (d : Dev) (k : Nat) : Bool :=
  match d.ft with
  | some r =>
    ((r.no == 2 || r.no == 3 || r.no == 4) && stoveOf r.unit == k) ||
      ((r.no == 5 || r.no == 6 || r.no == 7 || r.no == 9) && r.unit == k)
  | none => false

/-- Whether the running test has port `n` as its unit (R502). -/
def Dev.ftOnPort (d : Dev) (n : Nat) : Bool :=
  match d.ft with
  | some r => r.no == 8 && r.unit == n
  | none => false

/-- Whether the range-link loopback test holds the chain of stove `k` (R502). -/
def Dev.ftLink (d : Dev) (k : Nat) : Bool :=
  match d.ft with
  | some r => r.no == 5 && r.unit == k
  | none => false

/-- The time-base test drives its pin EVO from compare unit 15 in toggle mode (R502). -/
def Dev.ftToggle (d : Dev) (j : Nat) : Dev :=
  match d.ft with
  | some r =>
    if r.no = 10 && j = 15 then { d with evo := SMap.upd {} d.evo (r.arg % 16) fun x => { x with tog := !x.tog } } else d
  | none => d

/-- The places of the dictionary as a test found them put back (R501). -/
def Dev.putBack (d : Dev) (xs : List (Nat × Option Int)) : Dev :=
  { d with dict := xs.foldl (fun m x => match x.2 with | some v => SMap.ins m x.1 v | none => SMap.del m x.1) d.dict }

/-- The running test ends with FT_RESULT `res`: what it changed is restored; a refresh transfer follows the range-link
test (R501, R502). -/
def Dev.ftEnd (d : Dev) (res : Nat) : Dev :=
  match d.ft with
  | none => d
  | some r =>
    let d1 := { d with ft := none }.putBack r.saved
    let rest := fun (c : Ctl) => { c with dac := 524288 }
    let d2 := if r.no = 2 then d1.modCtl r.unit rest else if r.no = 5 then d1.modSt r.unit fun s => { s with link := { s.link with lastTick := 0 } } else d1
    ((d2.wr D.FT_STATE 0 3).wr D.FT_RESULT 0 res)

/-- The running test aborted where `c` holds (R501). -/
def Dev.ftAbortIf (d : Dev) (c : Bool) : Dev := if c then d.ftEnd 5 else d

end Sys2Proof.Machine
end

