-- ==== Sys2Proof/Machine/Trig.lean ====
section
/-! DEFINITION. Sine, cosine and arc tangent in exact integer arithmetic, to more places than any object shows
(log 13). Angles are fractions of a turn. -/

namespace Sys2Proof.Machine

/-- 2π in units of 2^-60. -/
def twoPi60 : Int := 7244019458077122842

/-- One term of the sine series after another: `t` the last term, `x2` the square of the angle, both in 2^-60, `k`
the next odd order. -/
def sinSeries (x2 : Int) : Nat → Int → Nat → Int
  | 0, t, _ => t
  | fuel + 1, t, k =>
    t + sinSeries x2 fuel (-(t * x2 / 2 ^ 60 / (((k + 1) * (k + 2) : Nat) : Int))) (k + 2)

/-- sin of an angle between 0 and π/2, in 2^-60. -/
def sinQuad (x : Int) : Int := sinSeries (x * x / 2 ^ 60) 12 x 1

/-- sin(2π n / d) in 2^-60. -/
def sinTurn (n : Int) (d : Nat) : Int :=
  let r : Int := n % (d : Int)
  let q : Int := 4 * r / (d : Int)
  let x := fun (m : Int) => sinQuad (twoPi60 * m / (d : Int))
  let y := fun (m4 : Int) => sinQuad (twoPi60 * m4 / (4 * (d : Int)))
  if q = 0 then x r
  else if q = 1 then y (2 * (d : Int) - 4 * r)
  else if q = 2 then -(y (4 * r - 2 * (d : Int)))
  else -(y (4 * (d : Int) - 4 * r))

/-- cos(2π n / d) in 2^-60. -/
def cosTurn (n : Int) (d : Nat) : Int := sinTurn (4 * n + d) (4 * d)

/-- Rotation steps of the arc tangent: the vector (x, y), the angle gathered so far in 2^-60 rad, and the table of
arc tangents of 2^-k still to use. -/
def cordic : List Int → Nat → Int → Int → Int → Int
  | [], _, _, _, z => z
  | a :: as, k, x, y, z =>
    if y > 0 then cordic as (k + 1) (x + y / 2 ^ k) (y - x / 2 ^ k) (z + a)
    else cordic as (k + 1) (x - y / 2 ^ k) (y + x / 2 ^ k) (z - a)

/-- arc tangent of 2^-k in 2^-60 rad by its series. -/
def atanPow (k : Nat) : Int :=
  if k = 0 then 905502432259640355
  else
    let x : Int := 2 ^ 60 / 2 ^ k
    (List.range 30).foldl (fun s j =>
      let t : Int := 2 ^ (60 + 62 - min (60 + 62) (k * (2 * j + 1))) / 2 ^ 62 / ((2 * j + 1 : Nat) : Int)
      if j % 2 = 0 then s + t else s - t) (x - x)

/-- The angle of the vector (x, y) in 2^-60 rad, from -π to π; 0 for the null vector. -/
def atan2 (y x : Int) : Int :=
  if x = 0 ∧ y = 0 then 0
  else
    let s : Int := 2 ^ 62
    let t := (List.range 48).map atanPow
    if 0 ≤ x then cordic t 0 (x * s) (y * s) 0
    else if 0 ≤ y then cordic t 0 (-(x * s)) (-(y * s)) 0 + twoPi60 / 2
    else cordic t 0 (-(x * s)) (-(y * s)) 0 - twoPi60 / 2

end Sys2Proof.Machine
end

