-- ==== Sys2Proof/Machine/Injection.lean ====
section
/-! DEFINITION. Injection of faults into the checkers (R449–R452). -/

namespace Sys2Proof.Machine

open Sys2Proof

/-- Checkers (R449). -/
inductive Checker where
  | queue
  | rangeLink
  | flash
  | dictShadow
  | calShadow
  | hearthBus
  | history
  deriving DecidableEq, Repr

/-- The number of a checker (R449). -/
def Checker.num : Checker → Nat
  | .queue => 0
  | .rangeLink => 1
  | .flash => 2
  | .dictShadow => 3
  | .calShadow => 4
  | .hearthBus => 5
  | .history => 6

/-- Whether the next access of a checker's instance is injected: armed one-shot, or continuous (R450, R451). -/
def Dev.injArmed (d : Dev) (c : Checker) (inst : Nat) : Bool :=
  (d.rd D.FI_INJ_STATE 0 == 1 || d.rd D.FI_INJ_STATE 0 == 3) && d.flt.armed == (c.num, inst)

/-- An injected access counted; a one-shot is spent (R450, R451). -/
def Dev.injHit (d : Dev) (real : Bool) : Dev :=
  let d1 := d.wrap D.FI_INJ_HITS 0 32 1
  let d2 := if real then d1.wrap D.FI_INJ_REAL 0 32 1 else d1
  if d.rd D.FI_INJ_STATE 0 = 1 then d2.wr D.FI_INJ_STATE 0 2 else d2

/-- The flags INJ and REAL of a detection (R451). -/
def injCode (inj real : Bool) : Nat := if !inj then 0 else if real then 3 else 1

/-- A report of a checker with the flags of R451. -/
def Dev.reportInj (d : Dev) (code unit detail inj : Nat) : Dev :=
  { d with reports := d.reports ++ [(⟨code, unit, detail, inj⟩, (d.tbase 2).ns)] }

end Sys2Proof.Machine
end

