-- ==== Sys2Proof/Machine/QueueOps.lean ====
section
/-! DEFINITION. The queue manager (R260–R287): pointers, appends, reservations, gap markers, reading, skipping,
flushing and watermarks. -/

namespace Sys2Proof.Machine

open Sys2Proof

/-- Capacity in words (R260). -/
def Queue.cap (q : Queue) : Nat := 2 ^ q.sizeLog2 / 4

/-- Words held (R261). -/
def Queue.level (q : Queue) : Nat := (q.wr + 2 * q.cap - q.rd) % (2 * q.cap)

/-- Words a consumer may read (R261). -/
def Queue.avail (q : Queue) : Nat := (q.cm + 2 * q.cap - q.rd) % (2 * q.cap)

/-- Pointer `p` moved on by `n` words (R261). -/
def Queue.step (q : Queue) (p n : Nat) : Nat := (p + n) % (2 * q.cap)

/-- Pointer `p` moved back by `n` words (R261). -/
def Queue.back (q : Queue) (p n : Nat) : Nat := (p + 2 * q.cap - n % (2 * q.cap)) % (2 * q.cap)

/-- Byte address of the word at pointer `p` (R260, R261). -/
def Queue.addr (q : Queue) (p : Nat) : Nat := q.base + 4 * (p % q.cap)

/-- Whether producers and readers may use the queue (R269, R281). -/
def Queue.live (q : Queue) : Bool := q.enable && !q.fault

/-- A counter of 32 bits that saturates. -/
def sat32N (n : Nat) : Nat := min n 0xFFFFFFFF

/-- One word stored in queue memory. -/
def Dev.putWord (d : Dev) (q : Queue) (p w : Nat) : Dev :=
  { d with qmem := Mem.write 0 d.qmem (q.addr p) (natLe 4 w) }

/-- Words stored from pointer `p` up (R268). -/
def Dev.putWords (d : Dev) (q : Queue) (p : Nat) : List Nat → Dev
  | [] => d
  | w :: ws => Dev.putWords (d.putWord q p w) q (q.step p 1) ws

/-- The word at pointer `p`. -/
def Dev.getWord (d : Dev) (q : Queue) (p : Nat) : Nat := Mem.word 0 d.qmem (q.addr p)

/-- The length word of a packet (R264). -/
def lengthWord (cls len : Nat) : Nat := 2 ^ 30 + cls * 2 ^ 28 + len % 2 ^ 24

/-- The gap marker a queue will write, 0 if none (R265). -/
def Queue.gapWord (q : Queue) : Nat :=
  if q.gapCount = 0 then 0 else 2 * 2 ^ 30 + q.gapCause * 2 ^ 26 + min q.gapCount 0xFFFFFF

/-- Cause bits of a gap marker, from bit 26: STAGING, QUOTA, FULL, FLUSHED (R265). -/
def gapStaging : Nat := 1
/-- QUOTA. -/
def gapQuota : Nat := 2
/-- FULL. -/
def gapFull : Nat := 4
/-- FLUSHED. -/
def gapFlushed : Nat := 8

/-- `n` items lost for the causes `c`: counted, and added to the pending gap marker (R265, R273). -/
def Queue.lose (q : Queue) (n c : Nat) : Queue :=
  { q with gapCount := min (q.gapCount + n) 0xFFFFFF, gapCause := q.gapCause ||| c,
           dropped := sat32N (q.dropped + n), sticky := q.sticky ||| 0x10 }

/-- Bytes charged to class `c`, in the queue and in all. -/
def Dev.charge (d : Dev) (q : Nat) (c : Nat) (n : Int) : Dev :=
  let x := d.qu q
  { d.setQu q { x with chg := SMap.upd 0 x.chg c (fun v => ((v : Int) + n).toNat) } with
    use := SMap.upd 0 d.use c (fun v => ((v : Int) + n).toNat) }

/-- Use of a class in bytes (R274). -/
def Dev.useOf (d : Dev) (c : Nat) : Nat := SMap.get 0 d.use c

/-- An event put on a flue with what its cause gives it; a generation above 8 is cut (R302, R303). -/
def Dev.raiseOn (d : Dev) (f : Nat) (c : Cause) : Dev :=
  if 1023 < f then d else if 8 < c.gen then d.cutLoop f c.cons else d.raiseFlue f c.gen

/-- Words that an access made visible noted for the stream the queue is bound to (R364). -/
def Dev.noteVisible (d : Dev) (q before : Nat) : Dev :=
  let x := d.qu q
  if x.consumer = 0 || decide (x.avail ≤ before) then d
  else d.setQu q { x with vis := x.vis ++ [(x.avail - before, d.clk.cc)] }

/-- The watermark after an access that found `before` words available (R280). -/
def Dev.wmark (d0 : Dev) (q before : Nat) (c : Cause := {}) : Dev :=
  let d := d0.noteVisible q before
  let x := d.qu q
  if x.watermark ≠ 0 && decide (before < x.watermark) && decide (x.watermark ≤ x.avail) then
    (d.setQu q { x with sticky := x.sticky ||| 8, crossings := sat32N (x.crossings + 1) }).raiseOn x.wmFlue c
  else d

/-- Whether `s` words fit (R262). -/
def Queue.fits (q : Queue) (s : Nat) : Bool :=
  if q.gapCount = 0 then decide (q.level + s ≤ q.cap - 1) else decide (q.level + 1 + s ≤ q.cap)

/-- Whether `s` words of class `c` keep within its quota (R275); no class, no quota. -/
def Dev.quotaOk (d : Dev) (c : Option Nat) (s : Nat) : Bool :=
  match c with
  | none => true
  | some k => decide (d.useOf k + 4 * s ≤ d.rdiN D.QUOTA 0 k)

/-- The pending gap marker written at WR (R273). -/
def Dev.putGap (d : Dev) (q : Nat) : Dev :=
  let x := d.qu q
  if x.gapCount = 0 then d
  else (d.putWord x x.wr x.gapWord).setQu q
    { x with wr := x.step x.wr 1, gapCount := 0, gapCause := 0, gaps := sat32N (x.gaps + 1) }

/-- CM moved up to WR, if no reservation is open (R270). -/
def Queue.commit (q : Queue) : Queue := if q.resv.isNone then { q with cm := q.wr } else q

/-- The words of an item placed at WR behind the pending gap marker, of class `c` if any (R268, R273). -/
def Dev.place (d : Dev) (q : Nat) (c : Option Nat) (ws : List Nat) : Dev :=
  let d1 := d.putGap q
  let x := d1.qu q
  let d2 := (d1.putWords x x.wr ws).setQu q ({ x with wr := x.step x.wr ws.length }).commit
  match c with
  | none => d2
  | some k => d2.charge q k (4 * ws.length)

/-- The stove that bank group `b` serves in a cycle, of those whose oldest words go there: the first after the stove served
last (R22, R23). -/
def nextStove (last : Nat) (asks : List Nat) : Option Nat :=
  ((List.range 16).map fun i => (last + 1 + i) % 16).find? asks.contains

/-- One core cycle of the staging buffers: each bank group takes one word (R22, R23). -/
def Dev.serveStaged (d : Dev) : Dev :=
  let heads : List (Nat × Nat) := d.stoves.filterMap fun e => e.2.staged.head?.map fun b => (e.1, b)
  (heads.map Prod.snd).eraseDups.foldl (fun e b =>
    match nextStove (SMap.get 15 d.stagedLast b) ((heads.filter fun h => h.2 == b).map Prod.fst) with
    | none => e
    | some k => { e.modSt k (fun x => { x with staged := x.staged.tail }) with stagedLast := SMap.ins e.stagedLast b k }) d

/-- `n` such cycles, or fewer once every buffer is empty. -/
def Dev.serveFor (d : Dev) : Nat → Dev
  | 0 => d
  | n + 1 => if d.stoves.all fun e => e.2.staged.isEmpty then d else Dev.serveFor d.serveStaged n

/-- The staging buffers served up to the present cycle; 1,024 cycles empty all of them (R23). -/
def Dev.staging (d : Dev) : Dev :=
  { d.serveFor (min (d.clk.cc - d.stagedCc) 1024) with stagedCc := d.clk.cc }

/-- Whether the stove's staging buffer, served up to now, takes `s` words more (R23). -/
def Dev.stages (d : Dev) (stove : Option Nat) (s : Nat) : Bool :=
  match stove with
  | none => true
  | some k => decide ((d.st k).staged.length + s ≤ 64)

/-- The words of an item in the stove's staging buffer, on their way to the words of queue `x` from pointer `p` up. -/
def Dev.stage (d : Dev) (stove : Option Nat) (x : Queue) (p s : Nat) : Dev :=
  match stove with
  | none => d
  | some k => d.modSt k fun y =>
      { y with staged := y.staged ++ (List.range s).map fun i => bits (x.addr (x.step p i)) 25 22 }

/-- The stove a unit's items pass through: none for a virtual channel. -/
def stageOf (u : Nat) : Option Nat := if u < 256 then some (stoveOf u) else none

/-- The checks an append fails: FULL and QUOTA (R268). -/
def Dev.appendCauses (d : Dev) (q : Nat) (c : Option Nat) (s : Nat) : Nat :=
  (if (d.qu q).fits s then 0 else gapFull) + (if d.quotaOk c s then 0 else gapQuota)

/-- An append that fails: one item lost for the causes, the quota's drop counted and reported (R268, R275). -/
def Dev.dropItem (d : Dev) (q : Nat) (c : Option Nat) (causes : Nat) : Dev :=
  let d1 := d.modQu q fun x => x.lose 1 causes
  match c with
  | some k => if bit causes 1 then ((d1.wri D.QDROPS 0 k (min (d1.rdi D.QDROPS 0 k + 1) 0xFFFFFFFF)).report 0x362C k 0)
              else d1
  | none => d1

/-- An access to the descriptor of queue `q` checked, an injected parity mismatch reported; a second one sets FAULT
(R281, R431, R449, R451). -/
def Dev.qCheck (d : Dev) (q : Nat) : Dev :=
  if !d.injArmed .queue q then d
  else if d.rd D.FI_INJ_STATE 0 = 3 then
    ((d.injHit false).modQu q fun x => { x with fault := true, faultCleared := false }).reportInj 0x362A q 0 1
  else (d.injHit false).reportInj 0x3629 q 0 1

/-- An item of words `ws`, of class `c` if it is a packet, appended to queue `q` (R268). -/
def Dev.append (d0 : Dev) (q : Nat) (c : Option Nat) (ws : List Nat) (by_ : Cause := {}) : Dev :=
  let d := d0.qCheck q
  let x := d.qu q
  if !x.live then d.setQu q { x with dropped := sat32N (x.dropped + 1) }
  else
    let causes := d.appendCauses q c ws.length
    if causes = 0 then (d.place q c ws).wmark q x.avail by_ else d.dropItem q c causes

/-- Whether that append is accepted (R268). -/
def Dev.accepts (d : Dev) (q : Nat) (c : Option Nat) (s : Nat) : Bool :=
  (d.qu q).live && decide (d.appendCauses q c s = 0)

/-- A packet of class `c` and body `ws` appended by unit `u`, a physical channel's through its stove's staging
buffer; by no unit for none (R23, R264, R268). -/
def Dev.packet (d0 : Dev) (q c : Nat) (u : Option Nat) (ws : List Nat) : Dev :=
  let s := 1 + ws.length
  let stove := u.bind stageOf
  let d := if stove.isSome then d0.staging else d0
  if (d.qu q).live && !d.stages stove s then
    (d.modQu q fun x => x.lose 1 gapStaging).report 0x162D (u.getD 0) 0
  else
    let d1 := if d.accepts q (some c) s then d.stage stove (d.qu q) (d.qu q).wr s else d
    d1.append q (some c) (lengthWord c ws.length :: ws)

/-- Whether a reservation of `n` words of class `c` would be granted (R269). -/
def Dev.canReserve (d : Dev) (q c n : Nat) : Bool :=
  let x := d.qu q
  x.live && x.resv.isNone && x.fits n && d.quotaOk (some c) n

/-- A reservation of `n` words of class `c` requested: granted, or withheld, a quota's withholding counted
(R269, R273, R276). -/
def Dev.reserve (d0 : Dev) (q c n : Nat) : Dev :=
  let d := d0.qCheck q
  let x := d.qu q
  if d.canReserve q c n then
    let d1 := d.putGap q
    let y := d1.qu q
    ((d1.putWord y y.wr 0).setQu q
      { y with resv := some ⟨y.wr, n, c, y.serial⟩, serial := y.serial + 1, wr := y.step y.wr n }).charge q c (4 * n)
  else if x.live && x.resv.isNone && !d.quotaOk (some c) n then
    d.wri D.QDROPS 0 c (min (d.rdi D.QDROPS 0 c + 1) 0xFFFFFFFF)
  else d

/-- The serial number the next reservation of `q` gets. -/
def Dev.nextSerial (d : Dev) (q : Nat) : Nat := (d.qu q).serial

/-- Whether reservation `id` of queue `q` is still open. -/
def Dev.resvOpen (d : Dev) (q id : Nat) : Bool :=
  match (d.qu q).resv with
  | some r => r.id == id
  | none => false

/-- A word written into an open reservation, `off` words behind its length word; after a flush it goes nowhere
(R269, R278). -/
def Dev.fill (d : Dev) (q id off w : Nat) : Dev :=
  let x := d.qu q
  match x.resv with
  | some r => if r.id = id && decide (off < r.n) then d.putWord x (x.step r.at_ off) w else d
  | none => d

/-- Words written into an open reservation. -/
def Dev.fillAll (d : Dev) (q id off : Nat) : List Nat → Dev
  | [] => d
  | w :: ws => Dev.fillAll (d.fill q id off w) q id (off + 1) ws

/-- Reservation `id` of queue `q` closed with a body of `len` words (R271). -/
def Dev.close (d : Dev) (q id len : Nat) : Dev :=
  let x := d.qu q
  match x.resv with
  | none => d
  | some r =>
    if r.id ≠ id then d else
    let before := x.avail
    let unused := r.n - 1 - len
    let d1 := d.putWord x r.at_ (lengthWord r.cls len)
    let behind : Bool := x.wr ≠ x.step r.at_ r.n
    let d2 := if behind && decide (1 ≤ unused) then d1.putWord x (x.step r.at_ (1 + len)) (unused % 2 ^ 24) else d1
    let wr' := if behind then x.wr else x.back x.wr unused
    ((d2.setQu q { x with resv := none, wr := wr', cm := wr' }).charge q r.cls (-(4 * unused : Int))).wmark q before

/-- Reservation `id` of queue `q` withdrawn, nothing committed: rewound, or a pad where something stands behind it; its
charge released (R230, R271). -/
def Dev.withdraw (d : Dev) (q id : Nat) : Dev :=
  let x := d.qu q
  match x.resv with
  | none => d
  | some r =>
    if r.id ≠ id then d else
    let before := x.avail
    let behind : Bool := x.wr ≠ x.step r.at_ r.n
    let d1 := if behind then d.putWord x r.at_ (r.n % 2 ^ 24) else d
    let wr' := if behind then x.wr else r.at_
    ((d1.setQu q { x with resv := none, wr := wr', cm := wr' }).charge q r.cls (-(4 * r.n : Int))).wmark q before

/-- Words of the item whose first word is `w` (R264–R267). -/
def itemLen (w : Nat) : Nat :=
  match w / 2 ^ 30 % 4 with
  | 1 => 1 + w % 2 ^ 24
  | 0 => w % 2 ^ 24
  | _ => 1

/-- Whether `w` at an item boundary is malformed with `avail` words to read (R279). -/
def itemBad (w avail : Nat) : Bool :=
  match w / 2 ^ 30 % 4 with
  | 0 => w % 2 ^ 24 == 0 || decide (avail < w % 2 ^ 24)
  | 1 => decide (avail < 1 + w % 2 ^ 24)
  | 2 => bits w 25 24 != 0
  | _ => bits w 29 27 != 0

/-- The items between pointers `p` and `e`, pads not counted, at most `fuel`. -/
def Dev.countItems (d : Dev) (q : Queue) (p e : Nat) : Nat → Nat
  | 0 => 0
  | fuel + 1 =>
    if p = e then 0
    else
      let w := d.getWord q p
      (if w / 2 ^ 30 % 4 = 0 then 0 else 1) + Dev.countItems d q (q.step p (max 1 (itemLen w))) e fuel

/-- The charge of the packet just read to its end released (R274). -/
def Dev.endItem (d : Dev) (q : Nat) : Dev :=
  let x := d.qu q
  match x.cur with
  | none => d
  | some (c, n) => (d.setQu q { x with cur := none }).charge q c (-(n : Int))

/-- One word taken at an item boundary: its type is read and checked (R277, R279). -/
def Dev.startItem (d : Dev) (q : Nat) : Dev :=
  let x := d.qu q
  let w := d.getWord x x.rd
  if x.bad then d
  else if itemBad w x.avail then
    (d.setQu q { x with bad := true, sticky := x.sticky ||| 0x100, remain := 0 }).report 0x362B q 0
  else
    d.setQu q { x with remain := itemLen w, cur := if w / 2 ^ 30 % 4 = 1 then some (w / 2 ^ 28 % 4, 4 * itemLen w) else none }

/-- RD moved past `n` words of the current item (R277). -/
def Dev.advanceRd (d : Dev) (q n : Nat) : Dev :=
  let x := d.qu q
  let d1 := d.setQu q { x with rd := x.step x.rd n, remain := x.remain - n }
  if x.remain ≤ n then d1.endItem q else d1

/-- The word a read of queue `q` returns (R277, R281). -/
def Dev.readVal (d : Dev) (q : Nat) : Nat :=
  let x := d.qu q
  if !x.live || x.avail = 0 then x.lastRead else d.getWord x x.rd

/-- One word read from queue `q` (R277, R279, R281). -/
def Dev.readWord (d0 : Dev) (q : Nat) : Dev :=
  let d := d0.qCheck q
  let x := d.qu q
  if !x.live || x.avail = 0 then d.setQu q { x with sticky := x.sticky ||| 0x20 }
  else
    let w := d.getWord x x.rd
    let d1 := if x.remain = 0 then d.startItem q else d
    (d1.advanceRd q 1).modQu q fun y => { y with lastRead := w }

/-- `n` words read, oldest first. -/
def Dev.readWords (d : Dev) (q : Nat) : Nat → Dev × List Nat
  | 0 => (d, [])
  | n + 1 =>
    let w := d.readVal q
    let r := Dev.readWords (d.readWord q) q n
    (r.1, w :: r.2)

/-- SKIP: the rest of the current item, or the next visible one (R277). -/
def Dev.skip (d : Dev) (q : Nat) : Dev :=
  let x := d.qu q
  if 0 < x.remain then d.advanceRd q x.remain
  else if x.avail = 0 then d
  else
    let d1 := d.startItem q
    d1.advanceRd q (d1.qu q).remain

/-- Every class's charge of the queue released. -/
def Dev.releaseAll (d : Dev) (q : Nat) : Dev :=
  let x := d.qu q
  let d1 := x.chg.foldl (fun e (cv : Nat × Nat) => e.charge q cv.1 (-(cv.2 : Int))) d
  d1.modQu q fun y => { y with cur := none }

/-- The items a flush of queue `q` discards, the open packet included (R278). -/
def Dev.flushCount (d : Dev) (q : Nat) : Nat :=
  let x := d.qu q
  let part := if 0 < x.remain then 1 else 0
  let p := x.step x.rd x.remain
  match x.resv with
  | none => part + d.countItems x p x.wr x.cap
  | some r => part + d.countItems x p r.at_ x.cap + 1 + d.countItems x (x.step r.at_ r.n) x.wr x.cap

/-- FLUSH (R278). -/
def Dev.flush (d : Dev) (q : Nat) : Dev :=
  let n := d.flushCount q
  (d.releaseAll q).modQu q fun x =>
    let w := match x.resv with | none => x.wr | some r => r.at_
    let y := { x with wr := w, rd := w, cm := w, remain := 0, resv := none, bad := false, vis := [] }
    if n = 0 then y else y.lose n gapFlushed

/-- A marker appended (R266). -/
def Dev.mark (d : Dev) (q : Nat) (src flue arg : Nat) (c : Cause := {}) : Dev :=
  d.append q none [3 * 2 ^ 30 + src * 2 ^ 26 + flue * 2 ^ 16 + arg % 2 ^ 16] c

/-- Whether the regions of two queues overlap (R263). -/
def Queue.overlaps (x y : Queue) : Bool :=
  decide (x.base < y.base + 2 ^ y.sizeLog2) && decide (y.base < x.base + 2 ^ x.sizeLog2)

/-- Whether another enabled queue overlaps region `x` of queue `q` (R263). -/
def Dev.clash (d : Dev) (q : Nat) (x : Queue) : Bool :=
  (d.queues.any fun e => e.1 ≠ q && e.2.enable && x.overlaps e.2) ||
  ((List.range 512).any fun j => j ≠ q && (d.qu j).enable && x.overlaps (d.qu j))

/-- The check of a write of ENABLE 1 (R263). -/
def Dev.enableCheck (d : Dev) (q : Nat) : Status :=
  let x := d.qu q
  if x.base % 2 ^ x.sizeLog2 ≠ 0 || decide (0x4000000 < x.base + 2 ^ x.sizeLog2) then .value
  else if d.clash q x then .busy
  else if (List.range 16).any (fun g => !d.pdOn (282 + g) && decide (x.base < 0x400000 * (g + 1)) &&
      decide (0x400000 * g < x.base + 2 ^ x.sizeLog2)) then .state
  else .ok

/-- ENABLE 1 accepted: pointers, counters, status and pending marker cleared (R263, R281). -/
def Dev.enableQ (d : Dev) (q : Nat) : Dev :=
  let x := d.qu q
  d.setQu q { x with
    enable := true, rd := 0, cm := 0, wr := 0, remain := 0, sticky := 0, bad := false, dropped := 0,
    gaps := 0, crossings := 0, lastRead := 0, marks := 0, gapCount := 0, gapCause := 0, resv := none, cur := none,
    fault := x.fault && !x.faultCleared, faultCleared := false }

/-- ENABLE 0 accepted: contents and charges discarded, no gap marker (R263, R273). -/
def Dev.disableQ (d : Dev) (q : Nat) : Dev :=
  (d.releaseAll q).modQu q fun x =>
    { x with
      enable := false, rd := 0, cm := 0, wr := 0, remain := 0, gapCount := 0, gapCause := 0, resv := none,
      bad := false }

/-- Q_STATUS (R285). -/
def Queue.status (q : Queue) : Nat :=
  q.sticky ||| b2n (q.avail == 0) ||| 2 * b2n (decide (q.cap - 1 ≤ q.level)) |||
  4 * b2n (q.watermark != 0 && decide (q.watermark ≤ q.avail)) ||| 0x40 * b2n (q.gapCount != 0) ||| 0x80 * b2n q.fault

/-- The open reservation of a queue dropped at a channel reset (R470). -/
def Dev.resetResv (d : Dev) (q : Nat) : Dev :=
  let x := d.qu q
  match x.resv with
  | none => d
  | some r =>
    let before := x.avail
    let behind : Bool := x.wr ≠ x.step r.at_ r.n
    let d1 := if behind then d.putWord x r.at_ (r.n % 2 ^ 24) else d
    let wr' := if behind then x.wr else r.at_
    ((d1.setQu q (Queue.lose { x with resv := none, wr := wr', cm := wr' } 1 gapFlushed)).charge q r.cls
      (-(4 * r.n : Int))).wmark q before

end Sys2Proof.Machine
end

