-- ==== Sys2Proof/Machine/Units.lean ====
section
/-! DEFINITION. Hearth membership and fractions (R116–R131), ownership as it is read (R353, R369), notification
packets (R368). -/

namespace Sys2Proof.Machine

open Sys2Proof

/-- The hearth a unit is a member of, 0 for none (R118). -/
def Dev.parentOf (d : Dev) (u : Nat) : Nat := SMap.get 0 d.parent u

/-- Whether a unit is a member of a hearth. -/
def Dev.isMember (d : Dev) (u : Nat) : Bool := d.parentOf u ≠ 0

/-- The top-level hearth that holds a unit, or the unit itself; at most four levels (R117, R119). -/
def Dev.topOf (d : Dev) (u : Nat) : Nat :=
  let up := fun v => if d.parentOf v = 0 then v else d.parentOf v
  up (up (up (up u)))

/-- Member entry `e` of hearth `h`, none for 0xFFFF (R116). -/
def Dev.member (d : Dev) (h e : Nat) : Option Nat :=
  let v := d.rdiN C.MEMBER h e
  if v < 384 then some v else none

/-- The entries of hearth `h` in use, with their members, in entry order. -/
def Dev.members (d : Dev) (h : Nat) : List (Nat × Nat) :=
  (List.range 64).filterMap fun e => (d.member h e).map fun m => (e, m)

/-- The leaves of a unit in entry order, depth first, through at most `fuel` levels (R119). -/
def Dev.leavesAux (d : Dev) : Nat → Nat → List Nat
  | 0, u => if u < 256 then [u] else []
  | fuel + 1, u => if u < 256 then [u] else (d.members u).flatMap fun em => Dev.leavesAux d fuel em.2

/-- The leaves of hearth `h`, or the physical channel itself. -/
def Dev.leaves (d : Dev) (h : Nat) : List Nat := d.leavesAux 4 h

/-- The active leaves of a hearth, as the top-level hearth that holds it has them (R119, R128); a physical channel stands
for itself. -/
def Dev.active (d : Dev) (h : Nat) : List Nat :=
  if h < 256 then [h] else (d.leaves h).filter fun u => !(d.he (d.topOf h)).out.contains u

/-- The hearths within hearth `h`, itself among them, a container before what it contains (R116). -/
def Dev.hearthsAux (d : Dev) : Nat → Nat → List Nat
  | 0, _ => []
  | fuel + 1, h => if h < 256 then [] else h :: (d.members h).flatMap fun em => Dev.hearthsAux d fuel em.2

/-- The hearths within hearth `h`. -/
def Dev.hearthsIn (d : Dev) (h : Nat) : List Nat := d.hearthsAux 4 h

/-- LEVEL of a unit: 0 physical or undefined, else 1 + the highest member level (R116). -/
def Dev.levelAux (d : Dev) : Nat → Nat → Nat
  | 0, _ => 0
  | fuel + 1, u =>
    if u < 256 then 0 else
    match d.members u with
    | [] => 0
    | ms => 1 + ms.foldl (fun a em => max a (Dev.levelAux d fuel em.2)) 0

/-- LEVEL of a hearth, up to 5 so that a rise above 4 shows (R116, R117). -/
def Dev.levelOf (d : Dev) (u : Nat) : Nat := d.levelAux 5 u

/-- Sum of the weights of the entries of `h` that hold an active leaf of the top-level hearth `top` (R119). -/
def Dev.weightSum (d : Dev) (act : List Nat) (h : Nat) : Nat :=
  (d.members h).foldl (fun a em =>
    if (d.leavesAux 3 em.2).any act.contains then a + d.rdiN C.WEIGHT h em.1 else a) 0

/-- The effective fraction of leaf `u` in hearth `h`, through at most `fuel` levels (R119). -/
def Dev.fracAux (d : Dev) (act : List Nat) : Nat → Nat → Nat → Rat2
  | 0, _, _ => ⟨1, 1⟩
  | fuel + 1, h, u =>
    match (d.members h).find? fun em => (d.leavesAux 3 em.2).contains u with
    | none => ⟨0, 1⟩
    | some em =>
      let w : Rat2 := ⟨d.rdi C.WEIGHT h em.1, max 1 (d.weightSum act h)⟩
      if em.2 < 256 then w else w.mul (Dev.fracAux d act fuel em.2 u)

/-- The effective fraction f of leaf `u` of top-level hearth `h` among the active leaves (R119). -/
def Dev.fraction (d : Dev) (h u : Nat) : Rat2 :=
  if h < 256 then ⟨1, 1⟩ else d.fracAux (d.active h) 4 h u

/-- Full scale of range `j` of one variable of a physical channel (R90, R91). -/
def Dev.fsPhys (d : Dev) (u : Nat) (volt : Bool) (j : Nat) : Rat2 :=
  f32Val (if volt then d.rdi C.FS_V u j else d.rdi C.FS_I u j)

/-- Full scale of range `j` of a unit: for a hearth the sum of its leaves' current full scales, and the voltage full
scale of its first leaf (R121). -/
def Dev.fs (d : Dev) (u : Nat) (volt : Bool) (j : Nat) : Rat2 :=
  if u < 256 then d.fsPhys u volt j
  else if volt then
    match d.leaves u with
    | [] => ⟨0, 1⟩
    | l :: _ => d.fsPhys l true j
  else (d.leaves u).foldl (fun a l => a.add (d.fsPhys l false j)) ⟨0, 1⟩

/-- Full scale in force of one variable of a unit. -/
def Dev.fsNow (d : Dev) (u : Nat) (volt : Bool) : Rat2 := d.fs u volt ((d.ch u).rng volt).now

/-- A code of full scale `a` as a code of full scale `b`, rounded to nearest (R47, R127). -/
def rescale (x : Int) (a b : Rat2) : Int :=
  let q := (Rat2.ofInt x).mul (a.div b)
  rdiv q.num q.den

/-! ### Ownership as it is read -/

/-- The ownership record of unit `u`. -/
def Dev.ownRec (d : Dev) (u : Nat) : Own := SMap.get {} d.own u

/-- Owner of a unit for writes: of its top-level hearth for a member (R353): 0 none, 1 A, 2 B. -/
def Dev.owner (d : Dev) (u : Nat) : Nat := (d.ownRec (d.topOf u)).west.owner

/-- The owner a party's own half sees: West for port A and the console, East for port B (R374). -/
def Dev.ownerFor (d : Dev) (p : Party) (u : Nat) : Nat :=
  let r := d.ownRec (d.topOf u)
  match p with
  | .b => if bit d.halfFenced 1 then r.west.owner else r.east.owner
  | _ => if bit d.halfFenced 0 then r.east.owner else r.west.owner

/-- Whether the unit, or its top-level hearth, is in dispute (R375). -/
def Dev.disputed (d : Dev) (u : Nat) : Bool := (d.ownRec (d.topOf u)).split

/-- The epoch of a unit; the West copy while in dispute (R369). -/
def Dev.epoch (d : Dev) (u : Nat) : Nat := (d.ownRec u).west.epoch

/-- Both copies of a unit's ownership set (R370, R371). -/
def Dev.setOwn (d : Dev) (u owner epoch : Nat) : Dev :=
  let c : OwnCopy := ⟨owner, epoch % 2 ^ 16⟩
  { d with own := SMap.ins d.own u ⟨c, c, false⟩ }

/-! ### Notifications -/

/-- The body of a notification packet (R368). -/
def noteBody (ns kind unit w1 w5 : Nat) : List Nat :=
  (kind * 2 ^ 24 + unit % 2 ^ 16) :: w1 % 2 ^ 32 :: time96Words ns ++ [w5 % 2 ^ 32, 0, 0]

/-- A notification of `kind` from port `p`'s half, if NT_MASK enables it and NT_QUEUE names a queue (R368). -/
def Dev.notifyPort (d : Dev) (p kind unit w1 w5 : Nat) : Dev :=
  let q := d.rdN D.NT_QUEUE p
  if !bit (d.rdN D.NT_MASK p) kind || decide (65535 < q) then d
  else
    let d1 := d.packet q 3 none (noteBody d.now2 kind unit w1 w5)
    if d.accepts q (some 3) 9 then d1.wrap D.NT_SENT p 32 1 else d1.bump D.NT_DROPPED p 32 1

/-- A notification of device scope: from both ports (R368). -/
def Dev.notifyAll (d : Dev) (kind unit w1 w5 : Nat) : Dev :=
  (d.notifyPort 0 kind unit w1 w5).notifyPort 1 kind unit w1 w5

/-- A notification about a unit, to the port that owns it (R368). -/
def Dev.notifyOwner (d : Dev) (u kind w1 w5 : Nat) : Dev :=
  match d.owner u with
  | 1 => d.notifyPort 0 kind u w1 w5
  | 2 => d.notifyPort 1 kind u w1 w5
  | _ => d

/-- The channel state of `u` set to `x`, notified when it changes (R38, R368 kind 1). -/
def Dev.setChState (d : Dev) (u : Nat) (x : ChState) : Dev :=
  let old := (d.ch u).ctl.st
  if old = x then d
  else (d.modCtl u fun c => { c with st := x }).notifyOwner u 1 x.code old.code

end Sys2Proof.Machine
end

