-- ==== Sys2Proof/Machine/CtlOps.lean ====
section
/-! DEFINITION. The arithmetic of the control engine (R45–R88): sticky flags, the band, periods, prediction, the law a
channel regulates by, edges, hand-over, the linear stage and injection. -/

namespace Sys2Proof.Machine

open Sys2Proof

/-! ### Sticky flags of CTL_FLAGS (R63) -/

/-- Bit numbers of the sticky flags (R63). -/
def fSpSat : Nat := 1
/-- SAMPLE_SAT. -/
def fSampleSat : Nat := 2
/-- PHASE_SAT. -/
def fPhaseSat : Nat := 3
/-- PRED_SAT. -/
def fPredSat : Nat := 4
/-- ERR_SAT. -/
def fErrSat : Nat := 5
/-- EDGE_SAT. -/
def fEdgeSat : Nat := 6
/-- BAND_SAT. -/
def fBandSat : Nat := 7
/-- PULSE_CLIP. -/
def fPulseClip : Nat := 8
/-- CTL_MISS. -/
def fCtlMiss : Nat := 9
/-- COEF_ORDER. -/
def fCoefOrder : Nat := 10
/-- HANDOVER_CHATTER. -/
def fChatter : Nat := 11
/-- OSC_DETECT. -/
def fOscDetect : Nat := 12
/-- FB_STUCK. -/
def fFbStuck : Nat := 13
/-- FB_KELVIN. -/
def fFbKelvin : Nat := 14
/-- FB_SAT. -/
def fFbSat : Nat := 15
/-- DAC_SAT. -/
def fDacSat : Nat := 0

/-- Sticky flag `b` set where `x` holds. -/
def Ctl.flagIf (c : Ctl) (b : Nat) (x : Bool) : Ctl := if x then { c with sticky := c.sticky ||| 2 ^ b } else c

/-- Whether a value does not fit Q1.31. -/
def out32 (v : Int) : Bool := decide (v < -2147483648) || decide (2147483647 < v)

/-- Whether the channel regulates (R37). -/
def Ctl.regulating (c : Ctl) : Bool := c.st == .source || c.st == .hold

/-! ### Periods and the band (R60–R62) -/

/-- Whole span and number of the periods counted, at most 16, in 1/64 cv (R61). -/
def Ctl.periods (c : Ctl) : Nat × Nat :=
  match c.highs with
  | [] => (0, 0)
  | h :: _ => (h - c.highs.getLastD 0, c.highs.length - 1)

/-- FSW_MEAS: f_cv / T rounded to nearest; 0 until a period has ended (R60, R61). -/
def Ctl.fswMeas (c : Ctl) (fcv : Nat) : Int :=
  let p := c.periods
  if p.2 = 0 || p.1 = 0 then 0 else rdiv (fcv * 64 * p.2) p.1

/-- Whether a period of `t64` sixty-fourths of a cv lies within Tt ± Tt/64 (R61). -/
def inWindow (fcv fsw t64 : Nat) : Bool :=
  decide (((t64 * fsw : Nat) - (64 * fcv : Nat) : Int).natAbs ≤ fcv)

/-- The intervals between consecutive edges, newest first. -/
def gaps : List Nat → List Nat
  | a :: b :: t => (a - b) :: gaps (b :: t)
  | _ => []

/-- Whether the clamps of the band are inverted (R73). -/
def Dev.bandInverted (d : Dev) (u : Nat) : Bool := decide (d.rd C.BAND_MAX u < d.rd C.BAND_MIN u)

/-- The band within its clamps; BAND_MAX where they are inverted (R61, R73). -/
def Dev.bandClamp (d : Dev) (u : Nat) (b : Int) : Int :=
  if d.bandInverted u then d.rd C.BAND_MAX u else clampI (d.rd C.BAND_MIN u) (d.rd C.BAND_MAX u) b

/-- The band in force without injection: with LOCK_EN the lock's, clamped at its updates alone; else BAND clamped; with
inverted clamps BAND_MAX (R61, R62, R73). -/
def Dev.bandNow (d : Dev) (u : Nat) : Int :=
  if d.flag C.LOCK_EN u && !d.bandInverted u then (d.ch u).ctl.band else d.bandClamp u (d.rd C.BAND u)

/-- Whether a clamp acts in the slot (R62). -/
def Dev.bandClamped (d : Dev) (u : Nat) : Bool :=
  !d.flag C.LOCK_EN u && !d.bandInverted u && decide (d.bandNow u ≠ d.rd C.BAND u)

/-- The phase error of a follower's edge in 1/64 cv, wrapped to ± Tt/2: δ − k·Tt/n (R134), as a rational over
FSW_TARGET · n. -/
def ilPhi (fcv fsw delta64 k n : Nat) : Rat2 :=
  let den := max 1 (fsw * n)
  let tt : Int := (64 * fcv * n : Nat)
  let x : Int := (delta64 : Int) * (fsw * n : Nat) - (64 * fcv * k : Nat)
  let r := x % tt
  ⟨if 2 * r > tt then r - tt else r, den⟩

/-- The band after a period of `t64`, with a follower's phase error if it has one (R61, R134). -/
def Dev.bandStep (d : Dev) (u t64 : Nat) (phi : Option Rat2) (ilShift : Nat) : Int :=
  let b := (d.ch u).ctl.band
  let fsw := d.rdN C.FSW_TARGET u
  let fcv := d.clk.fcv
  let tt64 := 64 * fcv
  let e : Rat2 := ⟨(t64 * fsw : Nat) - (tt64 : Int), tt64 * 2 ^ (d.rdN C.LOCK_SHIFT u)⟩
  let f : Rat2 := match phi with
    | none => e
    | some p => e.add ⟨p.num * fsw, p.den * tt64 * 2 ^ ilShift⟩
  let y := (Rat2.ofInt b).sub ((Rat2.ofInt b).mul f)
  odiv 61 y.num y.den

/-! ### Hearth shares (R127, R129) -/

/-- Capacity of a top-level hearth in amperes: the least FS_I × DERATE / f of its active leaves (R129). -/
def Dev.capacity (d : Dev) (h : Nat) : Rat2 :=
  let der : Rat2 := ⟨d.rd C.DERATE h, 2 ^ 31⟩
  match d.active h with
  | [] => ⟨0, 1⟩
  | l :: ls =>
    let c := fun u => ((d.fsNow u false).mul der).div (d.fraction h u)
    ls.foldl (fun a u => if (c u).lt a then c u else a) (c l)

/-- Capacity as a code of the hearth's current full scale, rounded to nearest (R127, R129). -/
def Dev.capCode (d : Dev) (h : Nat) : Int :=
  let q := ((d.capacity h).div (d.fsNow h false)).mul ⟨2 ^ 31, 1⟩
  rdiv q.num q.den

/-- Current limits of a hearth in force: cut to ± capacity (R129). -/
def Dev.icNow (d : Dev) (h : Nat) : Int × Int :=
  let c := d.capCode h
  let p := d.rd C.ICP h
  let n := d.rd C.ICN h
  (if c < p then sat32 c else p, if n < -c then sat32 (-c) else n)

/-- Whether the capacity cuts a programmed limit, or the target in FI (R129). -/
def Dev.hearthCut (d : Dev) (h : Nat) : Bool :=
  let c := d.capCode h
  decide (c < d.rd C.ICP h) || decide (d.rd C.ICN h < -c) ||
  (decide (d.rd C.MODE h = 1) && decide (c < ((d.ch h).ctl.tgt.natAbs : Int)))

/-- A hearth voltage code in the voltage range of leaf `u`, unsaturated (R127). -/
def Dev.shareV (d : Dev) (h u : Nat) (x : Int) : Int := rescale x (d.fsNow h true) (d.fsNow u true)

/-- A hearth current code, times the leaf's fraction, in the current range of leaf `u`, unsaturated: the product and
the conversion each rounded to nearest (R127). -/
def Dev.shareI (d : Dev) (h u : Nat) (x : Int) : Int :=
  let f := d.fraction h u
  rescale (rdiv (x * f.num) f.den) (d.fsNow h false) (d.fsNow u false)

/-- The leader of a hearth: its first active leaf (R119, R131). -/
def Dev.leaderOf (d : Dev) (h : Nat) : Option Nat := (d.active h).head?

/-- The lag d of R127 in samples: 0 when every leaf lies in the leader's stove at a higher position, else 2. -/
def Dev.shareLag (d : Dev) (h : Nat) : Nat :=
  match d.leaderOf h with
  | none => 2
  | some l => if (d.active h).all fun u => stoveOf u == stoveOf l && decide (l ≤ u) then 0 else 2

/-! ### The law in force -/

/-- What a channel regulates by in one slot: FI instead of FV, the programmed target, and the pair of limits of the
limited variable. -/
structure Law where
  fi : Bool
  target : Int
  hi : Int
  lo : Int
  /-- the target saturated on its way (SP_SAT) -/
  sat : Bool
  deriving DecidableEq, Repr

/-- The injection value at sample `k` of a run, before it is added (R87). -/
def injValue (mode ampl period prbs k : Nat) : Int :=
  match mode with
  | 1 => if 2 * (k % period) < period then ampl else -(ampl : Int)
  | 2 => odiv 87 ((ampl : Int) * sinTurn k period) (2 ^ 60)
  | 3 => if prbs % 2 = 1 then ampl else -(ampl : Int)
  | _ => 0

/-- The next PRBS register: order 7 (x^7 + x^6 + 1) or 15 (x^15 + x^14 + 1) (R86, R87). -/
def prbsNext (order r : Nat) : Nat :=
  let fb := (b2n (bit r (order - 1)) + b2n (bit r (order - 2))) % 2
  (2 * r + fb) % 2 ^ order

/-- Whether the run of unit `u` has samples in the present slot (R87). -/
def Dev.injLive (d : Dev) (u : Nat) : Bool :=
  let i := (d.ch u).ctl.inj
  let n := d.rdN C.INJ_COUNT u
  i.on && decide (i.from_ ≤ d.clk.tick) && (n == 0 || decide (i.k < n))

/-- The perturbation of unit `u`'s run at point `pt` (0 target, 1 band); 0 without one (R87). -/
def Dev.inject (d : Dev) (u pt : Nat) : Int :=
  let c := (d.ch u).ctl
  if d.injLive u && decide (d.rdN C.INJ_POINT u = pt) then
    injValue (d.rdN C.INJ_MODE u) (d.rdN C.INJ_AMPL u) (max 1 (d.rdN C.INJ_PERIOD u)) c.inj.prbs c.inj.k
  else 0

/-- A target with the injection of unit `u` added, and whether it saturates (R87). -/
def Dev.target (d : Dev) (u : Nat) : Int × Bool :=
  let x := (d.ch u).ctl.tgt + d.inject u 0
  (sat32 x, out32 x)

/-- The hearth law at its leader `l` (R127, R129). -/
def Dev.leaderLaw (d : Dev) (h l : Nat) : Law :=
  let fi := decide (d.rd C.MODE h = 1)
  let t0 := d.target h
  let cap := d.capCode h
  let t1 := if fi then clampI (-cap) cap t0.1 else t0.1
  let t := if fi then d.shareI h l t1 else d.shareV h l t1
  let lim := d.icNow h
  if fi then
    ⟨true, sat32 t, sat32 (d.shareV h l (d.rd C.VCP h)), sat32 (d.shareV h l (d.rd C.VCN h)),
      t0.2 || decide (t1 ≠ t0.1) || out32 t⟩
  else
    ⟨false, sat32 t, sat32 (d.shareI h l lim.1), sat32 (d.shareI h l lim.2), t0.2 || out32 t⟩

/-- The bus's word for sample `n - d`, if the leader's decision was not missed (R127). -/
def Dev.busWord (d : Dev) (h n : Nat) : Option BusWord :=
  match (d.he h).bus.find? fun e => e.1 = n - d.shareLag h with
  | some e => e.2
  | none => none

/-- The word of sample `n` that channel `u` puts on its hearth's bus, where it leads (R127). -/
def Dev.putBus (d : Dev) (u n : Nat) (w : Option Int) : Dev :=
  let h := d.topOf u
  if d.isMember u && d.leaderOf h == some u then
    let x : Option BusWord := w.map fun v => ⟨v, (d.ch u).rngI.now, u, d.fraction h u⟩
    d.modHe h fun y => { y with bus := ((n, x) :: y.bus.filter fun e => e.1 != n).take 4 }
  else d

/-- The law of follower `u`: FI to its share of the leader's predicted current, guarded by the hearth's VC pair
(R127). -/
def Dev.followerLaw (d : Dev) (h u : Nat) (w : BusWord) : Law :=
  let x := rescale w.x (d.fsPhys w.leader false w.range) (d.fsNow u false)
  let r := (d.fraction h u).div w.f
  let t := rdiv (sat32 x * r.num) r.den
  ⟨true, sat32 t, sat32 (d.shareV h u (d.rd C.VCP h)), sat32 (d.shareV h u (d.rd C.VCN h)), out32 t || out32 x⟩

/-- The law of a channel that is no hearth's leaf (R45, R46). -/
def Dev.ownLaw (d : Dev) (u : Nat) : Law :=
  let t := d.target u
  if d.rd C.MODE u = 1 then ⟨true, t.1, d.rd C.VCP u, d.rd C.VCN u, t.2⟩
  else ⟨false, t.1, d.rd C.ICP u, d.rd C.ICN u, t.2⟩

/-- The law of physical channel `u` for sample `n`; none when the share for the sample is not there (R64, R127). -/
def Dev.lawOf (d : Dev) (u n : Nat) : Option Law :=
  if !d.isMember u then some (d.ownLaw u)
  else
    let h := d.topOf u
    match d.leaderOf h with
    | none => none
    | some l =>
      if l = u then some (d.leaderLaw h l)
      else (d.busWord h n).map fun w => d.followerLaw h u w

/-! ### Prediction (R50, R57) -/

/-- A quotient rounded toward zero. -/
def tdiv (a : Int) (b : Nat) : Int := Int.tdiv a b

/-- The phase-table term for sample edge `n`, in Q1.31 (R57). -/
def Dev.phaseTerm (d : Dev) (u n : Nat) : Int :=
  let c := (d.ch u).ctl
  let p := c.periods
  if !bit (d.rdN C.FF_ENABLE u) 1 || c.sw == .idle || p.2 = 0 || p.1 = 0 then 0
  else
    match c.highs.find? fun h => decide (h ≤ 64 * n) with
    | none => 0
    | some h =>
      let i := min 63 (64 * (64 * n - h) * p.2 / p.1)
      256 * ofTwos 16 (SMap.get 0 c.ff (12 * 256 + i))

/-- The slope per cv and the prediction at the start of cv n+11, with whether they saturate; a history not yet full
reads as the free value `x` (R50). -/
def predict (x : Int) (h : List Int) : Int × Int × Bool :=
  let x0 := h.getD 0 x
  let s0 := tdiv (3 * x0 + h.getD 1 x - h.getD 2 x - 3 * h.getD 3 x) 10
  let s := sat32 s0
  let p0 := x0 + 11 * s
  (s, sat32 p0, out32 s0 || out32 p0)

/-- The newest corrected samples of edge `n` taken into the prediction histories; a leader's predicted current goes to
the hearth bus in every cv (R50, R53, R57, R127). -/
def Dev.feed (d : Dev) (u n : Nat) (yV yI : Int) (sV sI : Bool) : Dev :=
  let t := d.phaseTerm u n
  let d1 := d.modCtl u fun c =>
    { c.flagIf fPhaseSat (out32 (yV + t) || out32 (yI + t)) with
      hv := (sat32 (yV + t) :: c.hv).take 4, hi := (sat32 (yI + t) :: c.hi).take 4,
      fresh := some n, satV := sV, satI := sI }
  d1.putBus u n (some (predict (ofTwos 32 (d.freeBits 32)) (d1.ch u).ctl.hi).2.1)

/-- The errors at the start and the end of cv n+11, with whether they saturate (R50). -/
def errors (target s p : Int) : Int × Int × Bool :=
  let e0 := sat32 (target - p)
  let e1 := sat32 (e0 - s)
  (e0, e1, out32 (target - p) || out32 (e0 - s))

/-! ### Hand-over (R67–R71) -/

/-- The limit in force after this sample, from the limit before it: `L` the predicted limited variable, `eP` the
programmed law's error, `m` the margin in Q0.31, `b` the band (R67–R69, R73). -/
def nextLimit (lim : Option Bool) (hi lo L eP m b : Int) : Option Bool :=
  let inv := decide (hi ≤ lo)
  let mar := fun (x : Int) => max (m * x.natAbs) (2 * b * 2 ^ 31)
  match lim with
  | none => if hi < L then some true else if !inv && decide (L < lo) then some false else none
  | some true =>
    if !inv && decide (L < lo) then some false
    else if L * 2 ^ 31 < hi * 2 ^ 31 - mar hi || decide (eP < -b) then none else some true
  | some false =>
    if hi < L then some true
    else if inv || decide (lo * 2 ^ 31 + mar lo < L * 2 ^ 31) || decide (b < eP) then none else some false

/-- A hand-over from one limit state to another counted, its events raised, the chatter window evaluated, the trim
cleared (R69–R71, R85). -/
def Dev.handOver (d : Dev) (u : Nat) (old new : Option Bool) : Dev :=
  let t := d.clk.tick
  let win := (rdiv d.clk.fcv 1000).toNat
  let d1 := if old.isSome then d.raise (srcCh u 1) else d
  let d2 := if new.isSome then d1.raise (srcCh u 0) else d1
  let hs := t :: ((d2.ch u).ctl.hands.filter fun x => decide (t < x + win)).take 8
  let d3 := (d2.modCtl u fun c => { c with limit := new, limSeen := c.limSeen || new.isSome, hands := hs, trim := 0 }).bump C.HANDOVER_COUNT u 32 1
  if 8 < hs.length then
    ((d3.modCtl u fun c => c.flagIf fChatter true).raise (srcCh u 11)).report 0x1102 u 0
  else d3

/-! ### Edges (R51–R56, R61, R76) -/

/-- Minimum interval between edges in 1/64 cv (R55, R73). -/
def Dev.minPulse (d : Dev) (u : Nat) : Nat := max (d.rdN C.MIN_PULSE u) (d.rdN C.DEAD_TIME u + 1)

/-- Feed-forward correction of an edge to `new` with target code `tgt`: ON for an edge to high or out of idle, OFF for
an edge to low; `tab` the setpoint table (R56). -/
def Dev.ffCorr (d : Dev) (u tab : Nat) (tgt : Int) (on : Bool) : Int :=
  if !bit (d.rdN C.FF_ENABLE u) 0 then 0
  else
    let i := toU 8 (tgt / 2 ^ 24) ^^^ 0x80
    let w := SMap.get 0 (d.ch u).ctl.ff (tab * 256 + i)
    if on then ofTwos 8 (w / 256) else ofTwos 8 w

/-- The oscillation detector at an edge to high that ends the averaging of one switching period (R76, R77). -/
def Dev.oscPeriod (d : Dev) (u t64 : Nat) : Dev :=
  let c := (d.ch u).ctl
  if !d.flag C.OSC_EN u || (c.inj.on && decide (d.rdN C.INJ_POINT u = 0)) || c.oscN = 0 then
    d.modCtl u fun c => { c with oscSum := 0, oscN := 0 }
  else
    let pos := if c.oscSum = 0 then c.oscPos else some (decide (0 < c.oscSum))
    let rise := decide (c.oscPos = some false) && decide (pos = some true)
    let big := decide (d.rd C.OSC_THRESH u * c.oscN < c.oscSum.natAbs)
    let long := decide (8 * 64 * d.clk.fcv < (t64 - c.oscStart) * d.rdN C.FSW_TARGET u)
    let ok := c.oscBig && long
    d.modCtl u fun c =>
      { c with
        oscSum := 0, oscN := 0, oscPos := pos,
        oscStart := if rise then t64 else c.oscStart,
        oscBig := if rise then big else c.oscBig || big,
        oscRun := if rise && decide (0 < c.oscStart) then (if ok then c.oscRun + 1 else 0) else c.oscRun }

/-- Phase error of an edge to high of leaf `u` at `t64`: for a follower of an interleaved hearth, against its position
(R134); with the hearth's IL_SHIFT. -/
def Dev.ilError (d : Dev) (u t64 : Nat) : Option (Rat2 × Nat) :=
  if !d.isMember u then none
  else
    let h := d.topOf u
    match d.leaderOf h with
    | none => none
    | some l =>
      if l = u || !d.flag C.IL_EN h then none
      else
        let act := d.active h
        let ord := l :: act.filter fun x => x != l
        match ((d.ch l).ctl.highs.find? fun x => decide (x ≤ t64)) with
        | none => none
        | some m => some (ilPhi d.clk.fcv (d.rdN C.FSW_TARGET u) (t64 - m) (ord.idxOf u) act.length,
            d.rdN C.IL_SHIFT h)

/-- IL_LOCKED: interleave is on and every follower's phase has kept its window over its last 16 periods (R134). -/
def Dev.ilNow (d : Dev) (h : Nat) : Bool :=
  match d.leaderOf h with
  | none => false
  | some l =>
    let fs := (d.active h).filter fun u => u != l
    d.flag C.IL_EN h && !fs.isEmpty && fs.all fun u =>
      decide (16 ≤ (d.ch u).ctl.ilOk.length) && (d.ch u).ctl.ilOk.all id

/-- IL_LOCKED of the hearth of a leaf brought up to date, reported when it clears (R134, R426). -/
def Dev.ilUpdate (d : Dev) (u : Nat) : Dev :=
  let h := d.topOf u
  let x := d.ilNow h
  if x = (d.he h).ilLocked then d
  else
    let d1 := d.modHe h fun y => { y with ilLocked := x }
    if x then d1 else d1.report 0x141C h 0

/-- The interleave phase of an edge to high of a follower kept in its window (R134). -/
def Dev.ilPeriod (d : Dev) (u : Nat) (il : Option (Rat2 × Nat)) : Dev :=
  match il with
  | none => d
  | some (phi, _) => (d.modCtl u fun c =>
      { c with ilOk := (decide (64 * phi.num.natAbs * d.rdN C.FSW_TARGET u < 64 * d.clk.fcv * phi.den) :: c.ilOk).take 16
      }).ilUpdate u

/-- The band's lock at an edge to high of channel `u` that ends a period of `t64` (R61, R134). -/
def Dev.lockPeriod (d : Dev) (u t64 : Nat) (il : Option (Rat2 × Nat)) : Dev :=
  if !d.flag C.LOCK_EN u then d.modCtl u fun c => { c with locked := false }
  else
    let b := d.bandStep u t64 (il.map Prod.fst) (match il with | some x => x.2 | none => 0)
    let b' := d.bandClamp u b
    d.modCtl u fun c =>
      { c.flagIf fBandSat (decide (b' ≠ b) && !d.bandInverted u) with
        band := b',
        locked := decide (17 ≤ c.highs.length) && (gaps c.highs).all (inWindow d.clk.fcv (d.rdN C.FSW_TARGET u)) }

/-- An edge of channel `u` to high at `t64`: the oscillation detector, the period it ends, and the lock (R61, R76, R134). -/
def Dev.landHigh (d : Dev) (u t64 : Nat) : Dev :=
  let d1 := (d.oscPeriod u t64).modCtl u fun c => { c with highs := (t64 :: c.highs).take 17 }
  match (d.ch u).ctl.highs with
  | [] => d1
  | h :: _ =>
    let il := d1.ilError u t64
    (d1.ilPeriod u il).lockPeriod u (t64 - h) il

/-- The switch state after an edge to the commanded state at `t64`: the outgoing gate falls, nothing is pending (R54, R79). -/
def Ctl.edge (c : Ctl) (t64 : Nat) : Ctl :=
  { c with prior := c.out, out := c.sw, edgeAt := some t64, pend := none,
           stuckV := { c.stuckV with edge := true }, stuckI := { c.stuckI with edge := true } }

/-- An edge of channel `u` to its commanded state at `t64` (R54, R61, R76, R79, R134). -/
def Dev.land (d : Dev) (u t64 : Nat) : Dev :=
  let d1 := d.modCtl u fun c => c.edge t64
  if (d.ch u).ctl.sw = .high then d1.landHigh u t64 else d1

/-- The earliest time, from `t64` on, that the minimum interval `mp` allows an edge (R55). -/
def Ctl.edgeTime (c : Ctl) (mp t64 : Nat) : Nat :=
  match c.edgeAt with
  | none => t64
  | some e => max t64 (e + mp)

/-- The commanded state of channel `u` becomes `new` by an edge with time `t64`: at once within cv n+11, or pending
where the minimum interval defers it to a later cv; a command back to the state before a pending edge cancels that edge
(R55). -/
def Dev.place_ (d : Dev) (u n t64 : Nat) (new : Sw) : Dev :=
  let c := (d.ch u).ctl
  if c.pend.isSome && c.out == new then d.modCtl u fun c => { c with sw := new, pend := none }
  else
    let t := c.edgeTime (d.minPulse u) t64
    let d1 := d.modCtl u fun c => { c.flagIf fPulseClip (decide (t64 < t)) with sw := new }
    if t < 64 * (n + 12) then d1.land u t else d1.modCtl u fun c => { c with pend := some t }

/-- The switch decision with errors `e0`, `e1`, band `b` (R51): none for no edge. -/
def decideSw (sw : Sw) (e0 e1 b : Int) : Option Sw :=
  let hi := sw != .high && (decide (b < e0) || decide (b < e1))
  let lo := sw != .low && (decide (e0 < -b) || decide (e1 < -b))
  if hi && lo then some (if 0 < e0 then .high else .low)
  else if hi then some .high else if lo then some .low else none

/-- The edge code before its clamp: 64 times the predicted crossing, rounded down, and the correction (R51). -/
def edgeCode (new : Sw) (e0 e1 b ff : Int) : Int :=
  let eb := if new = .high then b else -b
  if (new = .high && decide (eb < e0)) || (new = .low && decide (e0 < eb)) || decide (e0 = e1) then ff
  else
    let n := 64 * (e0 - eb)
    let dn := e0 - e1
    (if 0 < dn then n / dn else (-n) / (-dn)) + ff

/-- The linear stage's trim and code (R84). -/
def Dev.linear (d : Dev) (u : Nat) (target e0 : Int) : Dev :=
  let sh := d.rdN C.LIN_SHIFT u
  let t0 := (d.ch u).ctl.trim + e0 * 2 ^ (20 - sh)
  let t := clampI (-(2 ^ 48)) (2 ^ 48) t0
  let x0 := target * 2 ^ 20 + t
  let x := clampI (-(2 ^ 51)) (2 ^ 51 - 2 ^ 20) x0
  d.modCtl u fun c =>
    { c.flagIf fDacSat (decide (t ≠ t0) || decide (x ≠ x0)) with
      trim := t, dac := (524288 + rdiv (524287 * x) (2 ^ 51)).toNat }

/-! ### Missed decisions (R64) -/

/-- A decision of channel `u` missed for `cause`: flag, counts, record and report; a leader has no word for sample `n`
(R64, R66, R127). -/
def Dev.missed (d : Dev) (u n cause : Nat) : Dev :=
  let d1 := ((d.modCtl u fun c =>
    { c.flagIf fCtlMiss true with missRun := c.missRun + 1 }).putBus u n none).bump C.MISS_COUNT u 32 1
  let d2 := ((d1.wr C.LAST_MISS_CAUSE u cause).wr C.LAST_MISS_CAUSE (d.topOf u) cause).report 0x1100 u cause
  if cause = 1 then d2.report 0x1314 u 0 else d2

/-! ### Injection records (R88) -/

/-- The packet in progress closed with the records taken (R87, R88). -/
def Dev.injClose (d : Dev) (u : Nat) : Dev :=
  let i := (d.ch u).ctl.inj
  let q := d.rdN C.INJ_QUEUE u
  let d1 := d.modCtl u fun c => { c with inj := { c.inj with recs := [] } }
  if i.recs = [] || decide (65535 < q) then d1
  else
    let body := (u + i.recs.length * 2 ^ 16) :: time96Words i.first ++ i.recs.flatten
    let n := 1 + body.length
    if d1.canReserve q 0 n then
      let id := ((d1.putGap q).qu q).serial
      (((d1.reserve q 0 n).fillAll q id 1 body).close q id body.length)
    else (d1.reserve q 0 n).modQu q fun x => if x.live then x.lose 1 (if x.fits n then gapQuota else gapFull)
      else { x with dropped := sat32N (x.dropped + 1) }

/-- The status word of an injection record (R88). -/
def recStatus (k : Nat) (limit miss edge : Bool) (sw : Sw) (code : Nat) : Nat :=
  (k % 2 ^ 16) * 2 ^ 16 + 0x400 * b2n limit + 0x200 * b2n miss + 0x100 * b2n edge + 0x40 * sw.code +
    (if edge then code else 0)

/-- One sample of a run gone by: every INJ_DECIM-th recorded, a full packet closed, the run's index and PRBS moved on
(R86–R88). -/
def Dev.injSample (d : Dev) (u n : Nat) (target e0 x0 : Int) (miss edge : Bool) (code : Nat) : Dev :=
  let c := (d.ch u).ctl
  if !d.injLive u then d
  else
    let r := [toU 32 target, toU 32 e0, toU 32 x0, recStatus c.inj.k c.limit.isSome miss edge c.sw code]
    let d1 :=
      if c.inj.skip = 0 then
        let st := d.stamp 2 n
        let d2 := d.modCtl u fun c =>
          { c with inj := { c.inj with recs := c.inj.recs ++ [r], first := if c.inj.recs = [] then st else c.inj.first } }
        if 64 ≤ (d2.ch u).ctl.inj.recs.length then d2.injClose u else d2
      else d
    let per := max 1 (d.rdN C.INJ_PERIOD u)
    let order := d.rdN C.INJ_PRBS u
    let dec := max 1 (d.rdN C.INJ_DECIM u)
    d1.modCtl u fun c =>
      { c with inj := { c.inj with
          k := c.inj.k + 1, skip := (c.inj.skip + 1) % dec,
          prbs := if (c.inj.k + 1) % per = 0 then prbsNext order c.inj.prbs else c.inj.prbs } }

/-- An injection run of unit `u` ended with INJ_STATUS `st`: INJ_MODE 0, packet closed (R87). -/
def Dev.injEnd (d : Dev) (u st : Nat) : Dev :=
  if !(d.ch u).ctl.inj.on then d
  else
    let d1 := ((d.injClose u).modCtl u fun c => { c with inj := {} }).wr C.INJ_MODE u 0
    let d2 := d1.wr C.INJ_STATUS u st
    if st = 3 then d2.report 0x162C u 0 else d2

/-! ### The decision (R49–R71, R84) -/

/-- The injection's unit of a channel: its hearth at the leader for the target, itself otherwise (R133). -/
def Dev.injUnit (d : Dev) (u : Nat) : Nat :=
  if !d.isMember u then u
  else
    let h := d.topOf u
    if d.leaderOf h = some u then h else u

/-- The band in force with the injection into the band added and clamped to 0..BAND_MAX; a hearth's run acts on every
leaf (R87, R133). -/
def Dev.bandInj (d : Dev) (u : Nat) : Int × Bool :=
  let b := d.bandNow u
  let i := d.inject (if d.isMember u then d.topOf u else u) 1
  if i = 0 then (b, d.bandClamped u)
  else
    let y := clampI 0 (d.rd C.BAND_MAX u) (b + i)
    (y, d.bandClamped u || decide (y ≠ b + i))

/-- What a decision is made from: the predictions of V and I with their slopes, the band and whether it was clamped, the
programmed law's errors, those of the law in force with its target, and whether the regulated variable is V (R50, R67). -/
structure Weighed where
  pv : Int × Int × Bool
  pi : Int × Int × Bool
  band : Int
  clamped : Bool
  prog : Int × Int × Bool
  err : Int × Int × Bool
  target : Int
  regV : Bool
  deriving DecidableEq, Repr

/-- The prediction of the limited variable under law `w` (R67). -/
def Weighed.limited (x : Weighed) (w : Law) : Int × Int × Bool := if w.fi then x.pv else x.pi

/-- The predictions and errors of channel `u` in its slot under law `w`; a history not yet full reads as the free value
`fr` (R50, R67, R68). -/
def Dev.weigh (d : Dev) (u : Nat) (w : Law) (fr : Int) : Weighed :=
  let c := (d.ch u).ctl
  let pv := predict fr c.hv
  let pi := predict fr c.hi
  let bb := d.bandInj u
  let reg := if w.fi then pi else pv
  let lim := if w.fi then pv else pi
  let eP := errors w.target reg.1 reg.2.1
  let limT := if c.limit = some false then w.lo else w.hi
  let inLim := c.limit.isSome
  ⟨pv, pi, bb.1, bb.2, eP, if inLim then errors limT lim.1 lim.2.1 else eP, if inLim then limT else w.target, inLim == w.fi⟩

/-- Whether the coefficients of channel `u` stand in a wrong order (R73). -/
def Dev.coefOrder (d : Dev) (u : Nat) : Bool :=
  let h := d.topOf u
  decide (d.rd C.ICP h ≤ d.rd C.ICN h) || decide (d.rd C.VCP h ≤ d.rd C.VCN h) ||
    (decide (d.rd C.STAGE_KIND u = 0) && (decide (d.rd C.BAND_MAX u < d.rd C.BAND_MIN u) ||
      decide (d.rdN C.MIN_PULSE u ≤ d.rdN C.DEAD_TIME u)))

/-- The control state once a decision has been weighed: sticky flags, misses ended, saturation and oscillation counts
(R50, R63, R65, R76, R81). -/
def Ctl.decided (c : Ctl) (w : Law) (x : Weighed) (coef band : Bool) : Ctl :=
  let satNow := (if x.regV then c.satV else c.satI) || x.err.2.2
  { (((((c.flagIf fPredSat (x.pv.2.2 || x.pi.2.2)).flagIf fErrSat (x.prog.2.2 || x.err.2.2)).flagIf fSpSat w.sat).flagIf
      fCoefOrder coef).flagIf fBandSat band) with
    missRun := 0, idled := false, satRun := if satNow then c.satRun + 1 else 0,
    oscSum := c.oscSum + x.err.1, oscN := c.oscN + 1 }

/-- What channel `u` does for sample `n` in its slot: the linear stage's code, or the switch decision and its edge
(R51–R56, R84). -/
def Dev.actOn (d : Dev) (u n : Nat) (x : Weighed) (x0 : Int) : Dev :=
  let iu := d.injUnit u
  if d.rd C.STAGE_KIND u ≠ 0 then (d.linear u x.target x.err.1).injSample iu n x.target x.err.1 x0 false false 0
  else
    match decideSw (d.ch u).ctl.sw x.err.1 x.err.2.1 x.band with
    | none => d.injSample iu n x.target x.err.1 x0 false false 0
    | some new =>
      let rv := (d.ch u).rng x.regV
      let ff := d.ffCorr u (if x.regV then 8 + rv.now else rv.now) x.target (new == .high || (d.ch u).ctl.sw == .idle)
      let k := edgeCode new x.err.1 x.err.2.1 x.band ff
      let kc := (clampI 0 63 k).toNat
      let d1 := d.modCtl u fun c => c.flagIf fEdgeSat (decide (k ≠ (kc : Int)))
      (d1.place_ u n (64 * (n + 11) + kc) new).injSample iu n x.target x.err.1 x0 false true kc

/-- The decision for sample `n` under law `w` (R50–R56, R67–R70, R84). -/
def Dev.decision (d : Dev) (u n : Nat) (w : Law) : Dev :=
  let c := (d.ch u).ctl
  let fr : Int := ofTwos 32 (d.freeBits 32)
  let x := d.weigh u w fr
  let coef := d.coefOrder u
  let d0 := if c.hv.length < 4 || decide (c.hi.length < 4) then d.drawn else d
  let d1 := d0.modCtl u fun c => c.decided w x coef (decide (d.rd C.STAGE_KIND u = 0) && x.clamped)
  let d2 := if coef && !bit c.sticky fCoefOrder then d1.report 0x1107 u 0 else d1
  let x0 := (if x.regV then c.hv else c.hi).getD 0 fr
  let next := nextLimit c.limit w.hi w.lo (x.limited w).2.1 x.prog.1
    (d.rd C.RETURN_MARGIN (if d.isMember u then d.topOf u else u)) x.band
  if next ≠ c.limit then (d2.handOver u c.limit next).injSample (d.injUnit u) n x.target x.err.1 x0 false false 0
  else d2.actOn u n x x0

/-- Gate levels of channel `u` at converter tick `now`, GH then GL: the gate of the state taken is on once DEAD_TIME has
passed since an edge that had an outgoing gate (R54, R84). -/
def Dev.gates (d : Dev) (u : Nat) : Bool × Bool :=
  let c := (d.ch u).ctl
  if d.rd C.STAGE_KIND u ≠ 0 then (false, false)
  else
    let on := match c.edgeAt with
      | none => true
      | some e => c.prior == .idle || decide (e + d.rdN C.DEAD_TIME u ≤ 64 * d.clk.tick)
    (c.out == .high && on, c.out == .low && on)

/-- The outputs of a channel in every state but Source and Hold: gates low, zero-force code, and what the idle state
restarts (R37, R44, R61). -/
def Ctl.rest (c : Ctl) : Ctl :=
  { c with
    sw := .idle, out := .idle, prior := .idle, pend := none, dac := 524288, highs := [], locked := false,
    ilOk := [], limit := none, missRun := 0, idled := false, satRun := 0, oscSum := 0, oscN := 0, oscPos := none, oscStart := 0,
    oscBig := false, oscRun := 0, kelN := 0, kelSum := 0, kelHalf := none, kelBad := 0, kelRev := false,
    stuckV := { c.stuckV with run := 0, edge := false }, stuckI := { c.stuckI with run := 0, edge := false } }

/-- CTL_FLAGS of a physical channel: live status above, sticky flags below (R63). -/
def Dev.ctlFlags (d : Dev) (u : Nat) : Nat :=
  let c := (d.ch u).ctl
  c.sticky + 0x10000 * b2n c.limit.isSome + 0x20000 * b2n (c.limit == some false) + 0x40000 * c.sw.code +
    0x100000 * b2n (c.locked && d.flag C.LOCK_EN u) + 0x200000 * b2n c.inj.on + 0x400000 * b2n (decide (0 < c.oscRun))

end Sys2Proof.Machine
end

