-- ==== Sys2Proof/Machine/MeasOps.lean ====
section
/-! DEFINITION. Correction, apertures, accumulators and the counts of autorange (R95, R135–R154). -/

namespace Sys2Proof.Machine

open Sys2Proof

/-! ### Converters and correction -/

/-- The physical converter `c` of stove `k` (R163, R164). -/
def Dev.conv (d : Dev) (k c : Nat) : Conv := SMap.get (Conv.initial c) (d.st k).conv c

/-- Converter `c` of stove `k` changed by `f`. -/
def Dev.modConv (d : Dev) (k c : Nat) (f : Conv → Conv) : Dev :=
  let v := f (d.conv k c)
  d.modSt k fun s => { s with conv := SMap.ins s.conv c v }

/-- The converter that holds role `r` of stove `k` (R164). -/
def Dev.holder (d : Dev) (k r : Nat) : Nat :=
  ((List.range 34).find? fun c => (d.conv k c).role == r).getD r

/-- The role of one variable of a physical channel (R164). -/
def roleOf (u : Nat) (volt : Bool) : Nat := 2 * posOf u + (if volt then 0 else 1)

/-- Place of a range's factors: current ranges 0–7, voltage ranges 8–11 (R395). -/
def factKey (volt : Bool) (j : Nat) : Nat := if volt then 8 + j else j

/-- The path factors of a range of a channel for a sample of edge `n` (R395, R402). -/
def Dev.factor (d : Dev) (u : Nat) (volt : Bool) (j n : Nat) : Factors :=
  let m := (d.ch u).meas
  SMap.get {} (if n < m.factFrom then m.factOld else m.fact) (factKey volt j)

/-- m of R139 in units of 2^-61 of the pin full scale. -/
def matchTrim (c : Conv) (code : Int) : Int := (code * 65536 - c.matchOfs) * c.matchGain

/-- y of R139 in Q2.31, rounded to nearest (R394). -/
def correct (c : Conv) (f : Factors) (code : Int) : Int :=
  let u := matchTrim c code - f.o * 2 ^ 30
  rdiv (f.g * u * 2 ^ 62 + f.k2 * u * u) (2 ^ 122)

/-- Whether a raw code is a code limit (R135). -/
def codeLimit (c : Int) : Bool := c == -32768 || c == 32767

/-- The range a sample of edge `n` is corrected with (R105). -/
def Rng.at (r : Rng) (n : Nat) : Nat := if n < r.newFrom then r.prev else r.now

/-- Whether the channel's converters deliver samples: domains on, not Calibrating, not settling, the converter
PLL not relocking (R137, R138, R461). -/
def Dev.delivers (d : Dev) (u : Nat) : Bool :=
  let c := d.ch u
  d.pdOn u && d.pdOn (256 + stoveOf u) && c.ctl.st != .calibrating && d.pwr.relock.isNone &&
    (match c.meas.settle with | none => true | some t => decide (t ≤ d.clk.tick))

/-- The edge of the sample that reaches the correction stage now (R49, R138). -/
def Dev.edgeNow (d : Dev) (u : Nat) : Nat := d.clk.tick - (if d.flag C.LP_MODE u then 37 else 10)

/-! ### Apertures -/

/-- Bits of MFLAGS (R144). -/
def mTest : Nat := 8
/-- NO_LINE. -/
def mNoLine : Nat := 7
/-- RANGE_CUT. -/
def mCut : Nat := 6
/-- SWAP. -/
def mSwap : Nat := 5
/-- SUBST. -/
def mSubst : Nat := 4
/-- OVER. -/
def mOver : Nat := 3
/-- SAT. -/
def mSat : Nat := 2

/-- Samples an aperture of AP_LENGTH `len` cv holds (R145, R147). -/
def apSamples (len : Nat) (lp : Bool) : Nat :=
  let n := if len = 0 then 2 ^ 32 else len
  if lp then (n + 3) / 4 else n

/-- A new aperture whose first sample is edge `n` (R145, R146). -/
def Dev.newAp (d : Dev) (u n : Nat) (o : ApOwner) (mode len : Nat) : Ap :=
  { owner := o, edge0 := n, start := d.stamp (d.rdN C.AP_TB u) n, mode := mode, len := len,
    lineDue := d.clk.tick + d.rdN C.LINE_TIMEOUT u }

/-- The length field of the free-running aperture that starts now: samples, or line cycles (R145, R147). -/
def Dev.freeLen (d : Dev) (u : Nat) : Nat :=
  if d.rdN C.AP_MODE u = 1 then d.rdN C.LINE_CYCLES u else apSamples (d.rdN C.AP_LENGTH u) (d.flag C.LP_MODE u)

/-- Whether an aperture has all its samples (R146, R147). -/
def Ap.full (a : Ap) : Bool :=
  a.ended || (if a.mode = 1 then decide (2 ^ 32 ≤ a.n) else decide (a.len ≤ a.n))

/-- One sample added to an aperture (R149). -/
def Ap.add (a : Ap) (yV yI cV cI : Int) (fV fI : Nat) : Ap :=
  { a with
    n := a.n + 1, sumV := a.sumV + yV, sumI := a.sumI + yI, rawV := a.rawV + cV, rawI := a.rawI + cI,
    flagV := a.flagV ||| fV, flagI := a.flagI ||| fI }

/-- Whether a channel's integrator runs in its state (R146). -/
def ChState.integrates : ChState → Bool
  | .monitor => true
  | .source => true
  | .hold => true
  | .fenced => true
  | _ => false

/-- VALUE: the mean of `sum` over `n` samples in Q2.31 times the full scale, as F32 bits (R149). -/
def meanF32 (sum : Int) (n : Nat) (fs : Rat2) : Int :=
  ((Rat2.ofInt (rdiv sum (max 1 n))).mul ⟨fs.num, fs.den * 2 ^ 31⟩).f32

/-- One variable's results of a completed aperture published (R142, R144, R149). -/
def Dev.publishVar (d : Dev) (u : Nat) (volt : Bool) (a : Ap) : Dev :=
  let o := fun (v i : Obj) => if volt then v else i
  let sum := if volt then a.sumV else a.sumI
  let raw := if volt then a.rawV else a.rawI
  let fl := if volt then a.flagV else a.flagI
  let fs := d.fs u volt (((d.ch u).rng volt).at a.edge0)
  let d1 := (d.wr (o C.V_VALUE C.I_VALUE) u (meanF32 sum a.n fs)).wr (o C.V_RAW_MEAN C.I_RAW_MEAN) u
    (if u < 256 then rdiv (raw * 65536) (max 1 a.n) else 0)
  let d2 := ((d1.wr (o C.V_MFLAGS C.I_MFLAGS) u (fl ||| 1 : Nat)).wrap (o C.V_SEQNO C.I_SEQNO) u 32 1).wr
    (o C.V_START C.I_START) u a.start
  d2.wr (o C.V_COUNT C.I_COUNT) u (a.n % 2 ^ 32 : Nat)

/-- Pending path factors of one physical channel put in force from edge `n` on (R402). -/
def Dev.applyFactors (d : Dev) (u n : Nat) : Dev :=
  match (d.ch u).meas.pend with
  | none => d
  | some f =>
    (d.modMeas u fun m => { m with fact := f, pend := none, factOld := m.fact, factFrom := n }).wr C.T_APPLIED u
      (d.ch u).meas.pendT

/-- A boundary of unit `u`: pending factors of the channel, or of every leaf of a hearth together, in force from edge
`n` on; a leaf takes its boundaries from its hearth (R402, R403). -/
def Dev.boundary (d : Dev) (u n : Nat) : Dev :=
  if d.isMember u then d else (d.leaves u).foldl (fun e l => e.applyFactors l n) d

/-- A published aperture put away; `run` where the free-running aperture is on (R146, R148). -/
def Meas.putAway (m : Meas) (a : Ap) (run : Bool) : Meas :=
  let m1 := { m with ap := none, freeNext := run }
  if a.owner ≠ .step then m1
  else match m.again with
    | some len => { m1 with again := none, stepFirst := some a, stepNext := some (0, len, 0), freeNext := false }
    | none => { m1 with stepRes := some a }

/-- A completed aperture published and put away; the free-running aperture that follows starts at the next sample, which
is a boundary (R141, R146, R148, R149, R402). -/
def Dev.publish (d : Dev) (u : Nat) (a : Ap) : Dev :=
  let d1 := (d.publishVar u true a).publishVar u false a
  let d2 := d1.modMeas u fun m => m.putAway a (d1.flag C.AP_RUN u)
  if d2.flag C.AP_RUN u then d2.boundary u ((d2.ch u).meas.edge + 1) else d2

/-- The free-running aperture abandoned unpublished (R148). -/
def Dev.abandon (d : Dev) (u : Nat) : Dev :=
  match (d.ch u).meas.ap with
  | none => d
  | some _ => (d.modMeas u fun m => { m with ap := none }).bump C.ABANDONED u 32 1

/-- A step's or point's aperture requested from the sample of edge `n` on: the free-running one is abandoned; a wait for a
line event counts from here (R147, R148, R209). -/
def Dev.stepAperture (d : Dev) (u mode len n : Nat) : Dev :=
  let d1 := match (d.ch u).meas.ap with
    | some a => if a.owner = ApOwner.free then d.abandon u else d
    | none => d
  d1.modMeas u fun m =>
    { m with stepNext := some (mode, len, n), freeNext := false, stepRes := none, lineSeen := false,
             lineWait := if mode = 1 then some d.clk.tick else none }

/-- Whether apertures of the channel wait for a held range change's transfer (R96). -/
def Rng.holdsAperture (r : Rng) : Bool :=
  match r.ph with
  | .pending _ => true
  | .making _ => true
  | _ => false

/-- Whether an aperture may start with the sample of edge `n`: with RANGE_LOCK, not while a change awaits its MAKE
latch, and then with a new-range sample (R96). -/
def Dev.apMayStart (d : Dev) (u n : Nat) : Bool :=
  let c := d.ch u
  !d.flag C.RANGE_LOCK u || (!c.rngI.holdsAperture && !c.rngV.holdsAperture && decide (c.rngI.newFrom ≤ n) &&
    decide (c.rngV.newFrom ≤ n))

/-- The aperture that starts with the sample of edge `n`, if one does (R146, R147, R148). -/
def Dev.startAp (d : Dev) (u n : Nat) : Dev :=
  let m := (d.ch u).meas
  if m.ap.isSome || !(d.ch u).ctl.st.integrates || !d.apMayStart u n then d
  else
    match m.stepNext with
    | some (mode, len, from_) =>
      if n < from_ || (mode = 1 && !m.lineSeen) then d
      else
        let a := d.newAp u n .step mode len
        d.modMeas u fun m => { m with ap := some a, stepNext := none, lineSeen := false, lineWait := none }
    | none =>
      if !m.freeNext || n < m.freeFrom then d
      else
        let mode := d.rdN C.AP_MODE u
        if mode = 1 && !m.lineSeen then d
        else
          let a := d.newAp u n .free mode (d.freeLen u)
          d.modMeas u fun m => { m with ap := some a, freeNext := false, lineSeen := false, lineWait := none }

/-- A sample of edge `n` taken into the integrator: an aperture cut by a range change is closed before it, a complete one
is published before it, and the sample joins the aperture that runs or starts (R146–R149). -/
def Dev.integrate (d : Dev) (u n : Nat) (yV yI cV cI : Int) (fV fI : Nat) : Dev :=
  if !(d.ch u).ctl.st.integrates then d
  else
    let c := d.ch u
    let cut := fun (a : Ap) => (decide (a.edge0 < c.rngI.newFrom) && decide (c.rngI.newFrom ≤ n)) ||
      (decide (a.edge0 < c.rngV.newFrom) && decide (c.rngV.newFrom ≤ n))
    let d1 := match c.meas.ap with
      | none => d
      | some a =>
        if a.full then d.publish u a
        else if cut a && decide (0 < a.n) then
          d.publish u { a with flagV := a.flagV ||| 2 ^ mCut, flagI := a.flagI ||| 2 ^ mCut }
        else d
    let d2 := d1.startAp u n
    d2.modMeas u fun m => { m with ap := m.ap.map fun a =>
    if n < a.edge0 then a else { a.add yV yI cV cI fV fI with accQ := m.q.val, accE := m.e.val } }

/-! ### Accumulators (R152–R154) -/

/-- Increment of a sample: charge in 2^-64 A·s, energy in 2^-60 J (R153). -/
def accInc (energy : Bool) (yV yI : Int) (fsV fsI : Rat2) (mul fcv : Nat) : Int :=
  if energy then odiv 153 (yV * yI * fsV.num * fsI.num * 2 ^ 60 * mul) (2 ^ 62 * fsV.den * fsI.den * fcv)
  else odiv 152 (yI * fsI.num * 2 ^ 64 * mul) (2 ^ 31 * fsI.den * fcv)

/-- One increment added to a running accumulator, saturating at 96 bits (R154). -/
def Accu.add (a : Accu) (inc : Int) : Accu :=
  let v := a.val + inc
  let c := clampI (-(2 ^ 95)) (2 ^ 95 - 1) v
  { a with val := c, sat := a.sat || decide (c ≠ v), inc := inc }

/-- One ACC_CMD carried out: 1 run, 2 stop, 3 clear, 4 clear and run (R152, R154). -/
def Accu.command (a : Accu) (c : Nat × Nat × Nat) : Accu :=
  let clear := { a with val := 0, sat := false, miss := false, since := c.2.2, held := 0 }
  match c.2.1 with
  | 1 => { a with run := true }
  | 2 => { a with run := false }
  | 3 => clear
  | _ => { clear with run := true }

/-- The commands whose sample edge is `n` or earlier carried out (R154). -/
def Accu.upTo (a : Accu) (n : Nat) : Accu :=
  (a.cmds.filter fun c => decide (c.1 ≤ n)).foldl Accu.command
    { a with cmds := a.cmds.filter fun c => !decide (c.1 ≤ n) }

/-- A sample gone by in one accumulator: its increment, the previous one again at a swap, or missing (R153, R154). -/
def Accu.sample (a : Accu) (runs swap : Bool) (inc : Int) : Accu :=
  if !a.run then a
  else if !runs then { a with miss := true }
  else if swap then { a.add a.inc with held := (a.held + 1) % 2 ^ 32 }
  else a.add inc

/-- The accumulators of channel `u` for one sample of edge `n` (R153, R154, R426 ACC_SAT). -/
def Dev.accumulate (d : Dev) (u n : Nat) (yV yI : Int) (fsV fsI : Rat2) (swap : Bool) : Dev :=
  let m := (d.ch u).meas
  let runs := (d.ch u).ctl.st.integrates
  let mul := if d.flag C.LP_MODE u then 4 else 1
  let q := (m.q.upTo n).sample runs swap (accInc false yV yI fsV fsI mul d.clk.fcv)
  let e := (m.e.upTo n).sample runs swap (accInc true yV yI fsV fsI mul d.clk.fcv)
  let d1 := d.modMeas u fun m => { m with q := q, e := e }
  let d2 := if q.sat && !m.q.sat then d1.report 0x120E u 0 else d1
  if e.sat && !m.e.sat then d2.report 0x120E u 1 else d2

/-- The accumulator of CHARGE or ENERGY as it stands now: where no samples are added, a command is carried out when its
edge has come (R154). -/
def Dev.accu (d : Dev) (u : Nat) (energy : Bool) : Accu :=
  let m := (d.ch u).meas
  (if energy then m.e else m.q).upTo (if (d.ch u).ctl.st.integrates then m.edge else d.clk.tick)

/-- The accumulators marked as missing samples if they run: Off, Calibrating or settling (R154). -/
def Meas.missing (m : Meas) : Meas :=
  { m with q := { m.q with miss := m.q.miss || m.q.run }, e := { m.e with miss := m.e.miss || m.e.run } }

/-! ### Counts of autorange (R95) -/

/-- One sample of reading `y` counted by the autorange of one variable: `lim` at a code limit. -/
def Rng.count (r : Rng) (y up down : Int) (lim : Bool) (tick : Nat) : Rng :=
  let above := lim || decide (up < y.natAbs)
  let under := !lim && decide ((y.natAbs : Int) < down)
  { r with
    up := if above then r.up + 1 else 0,
    overTop := r.overTop && above,
    below := if under then (match r.below with | some t => some t | none => some tick) else none }

/-- Whether autorange of one variable runs for unit `u` (R95, R118, R122). -/
def Dev.arRuns (d : Dev) (u : Nat) (volt : Bool) : Bool :=
  let s := (d.ch u).ctl.st
  d.flag (if volt then C.AR_V else C.AR_I) u && !d.isMember u && (s == .monitor || s == .source || s == .hold)

/-- Both variables' autorange counts for one sample (R95). -/
def Dev.arCount (d : Dev) (u : Nat) (yV yI : Int) (limV limI : Bool) : Dev :=
  let f := fun (e : Dev) (volt : Bool) (y : Int) (lim : Bool) =>
    if e.arRuns u volt then e.modRng u volt fun r => r.count y (e.rd C.AR_UP u) (e.rd C.AR_DOWN u) lim e.clk.tick
    else e.modRng u volt fun r => { r with up := 0, below := none, overTop := false }
  f (f d true yV limV) false yI limI

/-! ### Supervision of the sample (R79, R80) -/

/-- One code watched (R79). -/
def Stuck.see (s : Stuck) (c : Int) : Stuck :=
  if c = s.last then { s with run := s.run + 1 } else ⟨c, 1, false⟩

/-- The detectors that watch the samples of a regulating channel (R79, R80, R82). -/
def Ctl.watch (c : Ctl) (cV cI y1V : Int) (kelvin : Bool) : Ctl :=
  if !c.regulating then c
  else
    let c1 := { c with stuckV := c.stuckV.see cV, stuckI := c.stuckI.see cI }
    if kelvin && decide (c.kelN < 8192) then { c1 with kelN := c.kelN + 1, kelSum := c.kelSum + y1V } else c1

end Sys2Proof.Machine
end

