-- ==== Sys2Proof/Machine/RangeOps.lean ====
section
/-! DEFINITION. Range requests, patterns, transfers and the MAKE latch (R89–R108, R122). -/

namespace Sys2Proof.Machine

open Sys2Proof

/-- The object of the requested range, I_RANGE or V_RANGE (R89). -/
def oRange (volt : Bool) : Obj := if volt then C.V_RANGE else C.I_RANGE

/-- Ranges present of one variable: of a channel, or those present in every leaf of a hearth (R90, R122). -/
def Dev.ranges (d : Dev) (u : Nat) (volt : Bool) : Nat :=
  let n := fun v => if volt then d.rdN C.V_RANGES v else d.rdN C.I_RANGES v
  if u < 256 then n u
  else match d.leaves u with
    | [] => 0
    | l :: ls => ls.foldl (fun a v => min a (n v)) (n l)

/-- Whether LINK_FAULT is set in a unit: in its stove, or in any active leaf of a hearth (R89, R122). -/
def Dev.linkFault (d : Dev) (u : Nat) : Bool := (d.active u).any fun l => (d.st (stoveOf l)).link.fault

/-- Whether a change is at a point where a new request has to wait for its BREAK (R106). -/
def RngPhase.busy : RngPhase → Bool
  | .making _ => true
  | .made _ _ => true
  | .breakDue _ => true
  | .breaking _ => true
  | _ => false

/-- A change of one variable asked for: started, held during a running change, or, for the range in force, cancelled
while pending (R93, R104, R106). -/
def Rng.ask (r : Rng) (j : Nat) : Rng :=
  if r.ph.busy then { r with held := some j, deferred := none }
  else if j = r.now then { r with ph := .steady, deferred := none }
  else { r with ph := .pending j, deferred := none }

/-- A change held back (R96, R97); `up` where an autorange up-request made it. -/
def Rng.defer (r : Rng) (j : Nat) (up : Bool) : Rng := { r with deferred := some (j, up) }

/-- Whether a measurement aperture of the unit is open. -/
def Dev.apOpen (d : Dev) (u : Nat) : Bool := (d.ch u).meas.ap.isSome

/-- Whether autorange of the unit is frozen (R307). -/
def Dev.frozen (d : Dev) (u : Nat) : Bool := (d.ch u).freeze.isSome

/-- Whether a request for a unit's range is held back: by range lock inside an aperture, and for autorange by a running
sweep and by a freeze (R96, R97, R307). -/
def Dev.heldBack (d : Dev) (u : Nat) (auto_ : Bool) : Bool :=
  (d.flag C.RANGE_LOCK u && d.apOpen u) || (auto_ && ((d.sq u).sweep.isSome || d.frozen u))

/-- A change of one variable requested of a physical channel (R93, R95, R96, R104). -/
def Dev.rngAsk (d : Dev) (u : Nat) (volt : Bool) (j : Nat) (auto_ up : Bool) : Dev :=
  let d1 := d.wr (oRange volt) u j
  let r := (d.ch u).rng volt
  if j ≠ r.now && !r.ph.busy && d.heldBack u auto_ then d1.modRng u volt fun r => r.defer j up
  else d1.modRng u volt fun r => r.ask j

/-- A change requested of a unit: of every active leaf in the case of a hearth (R122). -/
def Dev.rangeAsk (d : Dev) (u : Nat) (volt : Bool) (j : Nat) (auto_ up : Bool) : Dev :=
  if u < 256 then d.rngAsk u volt j auto_ up
  else if j ≠ ((d.ch u).rng volt).now && d.heldBack u auto_ then
    (d.wr (oRange volt) u j).modRng u volt fun r => r.defer j up
  else
    ((d.active u).foldl (fun e l => e.rngAsk l volt j false false) (d.wr (oRange volt) u j)).modRng u volt fun r => r.ask j

/-- A held-back change of one variable released, if nothing holds it any more: an up-request only if its condition still
holds (R96, R97, R307). -/
def Dev.releaseVar (d : Dev) (u : Nat) (volt : Bool) : Dev :=
  let r := (d.ch u).rng volt
  match r.deferred with
  | none => d
  | some (j, up) =>
    if up && decide (r.up = 0) then d.modRng u volt fun r => { r with deferred := none }
    else if d.heldBack u up then d
    else (d.modRng u volt fun r => { r with deferred := none }).rangeAsk u volt j false false

/-- Held-back changes of a unit released (R96, R97, R307). -/
def Dev.releaseHeld (d : Dev) (u : Nat) : Dev := (d.releaseVar u true).releaseVar u false

/-- An aperture that is complete published, and the changes it held back released (R96, R149). -/
def Dev.endAperture (d : Dev) (u : Nat) : Dev :=
  match (d.ch u).meas.ap with
  | none => d
  | some a => (d.publish u a).releaseHeld u

/-! ### Patterns and transfers -/

/-- Drive pattern of range `j` of one variable of a channel (R90). -/
def Dev.pattern (d : Dev) (u : Nat) (volt : Bool) (j : Nat) : Nat :=
  if volt then d.rdiN C.PATTERN_V u j else d.rdiN C.PATTERN_I u j

/-- The pattern of one variable that a transfer carries in its phase (R104); INIT carries the range in force (R102). -/
def Dev.varPattern (d : Dev) (u : Nat) (volt init : Bool) : Nat :=
  let r := (d.ch u).rng volt
  let p := d.pattern u volt
  if init then p r.now
  else match r.ph with
    | .making j => p r.now ||| p j
    | .made old _ => p old ||| p r.now
    | .breakDue old => p old ||| p r.now
    | _ => p r.now

/-- The 8 bits of a channel in a transfer (R92). -/
def Dev.chPattern (d : Dev) (u : Nat) (init : Bool) : Nat := d.varPattern u false init ||| d.varPattern u true init

/-- The patterns of the 16 positions of stove `k`. -/
def Dev.stovePatterns (d : Dev) (k : Nat) (init : Bool) : List Nat :=
  (List.range 16).map fun p => d.chPattern (16 * k + p) init

/-- A frame as a number: bit b of position p in stage 8p + b + 1 (R98). -/
def frameBits (ps : List Nat) : Nat := ps.foldr (fun p a => p % 256 + 256 * a) 0

/-- The lowest stage, from 1, at which two frames differ; 0 if none. -/
def firstBadBit (a b : Nat) : Nat :=
  match firstFrom (fun i => bit a i != bit b i) 0 128 with
  | some i => i + 1
  | none => 0

/-- Phase of a variable when a transfer starts (R104). -/
def Rng.join (r : Rng) : Rng :=
  match r.ph with
  | .pending j => { r with ph := .making j }
  | .breakDue old => { r with ph := .breaking old }
  | _ => r

/-- The variables of the channels of stove `k` changed by `f`. -/
def Dev.eachRng (d : Dev) (k : Nat) (f : Rng → Rng) : Dev :=
  (List.range 16).foldl (fun e p => (e.modRng (16 * k + p) false f).modRng (16 * k + p) true f) d

/-- A transfer of stove `k` started: every change at its point joins, unless it is INIT (R102, R104, R106). -/
def Dev.startTransfer (d : Dev) (k : Nat) (init : Bool) : Dev :=
  let d1 := if init then d else d.eachRng k Rng.join
  let ps := d1.stovePatterns k init
  d1.modSt k fun s => { s with link := { s.link with xfer := some { pats := ps, again := false, init := init, due := d1.clk.cc + 10240 }, initDue := false } }

/-- Whether a change of some channel of stove `k` waits for a transfer (R104). -/
def Dev.wantsTransfer (d : Dev) (k : Nat) : Bool :=
  let w := fun (r : Rng) => match r.ph with | .pending _ => true | .breakDue _ => true | _ => false
  (List.range 16).any fun p => let c := d.ch (16 * k + p); w c.rngI || w c.rngV

/-- Whether the range link of stove `k` may make transfers: logic domain on, no lasting fault, and no loopback test
that holds the chain (R99, R102, R502). -/
def Dev.linkUp (d : Dev) (k : Nat) : Bool := d.pdOn (256 + k) && !(d.st k).link.fault && !d.ftLink k

/-- A transfer cut off before its latch, because the domain goes off or a reset stops the link (R107). -/
def Rng.cutOff (r : Rng) : Rng :=
  match r.ph with
  | .pending _ => { r with ph := .steady, held := none, deferred := none }
  | .making _ => { r with ph := .steady, held := none, deferred := none }
  | .made _ _ => { r with ph := .steady, held := none, deferred := none, both := true }
  | .breakDue _ => { r with ph := .steady, held := none, deferred := none, both := true }
  | .breaking _ => { r with ph := .steady, held := none, deferred := none, both := true }
  | .steady => { r with held := none, deferred := none }

/-- The range link of stove `k` stopped (R107). -/
def Dev.stopLink (d : Dev) (k : Nat) : Dev :=
  (d.eachRng k Rng.cutOff).modSt k fun s => { s with link := { s.link with xfer := none, initDue := false } }

/-! ### The MAKE latch -/

/-- An I32 object rescaled between full scales, and whether it saturates (R47). -/
def Dev.rescaleObj (d : Dev) (u : Nat) (o : Obj) (a b : Rat2) : Dev × Bool :=
  let y := rescale (d.rd o u) a b
  (d.wr o u (sat32 y), out32 y)

/-- Target and limits of one variable of unit `u` rescaled, SP_SAT where a value saturates (R47, R426 RESCALE_SAT); not
at the change that restores the ranges saved by a calibration run, whose restored values are codes of those ranges
(R414). -/
def Dev.rescaleUnit (d : Dev) (u : Nat) (volt : Bool) (a b : Rat2) : Dev :=
  if d.crRest.contains u then d else
  let mine := decide (d.rd C.MODE u = 1) != volt
  let r1 := d.rescaleObj u (if volt then C.VCP else C.ICP) a b
  let r2 := r1.1.rescaleObj u (if volt then C.VCN else C.ICN) a b
  let t := rescale (r2.1.ch u).ctl.tgt a b
  let r3 := if mine then r2.1.rescaleObj u C.SETPOINT a b else (r2.1, false)
  let d1 := if mine then r3.1.modCtl u fun c => { c with tgt := sat32 t } else r3.1
  if r1.2 || r2.2 || r3.2 || (mine && out32 t) then
    (d1.modCtl u fun c => c.flagIf fSpSat true).report 0x1313 u 0
  else d1

/-- Whether rescaling to range `j` would saturate the target or a limit of one variable (R95). -/
def Dev.wouldSaturate (d : Dev) (u : Nat) (volt : Bool) (j : Nat) : Bool :=
  let a := d.fsNow u volt
  let b := d.fs u volt j
  let bad := fun (x : Int) => out32 (rescale x a b)
  let mine := decide (d.rd C.MODE u = 1) != volt
  bad (d.rd (if volt then C.VCP else C.ICP) u) || bad (d.rd (if volt then C.VCN else C.ICN) u) ||
  (mine && (bad (d.ch u).ctl.tgt || bad (d.rd C.SETPOINT u)))

/-- Prediction history of one variable rescaled (R105). -/
def Ctl.rescaleHist (c : Ctl) (volt : Bool) (a b : Rat2) : Ctl :=
  let f := fun (x : Int) => sat32 (rescale x a b)
  if volt then { c with hv := c.hv.map f } else { c with hi := c.hi.map f }

/-- The lock-in's window abandoned and its settle count begun again (R158). -/
def LockIn.restart (l : LockIn) : LockIn :=
  { l with ph := if l.ph = .idle then .idle else .waitTurn, n := 0, vr := 0, vi := 0, ir := 0, ii := 0, left := 0, valid := false, weak := false }

/-- Range `j` in force in a unit: full scale, target and limits, histories, lock-in (R47, R105, R158). -/
def Dev.takeRange (d : Dev) (u : Nat) (volt : Bool) (j : Nat) : Dev :=
  let a := d.fsNow u volt
  let b := d.fs u volt j
  let d1 := d.modRng u volt fun r =>
    { r with now := j, prev := r.now, newFrom := d.clk.tick + 1, up := 0, below := none, overTop := false }
  let d2 := (d1.rescaleUnit u volt a b).modCtl u fun c => c.rescaleHist volt a b
  d2.modMeas u fun m => { m with li := m.li.restart, lineSeen := m.lineSeen && !d.flag C.RANGE_LOCK u }

/-- The MAKE latch of one variable of a physical channel: Made, new scale, range-change event; pending factors take
effect at this boundary (R104, R105, R402). -/
def Dev.makeLatch (d : Dev) (u : Nat) (volt : Bool) : Dev :=
  match ((d.ch u).rng volt).ph with
  | .making j =>
    let old := ((d.ch u).rng volt).now
    let d1 := (d.takeRange u volt j).modRng u volt fun r => { r with ph := .made old d.clk.tick }
    (d1.raise (srcCh u 2)).boundary u (d.clk.tick + 1)
  | _ => d

/-- A hearth's range of one variable follows its leader's (R122, R123). -/
def Dev.followVar (d : Dev) (h : Nat) (volt : Bool) : Dev :=
  match d.leaderOf h with
  | some l =>
    let j := ((d.ch l).rng volt).now
    let d1 := if j = ((d.ch h).rng volt).now then d else d.takeRange h volt j
    match ((d.ch h).rng volt).ph with
    | .pending i => if i = j then d1.modRng h volt fun r => { r with ph := .steady } else d1
    | _ => d1
  | none => d

/-- The hearths within hearth `h` whose leader has latched a change follow it (R122). -/
def Dev.followMade (d : Dev) (made : List Nat) (h : Nat) : Dev :=
  ((d.hearthsIn h).filter fun g => match d.leaderOf g with | some l => made.contains l | none => false).foldl
    (fun e g => (e.followVar g true).followVar g false) d

/-- Both ranges of a hearth and of the hearths within it follow their leaders'; a physical channel stands as it is. -/
def Dev.followLeader (d : Dev) (h : Nat) : Dev :=
  (d.hearthsIn h).foldl (fun e g => (e.followVar g true).followVar g false) d

/-- The BREAK latch of one variable: Steady; a held request starts a new change (R104, R106). -/
def Rng.breakLatch (r : Rng) : Rng :=
  match r.ph with
  | .breaking _ =>
    let r1 := { r with ph := .steady, both := false, up := 0, below := none, held := none }
    match r.held with
    | some j => if j = r.now then r1 else { r1 with ph := .pending j }
    | none => r1
  | _ => r

/-- RANGE_STATUS of a unit (R89, R122). -/
def Dev.rangeStatus (d : Dev) (u : Nat) : Nat :=
  let c := d.ch u
  let p := fun (r : Rng) => match r.ph with | .pending _ => true | .making _ => true | _ => false
  let g := fun (r : Rng) => match r.ph with | .made _ _ => true | .breakDue _ => true | .breaking _ => true | _ => false
  let any := fun (f : Chan → Bool) => if u < 256 then f c else (d.active u).any fun l => f (d.ch l)
  2 * b2n (c.rngI.overTop || c.rngV.overTop) + 4 * b2n (any fun c => g c.rngI) + 8 * b2n (any fun c => p c.rngI) +
    16 * b2n (any fun c => g c.rngV) + 32 * b2n (any fun c => p c.rngV) +
    64 * b2n (c.rngI.deferred.isSome || c.rngV.deferred.isSome) + 128 * b2n (d.linkFault u)

end Sys2Proof.Machine
end

