-- ==== Sys2Proof/Machine/SeqOps.lean ====
section
/-! DEFINITION. The sequence engine's shared operations (R187–R221): addresses, the target the engine gives, pausing and
stopping, errors, events, records. -/

namespace Sys2Proof.Machine

open Sys2Proof

/-! ### Waveform memory and addresses -/

/-- Word `i` of segment `g` (R187). -/
def segWord (m : Mem) (g i : Nat) : Nat := Mem.word 0 m (4096 * g + 4 * i)

/-- The 8 words of the step at program address `a`, or of point `a % 128` of list segment `a / 128` (R187, R188). -/
def stepWords (m : Mem) (a : Nat) : List Nat := (List.range 8).map fun i => Mem.word 0 m (32 * a + 4 * i)

/-- Word `i` of a step. -/
def wd (ws : List Nat) (i : Nat) : Nat := ws.getD i 0

/-- A long field: 48 bits from words `i` and `i + 1` (R200). -/
def long (ws : List Nat) (i : Nat) : Nat := wd ws i + bits (wd ws (i + 1)) 15 0 * 2 ^ 32

/-- A word as a signed number. -/
def s32 (w : Nat) : Int := ofTwos 32 w

/-- Whether address `a` lies in a KIND 1 segment (R188). -/
def Dev.inProgram (d : Dev) (a : Nat) : Bool := decide (a < 2 ^ 19) && (d.seg (a / 128)).kind == 1

/-- The address of the step after `a`, none where no KIND 1 segment follows (R188). -/
def Dev.stepAfter (d : Dev) (a : Nat) : Option Nat :=
  if a % 128 < 127 then some (a + 1)
  else
    let n := (d.seg (a / 128)).next
    if n < 4096 && (d.seg n).kind == 1 then some (128 * n) else none

/-- Whether an engine is Armed, Running, Waiting or Paused. -/
def SqState.active : SqState → Bool
  | .armed => true
  | .running => true
  | .waiting => true
  | .paused => true
  | _ => false

/-! ### Events of the engine -/

/-- Event `e` of channel `u` raised by its engine (R291, R302). -/
def Dev.seqRaise (d : Dev) (u e : Nat) : Dev := d.raiseC (srcCh u e) (d.sq u).cause

/-! ### The target -/

/-- The device cv count of the edge with tick `t` (R333). -/
def Dev.cvAt (d : Dev) (t : Nat) : Int :=
  (d.clk.cv : Int) + (t : Int) - d.clk.tick + (if t < d.clk.loadTick then d.clk.loadDelta else 0)

/-- The generator's phase at cv count `n`, in 2^-48 turns (R214). -/
def Sine.phase (s : Sine) (epoch : Nat) (n : Int) : Nat :=
  (((s.f : Int) * (n - epoch) + (s.p : Int) * 2 ^ 32) % 2 ^ 48).toNat

/-- The generator's target at a phase, before it saturates; its amplitude error, below 2^-22 of full scale, is free
(R214). -/
def Sine.value (s : Sine) (ph : Nat) : Int :=
  s.ofs + rdiv ((s.ampl : Int) * sinTurn ph (2 ^ 48)) (2 ^ 60) + clampI (-511) 511 (Config.sineErr ph)

/-- The generator's target of engine `u` at the edge with tick `t`. -/
def Dev.sineAt (d : Dev) (u t : Nat) : Option Int :=
  (d.sq u).sine.map fun s => s.value (s.phase (d.rdN C.EPOCH u) (d.cvAt t))

/-- The ramp's target in the slot of tick `m` (R204). -/
def rampAt (t0 t1 : Int) (n s m : Nat) : Int :=
  let k := min (m - s) (n - 1)
  tdiv (t0 * n + (t1 - t0) * (k + 1)) n

/-- The target an engine gives in the slot of tick `m`, none where it gives none: a ramp, the next sample of a waveform,
or the sine generator (R204, R205, R215, R216). -/
def Dev.genTarget (d : Dev) (u m : Nat) : Option Int :=
  let q := d.sq u
  if q.st = .paused || !q.st.active || decide (m ≤ q.setAt) then none
  else match q.step with
    | .ramp t0 t1 n s => if m < s then none else some (rampAt t0 t1 n s m)
    | .play =>
      match q.play with
      | none => none
      | some p =>
        let j := min ((m - p.start) / p.div) (p.data.length - 1)
        if m < p.start || j < p.fed then none else some (p.data.getD j 0)
    | _ => d.sineAt u (m + 1)

/-- The target given as far as the slot of tick `m`, with the samples of a waveform gone into it. -/
def Seq.markFed (q : Seq) (m : Nat) : Seq :=
  { q with setAt := m, play := q.play.map fun p =>
      if m < p.start then p else { p with fed := max p.fed (min ((m - p.start) / p.div + 1) p.data.length) } }

/-- Target `x` set by the engine of unit `u`: saturated, in the object and, outside Hold, in force (R41, R196, R205,
R214). -/
def Dev.setTarget (d : Dev) (u : Nat) (x : Int) : Dev :=
  let y := sat32 x
  (d.wr C.SETPOINT u y).modCtl u fun c =>
    { c.flagIf fSpSat (out32 x) with tgt := if c.st = .hold then c.tgt else y }

/-- Whether a generator's target of engine `u` saturates in a slot after the last it was given for, to that of tick `m`
(R214). -/
def Dev.sineSat (d : Dev) (u m : Nat) : Bool :=
  let q := d.sq u
  match q.sine with
  | none => false
  | some s =>
    (out32 (s.ofs + s.ampl + 512) || out32 (s.ofs - s.ampl - 512)) && (d.genTarget u m).isSome &&
      (List.range (m - q.setAt)).any fun i =>
        match d.genTarget u (q.setAt + 1 + i) with
        | some x => out32 x
        | none => false

/-- The engine's target brought up to the slot of tick `m`. -/
def Dev.syncTarget (d : Dev) (u m : Nat) : Dev :=
  match d.genTarget u m with
  | none => d
  | some x =>
    let sat := d.sineSat u m
    ((d.setTarget u x).modCtl u fun c => c.flagIf fSpSat sat).modSq u fun q => q.markFed m

/-- Tick of unit `u`'s last slot that has begun (R18). -/
def Dev.lastSlot (d : Dev) (u : Nat) : Nat :=
  if 0 ≤ d.clk.sinceSlot d.clk.tick (slotPos u) then d.clk.tick else d.clk.tick - 1

/-- SETPOINT as it stands now: the engine's target of the last slot, where it has given one since the last write (R205). -/
def Dev.setpointNow (d : Dev) (u : Nat) : Int :=
  match d.genTarget u (d.lastSlot u) with
  | some x => sat32 x
  | none => d.rd C.SETPOINT u

/-! ### Pausing (R195) -/

/-- A step's times moved on by `n` ticks. -/
def SqStep.shift (x : SqStep) (n : Nat) : SqStep :=
  match x with
  | .ramp t0 t1 k s => .ramp t0 t1 k (s + n)
  | .sine due => .sine (due + n)
  | .dwell due => .dwell (due + n)
  | .wait due => .wait (due.map (· + n))
  | .pointDelay due => .pointDelay (due + n)
  | .pointRest due => .pointRest (due + n)
  | y => y

/-- A waveform's times moved on by `n` ticks. -/
def Play.shift (p : Play) (n : Nat) : Play :=
  { p with start := p.start + n, startAt := p.startAt.map (· + n), jump := p.jump.map fun j => (j.1, j.2 + n) }

/-- The event that a waiting engine waits for has come; a step or point it lets start has the slot of tick `t` (R195, R201,
R206, R213). It is latched while the engine is Paused. -/
def Seq.take (q : Seq) (t : Nat) : Seq :=
  if q.st = .paused then { q with latch := true }
  else if q.st = .armed then { q with st := .running, armed := true, slot := t }
  else match q.step with
    | .pointArm => { q with st := .running, step := .point, slot := t }
    | .wait _ => { q with met := true }
    | _ => q

/-- The engine Paused because its channel enters Hold (R195). -/
def Dev.seqPause (d : Dev) (u : Nat) : Dev :=
  let q := d.sq u
  if q.st = .armed || q.st = .running || q.st = .waiting then
    (d.syncTarget u (d.lastSlot u)).modSq u fun q =>
      { q with prev := q.st, st := .paused, pausedAt := d.lastSlot u, latch := false }
  else d

/-- The engine resumed with its counts, and a latched event acting now (R195). -/
def Dev.seqResume (d : Dev) (u : Nat) : Dev :=
  if (d.sq u).st = .paused then
    d.modSq u fun q =>
      let n := d.lastSlot u - q.pausedAt
      let q1 := { q with
        st := q.prev, slot := q.slot + n, at_ := q.at_ + n, step := q.step.shift n, play := q.play.map (·.shift n),
        latch := false }
      if q.latch then q1.take (d.nextSlot u) else q1
  else d

/-! ### Stopping (R195, R198, R211) -/

/-- A step's or point's aperture abandoned; free-running apertures go on (R148, R195). -/
def Dev.dropStepAperture (d : Dev) (u : Nat) : Dev :=
  let m := (d.ch u).meas
  let mine : Bool := match m.ap with | some a => a.owner == .step | none => false
  if mine then (d.abandon u).modMeas u fun m => { m with stepNext := none, freeNext := d.flag C.AP_RUN u }
  else if m.stepNext.isSome then d.modMeas u fun m => { m with stepNext := none, freeNext := d.flag C.AP_RUN u }
  else d

/-- An engine at rest in state `st`: step, generator, waveform and sweep gone, stacks closed; COND, STEPS and the last
PC stay. -/
def Seq.halt (q : Seq) (st : SqState) : Seq :=
  { q with
    st := st, step := .none, sine := none, play := none, sweep := none, latch := false, met := false, z := .no,
    loops := [], calls := [], armed := false }

/-- The engine stopped to `st`, the target it last produced kept (R195, R211). -/
def Dev.seqHalt (d : Dev) (u : Nat) (st : SqState) : Dev :=
  ((d.syncTarget u (d.lastSlot u)).dropStepAperture u).modSq u fun q => q.halt st

/-- STOP: an active engine goes Idle; another changes nothing (R195). -/
def Dev.seqStop (d : Dev) (u : Nat) : Dev :=
  if (d.sq u).st.active then d.seqHalt u .idle else d

/-- The engine enters Error with cause `e` (R195, R198, R291, R368, R426 SEQ_ERROR). -/
def Dev.seqError (d : Dev) (u e : Nat) : Dev :=
  let d1 := (d.seqHalt u .error).modSq u fun q => { q with err := e }
  (((d1.wr C.SQ_FLAGS u (d1.rdN C.SQ_FLAGS u ||| 8 : Nat)).seqRaise u 5).report 0x1520 u e).notifyOwner u 6 6 e

/-- The engine of a unit taken Off by ILK_N or STAGE_EN, or fenced: Error `e` if active (R195). -/
def Dev.seqFail (d : Dev) (u e : Nat) : Dev := if (d.sq u).st.active then d.seqError u e else d

/-! ### Going on (R199, R201) -/

/-- The step at PC is complete: its NOTIFY event is raised (R199). -/
def Dev.notifyStep (d : Dev) (u : Nat) : Dev :=
  if bit (wd (d.sq u).words 0) 14 then d.seqRaise u 3 else d

/-- The engine goes to address `a`, whose step starts in the slot of tick `slot`; outside a program it stops with error 2
(R188, R201). -/
def Dev.seqGoto (d : Dev) (u slot : Nat) (a : Option Nat) : Dev :=
  match a with
  | none => d.seqError u 2
  | some a =>
    if !d.inProgram a then d.seqError u 2
    else d.modSq u fun q =>
      { q with st := .running, nextPc := a, slot := slot, step := .none, armed := false, met := false, z := .no }

/-- The step at PC complete, its successor starting in the slot of tick `slot` (R201). -/
def Dev.seqAdvance (d : Dev) (u slot : Nat) : Dev :=
  let d1 := d.notifyStep u
  d1.seqGoto u slot (d1.stepAfter (d1.sq u).pc)

/-! ### Records (R208) -/

/-- The F32 that stands for a field not carried (R208). -/
def nan32 : Nat := 0x7FC00000

/-- The value of CHARGE or ENERGY as F64 bits (R152). -/
def accF64 (energy : Bool) (v : Int) : Nat := toF64 v (if energy then 2 ^ 60 else 2 ^ 64)

/-- A 64-bit word as two, low first. -/
def words64 (x : Nat) : List Nat := [x % 2 ^ 32, x / 2 ^ 32 % 2 ^ 32]

/-- The fields of a record (R208). -/
structure RecFields where
  kind : Nat
  zNone : Bool := false
  zLow : Bool := false
  time : Nat := 0
  v : Nat := nan32
  i : Nat := nan32
  flags : Nat := 0
  samples : Nat := 0
  q : Nat := 0x7FF8000000000000
  e : Nat := 0x7FF8000000000000
  z1 : Nat := nan32
  z2 : Nat := nan32
  last : Nat := 0
  deriving DecidableEq, Repr

/-- The words of a record (R208). -/
def RecFields.body (r : RecFields) (u pc : Nat) : List Nat :=
  [r.kind * 2 ^ 24 + 0x20000 * b2n r.zNone + 0x10000 * b2n r.zLow + u, pc] ++ time96Words r.time ++
    [r.v, r.i, r.flags, r.samples] ++ words64 r.q ++ words64 r.e ++ [r.z1, r.z2, r.last]

/-- The queue a record goes to: the step's, or RESULT_QUEUE (R200). -/
def Dev.recQueue (d : Dev) (u w : Nat) : Nat := if w = 0xFFFFFFFF then d.rdN C.RESULT_QUEUE u else w

/-- Whether a step's queue field is in its range (R198 cause 15). -/
def queueOk (w : Nat) : Bool := decide (w ≤ 65535) || w == 0xFFFFFFFF

/-- A record written to queue `q`, if that names one; a fenced channel writes none (R37, R208). -/
def Dev.record (d : Dev) (u q : Nat) (r : RecFields) : Dev :=
  if 65535 < q || (d.ch u).ctl.st == .fenced then d
  else d.packet q 2 (some u) (r.body u (d.sq u).pc)

/-- The fields of a measurement: what MSEL selects of aperture `a`, and the lock-in result if it was waited for
(R208, R209). -/
def Dev.measFields (d : Dev) (u kind msel : Nat) (a : Option Ap) : RecFields :=
  let q := d.sq u
  let z := bit msel 4
  let r0 : RecFields :=
    { kind := kind, zNone := z && q.z == .nothing, zLow := z && q.z == .got && q.zLow,
      z1 := if z && q.z == .got then q.zMag.toNat else nan32, z2 := if z && q.z == .got then q.zPhase.toNat else nan32 }
  match a with
  | none => r0
  | some a =>
    let fsv := d.fs u true ((d.ch u).rngV.at a.edge0)
    let fsi := d.fs u false ((d.ch u).rngI.at a.edge0)
    { r0 with
      time := a.start, samples := a.n % 2 ^ 32,
      v := if bit msel 0 then (meanF32 a.sumV a.n fsv).toNat else nan32,
      i := if bit msel 1 then (meanF32 a.sumI a.n fsi).toNat else nan32,
      flags := (if bit msel 0 then a.flagV ||| 1 else 0) + 0x10000 * (if bit msel 1 then a.flagI ||| 1 else 0),
      q := if bit msel 2 then accF64 false a.accQ else 0x7FF8000000000000,
      e := if bit msel 3 then accF64 true a.accE else 0x7FF8000000000000 }

/-- The measurement remembered for JUMP and POST (R207). -/
def Seq.remember (q : Seq) (r : RecFields) : Seq := { q with meas2 := (⟨r.v, r.i⟩ :: q.meas2).take 2 }

/-! ### Activity of segments (R190, R221) -/

/-- Whether engine `u` makes segment `g` active, by cause bit `b` (R190). -/
def Seq.uses (q : Seq) (g b : Nat) : Bool :=
  if !q.st.active then false
  else match b with
    | 0 => match q.play with | some p => p.seg == g && p.starved.isNone | none => false
    | 1 => match q.play with | some p => p.next == some g | none => false
    | 2 => q.pc / 128 == g
    | 3 => q.loops.any (fun l => l.1 / 128 == g) || q.calls.any (fun c => c.1 / 128 == g)
    | 4 => match q.sweep with | some s => s.seg == g | none => false
    | _ => false

/-- The segments of a mask chain from `g`, `n` of them, following NEXT (R254). -/
def Dev.chain (d : Dev) (g : Nat) : Nat → List Nat
  | 0 => []
  | n + 1 => g :: Dev.chain d (d.seg g).next n

/-- Segments a mask of MASK_LEN points needs (R254). -/
def Dev.maskSegs (d : Dev) (u : Nat) : List Nat := d.chain (d.rdN C.MASK_SEG u) ((d.rdN C.MASK_LEN u + 511) / 512)

/-- Whether acquisition unit `u` holds segment `g` active for its mask (R190, R254). -/
def Dev.maskUses (d : Dev) (u g : Nat) : Bool :=
  let a := d.aq u
  a.maskOn && (a.st == .armed || a.st == .triggered) && (d.maskSegs u).contains g

/-- ACTIVE of segment `g` (R190); bit 6, a write in progress, never stands between commands. -/
def Dev.segActive (d : Dev) (g : Nat) : Nat :=
  (bitMap (fun b => d.seqs.any fun e => e.2.uses g b) 5) + 32 * b2n (d.acqs.any fun e => d.maskUses e.1 g)

end Sys2Proof.Machine
end

