-- ==== Sys2Proof/Machine/AcqOps.lean ====
section
/-! DEFINITION. The acquisition units and trigger groups (R225–R259): checks, arming, triggers, capture, closing. -/

namespace Sys2Proof.Machine

open Sys2Proof

/-- Words per sample of DATA (R227). -/
def dataWords (data : Nat) : Nat := if data = 3 then 2 else 1

/-- Sample period of a unit in cv: 4 in the low-power converter mode (R226). -/
def Dev.periodOf (d : Dev) (u : Nat) : Nat :=
  if (d.active u).any fun l => d.flag C.LP_MODE l then 4 else 1

/-- Cv from a sample edge to its arrival at the unit (R130, R225). -/
def Dev.acqLag (d : Dev) (u : Nat) : Nat :=
  if u < 256 then (if d.flag C.LP_MODE u then 37 else 10)
  else match d.active u with
    | [] => 10
    | l :: ls => if ls.all fun x => stoveOf x == stoveOf l then 10 else 12

/-- Words of the packet's first reservation: length word, header, samples; the ring alone in stream mode (R232, R246). -/
def Dev.acqNeed (d : Dev) (u : Nat) : Nat :=
  let w := dataWords (d.rdN C.DATA u)
  21 + (if d.flag C.STREAM u then d.rdN C.PRE u else d.rdN C.PRE u + d.rdN C.POST u) * w

/-- Whether the region check of R232 passes. -/
def Dev.acqSizeOk (d : Dev) (u : Nat) : Bool :=
  let cap := (d.qu (d.rdN C.ACQ_QUEUE u)).cap
  let w := dataWords (d.rdN C.DATA u)
  decide (d.acqNeed u ≤ cap - 1) &&
    (if d.flag C.STREAM u then decide (21 + d.rdN C.CHUNK u * w ≤ cap - 1) else decide (1 ≤ d.rdN C.POST u))

/-- Whether the mask chain passes R254. -/
def Dev.maskOk (d : Dev) (u : Nat) : Bool := (d.maskSegs u).all fun g => decide (g < 4096) && (d.seg g).kind == 5

/-- Whether an injection run of any channel writes to queue `q` (R87, R231). -/
def Dev.injOn (d : Dev) (q : Nat) : Bool :=
  d.chans.any fun e => e.2.ctl.inj.on && d.rd C.INJ_QUEUE e.1 == (q : Int)

/-- Whether a unit other than `u` is not Idle on queue `q` (R231). -/
def Dev.acqOn (d : Dev) (u q : Nat) : Bool :=
  d.acqs.any fun e => e.1 != u && e.2.st != .idle && d.rd C.ACQ_QUEUE e.1 == (q : Int)

/-- The refusal of an arm, 0 for none, in the order of its table (R231). -/
def Dev.armErr (d : Dev) (u : Nat) : Nat :=
  let q := d.rdN C.ACQ_QUEUE u
  let named := decide (q ≤ 65535)
  let cst := (d.ch u).ctl.st
  if named && !d.acqSizeOk u then 1
  else if cst == .calibrating || cst == .fenced then 2
  else if !named then 3
  else if d.injOn q || d.acqOn u q then 4
  else if d.flag C.MASK_EN u && !d.maskOk u then 5
  else if d.flag C.STREAM u && (d.qu q).consumer == 0 then 6
  else 0

/-- The group a unit belongs to (R249). -/
def Dev.groupOf (d : Dev) (u : Nat) : Option Nat :=
  let g := d.rdN C.TGROUP u
  if g < 64 then some g else none

/-- The members of group `g`, in ascending order. -/
def Dev.groupUnits (d : Dev) (g : Nat) : List Nat := (List.range 384).filter fun u => d.groupOf u == some g

/-- A unit Armed: ring, history and capture counts empty, mask on if MASK_EN (R230, R234, R238). -/
def Acq.start (a : Acq) (resv : Nat) (tick : Nat) (mask : Bool) : Acq :=
  { a with
    st := .armed, resv := some resv, ring := [], written := 0, lastKept := none, moved := 0, post := [], postN := 0, trigEdge := none,
    trigAt := none, trigNs := 0, trigFrac := 0, cause := 0, unit := 0, evts := [], lost := 0, flags := 0, viol := none,
    part := 0, partN := 0, partOpen := false, below := false, above := false, hist := [], timed := false, maskK := 0,
    maskOn := mask, from_ := tick, last := none, heldArm := false }

/-- The reservation of an armed unit requested: Armed if granted, else Wait space (R230). -/
def Dev.acqReserve (d : Dev) (u : Nat) : Dev :=
  let q := d.rdN C.ACQ_QUEUE u
  let n := d.acqNeed u
  if d.canReserve q 1 n then
    let id := ((d.putGap q).qu q).serial
    let c := d.ch u
    (d.reserve q 1 n).modAq u fun a =>
      { a.start id (d.clk.tick - d.acqLag u + 1) (d.flag C.MASK_EN u) with seenI := c.rngI.now, seenV := c.rngV.now }
  else (d.reserve q 1 n).modAq u fun a => { a with st := .waitSpace, heldArm := false, below := false, above := false, hist := [] }

/-- An arm that reaches a unit: refused with ACQ_ERR, held in Closing and Re-arm, without effect in other states than
Idle (R230, R231). -/
def Dev.acqArm (d : Dev) (u : Nat) (c : Cause := {}) : Dev :=
  match (d.aq u).st with
  | .idle =>
    let e := d.armErr u
    if e ≠ 0 then (d.modAq u fun a => { a with err := e }).report 0x1628 u e
    else
      let d1 := (d.modAq u fun a => { a with err := 0, fcause := c }).acqReserve u
      if (d1.aq u).st = .waitSpace then d1.bump C.ARM_WAITS u 32 1 else d1
  | .rearm => d.modAq u fun a => { a with heldArm := true, fcause := c }
  | .closing => d.modAq u fun a => { a with heldArm := true, fcause := c }
  | _ => d

/-- An arm that a group's member refuses because it does not come from the group (R249). -/
def Dev.acqArmRefused (d : Dev) (u : Nat) : Dev := (d.modAq u fun a => { a with err := 2 }).report 0x1628 u 2

/-- The arm of group `g`: every member receives it; the group is Armed if at least one member arms (R250). -/
def Dev.groupArm (d : Dev) (g : Nat) (c : Cause := {}) : Dev :=
  let us := d.groupUnits g
  let d1 := us.foldl (fun e u => e.acqArm u c) d
  let on := us.any fun u => let x := (d1.aq u).st; x == .armed || x == .waitSpace
  if (d1.gr g).st = .idle && on then d1.modGr g fun x => { x with st := .armed, trig := none, fcause := c } else d1

/-- The arm a unit gets by its own command or flue: of its group where it is the group's master, refused where it is
another member (R249, R250). -/
def Dev.unitArm (d : Dev) (u : Nat) (c : Cause := {}) : Dev :=
  match d.groupOf u with
  | none => d.acqArm u c
  | some g => if d.rd D.TG_MASTER g = (u : Int) then d.groupArm g c else d.acqArmRefused u

/-! ### The capture packet -/

/-- Ring position of the oldest sample, once `n` samples are left of `written` and `moved` have moved out: the samples
that are left stand in position order (R238, R240). -/
def preStart (pre written moved n : Nat) : Nat :=
  if n = 0 || written ≤ pre then 0 else written % pre - moved

/-- A list turned so that its first element stands at place `k`. -/
def turn {α : Type} (l : List α) (k : Nat) : List α := l.drop (l.length - k) ++ l.take (l.length - k)

/-- Kept samples of a packet in capture order: ring, then post-trigger samples. -/
def Acq.samples (a : Acq) : List Kept := a.ring.reverse ++ a.post.reverse

/-- The event words: index of the first kept sample affected, at most three (R242). -/
def Acq.evtWords (a : Acq) : List Nat :=
  let ks := a.samples
  match ks with
  | [] => []
  | k0 :: _ =>
    let es := a.evts.reverse.filter fun e => decide (k0.edge < e.edge) && ks.any fun k => decide (e.edge ≤ k.edge)
    es.map fun e => e.kind * 2 ^ 28 + e.arg % 16 * 2 ^ 24 + (ks.findIdx fun k => decide (e.edge ≤ k.edge)) % 2 ^ 24

/-- The 20 header words of a packet (R240, R241): `pre` ring samples, `post` post-trigger samples, `part` and `last` of
R246. -/
def Dev.acqHeader (d : Dev) (u : Nat) (pre post ps flags part : Nat) (last : Bool) : List Nat :=
  let a := d.aq u
  let t := time96Words a.trigNs
  let ev := a.evtWords
  let k0 := a.samples.head?
  let rr := match k0 with | some k => k.rV * 2 ^ 8 + k.rI | none => a.seenV * 2 ^ 8 + a.seenI
  let ofs := match a.trigEdge, a.trigAt with | some e, some t => t - e | _, _ => 0
  let fl := flags ||| (if 3 < ev.length then 0x40 else 0) ||| (if 0 < a.lost then 0x20 else 0)
  [0x01000000 + d.rdN C.DATA u * 2 ^ 16 + u, (a.capSeq + 1) % 2 ^ 32, pre, post, ps,
   d.periodOf u * 2 ^ 24 + d.rdN C.DECIM u, ofs,
   a.cause * 2 ^ 24 + ((d.groupOf u).getD 255) * 2 ^ 16 + a.unit, fl] ++ t ++
  [d.rdN C.ACQ_TB u * 2 ^ 16 + a.trigFrac, a.viol.getD 0xFFFFFFFF, min ev.length 255 * 2 ^ 24 + rr,
   ev.getD 0 0, ev.getD 1 0, ev.getD 2 0, a.lost, part + if last then 2 ^ 31 else 0]

/-- A packet written into its reservation and closed (R239, R271); whether the reservation was still open. -/
def Dev.acqWrite (d : Dev) (u : Nat) (body : List Nat) : Dev × Bool :=
  let q := d.rdN C.ACQ_QUEUE u
  match (d.aq u).resv with
  | none => (d, false)
  | some id =>
    let ok := d.resvOpen q id
    (((d.fillAll q id 1 body).close q id body.length).modAq u fun a => { a with resv := none }, ok)

/-- Flags of the capture's header that stand for the whole capture (R241). -/
def Dev.acqFlags (d : Dev) (u : Nat) : Nat :=
  let a := d.aq u
  let short := decide (a.ring.length + (if d.flag C.STREAM u && decide (0 < a.part) then d.rdN C.PRE u else 0) < d.rdN C.PRE u)
  a.flags ||| b2n short ||| (if d.flag C.STREAM u then 0x100 else 0)

/-- PART 0 of a stream: the ring, closed when the trigger sample reaches the unit (R246). -/
def Dev.acqPart0 (d : Dev) (u : Nat) (last : Bool) : Dev :=
  let a := d.aq u
  let n := a.ring.length
  let ps := preStart (d.rdN C.PRE u) a.written a.moved n
  let fl := d.acqFlags u
  let body := (d.modAq u fun a => { a with post := [] }).acqHeader u n 0 ps fl 0 last ++
    ((turn a.ring.reverse ps).map Kept.words).flatten
  let r := d.acqWrite u body
  r.1.modAq u fun a => { a with part := 1, partN := 0, partOpen := false, flags := a.flags ||| b2n (fl % 2 == 1),
                                ring := [], post := a.post }

/-- The running post-trigger part of a stream committed, or its samples lost (R246, R247). -/
def Dev.acqPart (d : Dev) (u : Nat) (last : Bool) : Dev :=
  let a := d.aq u
  let fl := d.acqFlags u
  let q := d.rdN C.ACQ_QUEUE u
  let open_ := a.partOpen && (match a.resv with | some id => d.resvOpen q id | none => false)
  let d1 :=
    if open_ then
      (d.acqWrite u (d.acqHeader u 0 a.post.length 0 fl a.part last ++ (a.post.reverse.map Kept.words).flatten)).1
    else d.modAq u fun a => { a with lost := a.lost + a.partN, resv := none }
  d1.modAq u fun a =>
    { a with part := if a.part = 65535 then 1 else a.part + 1, partN := 0, partOpen := false, post := [] }

/-- The capture closed: Closing, to be committed in the next cv (R230, R239). -/
def Dev.acqClose (d : Dev) (u flags : Nat) : Dev :=
  d.modAq u fun a => { a with st := .closing, due := d.clk.tick + 1, flags := a.flags ||| flags }

/-- CAPTURE_COMMIT: the packet, or the last part, written; CAP_SEQ, status, event; Re-arm (R230, R239, R246, R258). -/
def Dev.acqCommit (d : Dev) (u : Nat) : Dev :=
  let a := d.aq u
  let fl := d.acqFlags u
  let d1 :=
    if d.flag C.STREAM u then (if a.part = 0 then d.acqPart0 u true else d.acqPart u true)
    else
      let n := a.ring.length
      let ps := preStart (d.rdN C.PRE u) a.written a.moved n
      let body := d.acqHeader u n a.post.length ps fl 0 false ++
        ((turn a.ring.reverse ps).map Kept.words).flatten ++ (a.post.reverse.map Kept.words).flatten
      (d.acqWrite u body).1
  let d2 := d1.modAq u fun b =>
    { b with
      st := .rearm, due := d.clk.tick + 5, capSeq := (b.capSeq + 1) % 2 ^ 32, resv := none, lastTrig := b.trigNs,
      lastFlags := fl ||| (if 0 < b.lost then 0x20 else 0) ||| (if 3 < a.evtWords.length then 0x40 else 0),
      lastViol := b.viol.getD 0xFFFFFFFF, maskOn := false }
  let d3 := d2.raiseC (srcCh u 8) (d2.aq u).fcause
  if 0 < (d3.aq u).lost then d3.report 0x162B u (d3.aq u).lost else d3

/-! ### Masks (R254–R257) -/

/-- Point `q` of the mask of unit `u`: upper and lower limit (R254). -/
def Dev.maskPoint (d : Dev) (m : Mem) (u q : Nat) : Int × Int :=
  let g := (d.maskSegs u).getD (q / 512) 0
  (s32 (segWord m g (2 * (q % 512))), s32 (segWord m g (2 * (q % 512) + 1)))

/-- Whether value `x` violates point `q` (R255). -/
def Dev.maskFails (d : Dev) (m : Mem) (u q : Nat) (x : Int) : Bool :=
  let p := d.maskPoint m u q
  decide (p.1 < x) || decide (x < p.2)

/-- What a violation does beside closing the capture: counted, its event raised, and the sequence's STOP due in the next
cv (R256). -/
def Dev.violation (d : Dev) (u idx : Nat) : Dev :=
  let d1 := d.bump C.VIOL_COUNT u 32 1
  let d2 := d1.modAq u fun a =>
    { a with viol := some idx, flags := a.flags ||| 2,
             stopDue := if d1.flag C.MASK_STOPSEQ u then some (d1.clk.tick + 1) else a.stopDue }
  (d2.raiseC (srcCh u 9) (d2.aq u).fcause).report 0x162A u idx

/-! ### Samples in Triggered (R236, R239, R246, R255) -/

/-- A stream part opened for its first sample (R247). -/
def Dev.acqOpenPart (d : Dev) (u : Nat) : Dev :=
  let q := d.rdN C.ACQ_QUEUE u
  let n := 21 + d.rdN C.CHUNK u * dataWords (d.rdN C.DATA u)
  if d.canReserve q 1 n then
    let id := ((d.putGap q).qu q).serial
    (d.reserve q 1 n).modAq u fun a => { a with resv := some id, partOpen := true }
  else (d.reserve q 1 n).modAq u fun a => { a with resv := none, partOpen := false }

/-- The trigger sample fixed: its edge and time; PART 0 of a stream closed (R236, R240, R246). -/
def Dev.acqFix (d : Dev) (u : Nat) (k : Kept) : Dev :=
  let tb := d.rdN C.ACQ_TB u
  let acc := d.stampAcc tb k.edge
  let d1 := d.modAq u fun a =>
    { a with trigAt := some k.edge, trigNs := acc / 2 ^ 44, trigFrac := acc / 2 ^ 28 % 2 ^ 16 }
  if d1.flag C.STREAM u then d1.acqPart0 u false else d1

/-- A kept sample taken after the trigger: counted, tested, and the capture closed at its last sample or at a violation
(R239, R255, R256); `re` for a sample that moves out of the ring, which MASK_ALIGN 1 has tested already. -/
def Dev.acqPost (d : Dev) (m : Mem) (u : Nat) (k : Kept) (re : Bool) : Dev :=
  if (d.aq u).st ≠ .triggered then d
  else
    let d1 := if (d.aq u).trigAt.isNone then d.acqFix u k else d
    let stream := d1.flag C.STREAM u
    let d2 := if stream && decide ((d1.aq u).partN = 0) then d1.acqOpenPart u else d1
    let d3 := d2.modAq u fun a => { a with post := k :: a.post, postN := a.postN + 1, partN := a.partN + 1 }
    let a := d3.aq u
    let j := a.postN - 1
    let cyc := decide (d3.rd C.MASK_ALIGN u = 1)
    let len := max 1 (d3.rdN C.MASK_LEN u)
    let tested := a.maskOn && (if cyc then !re else decide (j < len))
    let bad := tested && d3.maskFails m u (if cyc then a.maskK % len else j) k.x
    let d4 := if re then d3 else d3.modAq u fun a => { a with maskK := a.maskK + 1 }
    if a.viol.isSome then (d4.modAq u fun a => { a with viol := some a.ring.length }).acqClose u 0
    else if bad then (d4.violation u (a.ring.length + j)).acqClose u 0
    else if decide (0 < d4.rdN C.POST u) && decide (d4.rdN C.POST u ≤ a.postN) then d4.acqClose u 0
    else if stream && decide (d4.rdN C.CHUNK u ≤ a.partN) then d4.acqPart u false
    else d4

/-- A trigger with edge `t` that acts on an Armed unit: Triggered, its event raised, and samples of the ring from the
edge on moved out of it (R230, R236, R238). -/
def Dev.acqTrigger (d : Dev) (m : Mem) (u t cause unit : Nat) : Dev :=
  let a := d.aq u
  if a.st ≠ .armed then d
  else
    let out := (a.lastKept.toList ++ a.ring).filter fun k => decide (t ≤ k.edge)
    let d1 := d.modAq u fun a =>
      { a with st := .triggered, trigEdge := some t, cause := cause, unit := unit,
               ring := a.ring.filter fun k => decide (k.edge < t), moved := out.length, lastKept := none }
    let d2 := d1.raiseC (srcCh u 7) (d1.aq u).fcause
    out.reverse.foldl (fun e k => e.acqPost m u k true) d2

/-- A trigger counted as missed (R237, R252). -/
def Dev.trigMissed (d : Dev) (u : Nat) : Dev := (d.bump C.TRIG_MISSED u 32 1).report 0x1629 u 0

/-- The fabric's choice between two triggers that arrive: the first; in one cv the earliest edge, then the lowest unit
(R251). -/
def GrpTrig.first (a b : GrpTrig) : GrpTrig :=
  if b.arrived = a.arrived && (decide (b.edge < a.edge) || (b.edge == a.edge && decide (b.unit < a.unit))) then b else a

/-- A trigger given to the fabric of an Armed group (R251). -/
def Dev.groupTrig (d : Dev) (g : Nat) (t : GrpTrig) (c : Cause) : Dev :=
  d.modGr g fun x =>
    if x.st ≠ .armed then x
    else match x.trig with
      | none => { x with trig := some t, fcause := c }
      | some o => let f := o.first t; { x with trig := some f, fcause := if f = t then c else x.fcause }

/-- A trigger found by unit `u`, with edge `t`: to its group, or acting on the unit; counted where it is missed
(R237, R251, R252). -/
def Dev.found (d : Dev) (m : Mem) (u t cause : Nat) (c : Cause) : Dev :=
  let a := d.aq u
  match d.groupOf u with
  | some g =>
    let x := d.gr g
    if x.st = .fired then d.trigMissed u
    else if x.st = .armed && a.st = .armed then d.groupTrig g ⟨t, u, cause, d.clk.tick⟩ c
    else if a.st = .rearm || a.st = .waitSpace then d.trigMissed u
    else d
  | none =>
    match a.st with
    | .armed => (d.modAq u fun a => { a with fcause := c }).acqTrigger m u t cause u
    | .rearm => d.trigMissed u
    | .waitSpace => d.trigMissed u
    | _ => d

/-- FORCE of a unit (R233, R235, R249). -/
def Dev.acqForce (d : Dev) (m : Mem) (u : Nat) : Dev :=
  d.found m u (d.clk.tick - d.acqLag u) 4 (d.aq u).fcause

/-! ### Disarming and early closes (R230, R244, R245) -/

/-- DISARM of one unit (R230, R245, R247). -/
def Dev.acqDisarm (d : Dev) (u : Nat) : Dev :=
  let a := d.aq u
  match a.st with
  | .waitSpace => d.modAq u fun a => { a with st := .idle }
  | .armed =>
    let q := d.rdN C.ACQ_QUEUE u
    let d1 := match a.resv with | some id => d.withdraw q id | none => d
    d1.modAq u fun a => { a with st := .idle, ring := [], resv := none, maskOn := false }
  | .triggered => d.acqClose u 4
  | .rearm => d.modAq u fun a => { a with heldArm := false }
  | .closing => d.modAq u fun a => { a with heldArm := false }
  | .idle => d

/-- The unit's channel enters Calibrating or Fenced: flag 0x10 or 0x08 (R245). -/
def Dev.acqCut (d : Dev) (u flag : Nat) : Dev :=
  match (d.aq u).st with
  | .waitSpace => d.modAq u fun a => { a with st := .idle }
  | .armed => d.acqClose u flag
  | .triggered => d.acqClose u flag
  | _ => d

/-- DISARM of group `g`: every member's; an Armed group goes Idle (R249). -/
def Dev.groupDisarm (d : Dev) (g : Nat) : Dev :=
  let d1 := (d.groupUnits g).foldl (fun e u => e.acqDisarm u) d
  d1.modGr g fun x => if x.st = .armed then { x with st := .idle, trig := none } else x

/-- A MAKE latch of one variable of unit `u`: a mask test of it ends for the rest of the capture (R257). -/
def Dev.maskCut (d : Dev) (u : Nat) (volt : Bool) : Dev :=
  let a := d.aq u
  let v := d.rdN C.MASK_VAR u
  if a.maskOn && (a.st == .armed || a.st == .triggered) && (v == 2 || v == (if volt then 0 else 1)) then
    d.modAq u fun a => { a with maskOn := false, flags := a.flags ||| 0x80 }
  else d

/-- A Fired group whose members have all left Re-arm: Idle, and armed again with TG_AUTO or a held arm (R252). -/
def Dev.groupSettle (d : Dev) (g : Nat) : Dev :=
  let us := d.groupUnits g
  let busy := us.any fun u => let x := (d.aq u).st; x == .triggered || x == .closing || x == .rearm
  if (d.gr g).st ≠ .fired || busy then d
  else
    let held := us.any fun u => (d.aq u).heldArm
    let d1 := (us.foldl (fun e u => e.modAq u fun a => { a with heldArm := false }) d).modGr g fun x =>
      { x with st := .idle, trig := none }
    if d1.flag D.TG_AUTO g || held then d1.groupArm g else d1

/-- TG_STATE (R248, R252). -/
def Dev.groupState (d : Dev) (g : Nat) : Nat :=
  match (d.gr g).st with
  | .idle => 0
  | .armed => 1
  | .fired =>
    let us := d.groupUnits g
    let run := us.any fun u => let x := (d.aq u).st; x == .triggered || x == .closing || x == .armed
    if !run && us.any fun u => (d.aq u).st == .rearm then 3 else 2

/-! ### A sample reaching the unit (R225–R238, R255) -/

/-- The three trigger and mask values of a sample: V, I and P in Q1.31 (R227, R234). -/
def acqValues (yV yI : Int) : Int × Int × Int :=
  let v := sat32 yV
  let i := sat32 yI
  (v, i, sat32 (odiv 227 (v * i) (2 ^ 31)))

/-- The words a kept sample writes (R227). -/
def acqWords (data : Nat) (x : Int × Int × Int) (cV cI : Int) : List Nat :=
  match data with
  | 0 => [toU 16 cV * 2 ^ 16 + toU 16 cI]
  | 1 => [toU 32 x.1]
  | 2 => [toU 32 x.2.1]
  | 4 => [toU 32 x.2.2]
  | _ => [toU 32 x.1, toU 32 x.2.1]

/-- One value tested for a crossing (R234): whether it crosses, and the unit with its memory moved on. -/
def Acq.cross (a : Acq) (x lvl hyst : Int) (dir : Nat) : Bool × Acq :=
  let up := a.below && decide (lvl ≤ x)
  let dn := a.above && decide (x ≤ lvl)
  let b := { a with below := decide (x < lvl - hyst) || (a.below && !up), above := decide (lvl + hyst < x) || (a.above && !dn) }
  ((dir != 1 && up) || (dir != 0 && dn), b)

/-- The unit's own trigger source evaluated on a sample of edge `n` (R233–R235). -/
def Dev.acqTest (d : Dev) (u n : Nat) (x : Int × Int × Int) : Bool × Acq :=
  let a := d.aq u
  let src := d.rdN C.TRIG_SRC u
  let pick := fun (k : Nat) => if k % 3 = 1 then x.1 else if k % 3 = 2 then x.2.1 else x.2.2
  let lvl := d.rd C.TRIG_LEVEL u
  let hy := d.rd C.TRIG_HYST u
  let dir := d.rdN C.TRIG_DIR u
  if 1 ≤ src && decide (src ≤ 3) then a.cross (pick src) lvl hy dir
  else if 4 ≤ src && decide (src ≤ 6) then
    let k := d.rdN C.SLOPE_SPAN u
    let y := pick src
    let b := { a with hist := (y :: a.hist).take k }
    if k ≤ a.hist.length then b.cross (y - a.hist.getD (k - 1) 0) lvl hy dir else (false, b)
  else if src = 8 && !a.timed && decide (d.rd C.TRIG_TIME u ≤ (d.stamp (d.rdN C.ACQ_TB u) n : Int)) then
    (true, { a with timed := true })
  else (false, a)

/-- Words of a kept sample through the staging buffer: those that find it full keep undefined content. All words of a
capture count for the bank group of its first word (R23, R243, log 16). -/
def Dev.acqStage (d : Dev) (u : Nat) : List Nat → Dev × List Nat × Nat
  | [] => (d, [], 0)
  | w :: ws =>
    if d.stages (stageOf u) 1 then
      let x := d.qu (d.rdN C.ACQ_QUEUE u)
      let p := match x.resv with | some r => r.at_ | none => x.wr
      let r := Dev.acqStage (d.stage (stageOf u) x p 1) u ws
      (r.1, w :: r.2.1, r.2.2)
    else
      let f := d.freeBits 32
      let q := d.rdN C.ACQ_QUEUE u
      let r := Dev.acqStage (d.drawn.modQu q fun x => x.lose 1 gapStaging) u ws
      (r.1, f :: r.2.1, r.2.2 + 1)

/-- Changes seen at a sample of edge `n`: new ranges, a swap or a substitution (R242); the SUBST flag (R241). -/
def Dev.acqSee (d : Dev) (u n : Nat) : Dev :=
  let c := d.ch u
  let rI := c.rngI.at n
  let rV := c.rngV.at n
  let a := d.aq u
  let k := stoveOf u
  let sub := if u < 256 then bit (d.st k).subst (roleOf u true) || bit (d.st k).subst (roleOf u false) else false
  let sw := c.meas.swapV == some n || c.meas.swapI == some n
  let es := (if rI ≠ a.seenI then [⟨1, rI, n⟩] else []) ++ (if rV ≠ a.seenV then [⟨2, rV, n⟩] else []) ++
    (if sw then [⟨if sub then 4 else 3, 0, n⟩] else [])
  d.modAq u fun a =>
    { a with seenI := rI, seenV := rV, evts := es.reverse ++ a.evts, flags := a.flags ||| (if sub then 0x200 else 0) }

/-- A sample of edge `n` with values `x` and codes taken by the unit: kept ones into the ring, the trigger tests, kept
ones after the trigger (R226, R234–R239, R255). -/
def Dev.acqSample (d : Dev) (m : Mem) (u n : Nat) (yV yI cV cI : Int) : Dev :=
  let x := acqValues yV yI
  let d0 := (d.acqSee u n).modAq u fun a => { a with last := some n }
  let st0 := (d0.aq u).st
  let kept := decide (d0.cvAt n % ((max 1 (d0.rdN C.DECIM u) * d0.periodOf u : Nat) : Int) = 0)
  let t := d0.acqTest u n x
  let d1 := d0.modAq u fun _ => t.2
  let takes := kept && (st0 == .armed || st0 == .triggered) && decide ((d1.aq u).from_ ≤ n)
  if !takes then
    if t.1 then d1.found m u n (if d1.rdN C.TRIG_SRC u = 8 then 3 else 1) {} else d1
  else
    let sg := d1.staging.acqStage u (acqWords (d1.rdN C.DATA u) x cV cI)
    let c := d1.ch u
    let v := d1.rdN C.MASK_VAR u
    let k : Kept := ⟨n, sg.2.1, c.rngV.at n, c.rngI.at n, if v = 0 then x.1 else if v = 1 then x.2.1 else x.2.2⟩
    let d2 := if 0 < sg.2.2 then sg.1.modAq u fun a => { a with lost := a.lost + 1 } else sg.1
    if st0 = .triggered then d2.acqPost m u k false
    else
      let pre := d2.rdN C.PRE u
      let len := max 1 (d2.rdN C.MASK_LEN u)
      let a := d2.aq u
      let cyc := a.maskOn && decide (d2.rd C.MASK_ALIGN u = 1)
      let bad := cyc && d2.maskFails m u (a.maskK % len) k.x
      let put := fun (e : Dev) => e.modAq u fun a =>
        { a with
          ring := (k :: a.ring).take pre, lastKept := if pre = 0 then some k else none,
          written := if pre = 0 then 0 else a.written + 1, maskK := a.maskK + 1 }
      if bad then
        match d2.groupOf u with
        | some g =>
          let d3 := (put d2).violation u 0
          if (d3.gr g).st = .armed then d3.groupTrig g ⟨n, u, 5, d3.clk.tick⟩ {} else d3
        | none =>
          let d3 := d2.acqTrigger m u n 5 u
          d3.acqPost m u k false
      else if t.1 then
        match d2.groupOf u with
        | some _ => (put d2).found m u n (if d2.rdN C.TRIG_SRC u = 8 then 3 else 1) {}
        | none => (d2.found m u n (if d2.rdN C.TRIG_SRC u = 8 then 3 else 1) {}).acqPost m u k false
      else put d2

end Sys2Proof.Machine
end

