-- ==== Sys2Proof/Machine/CalOps.lean ====
section
/-! DEFINITION. Path calibration: the shadow of the store, forming factors, and ending a run (R394–R414). -/

namespace Sys2Proof.Machine

open Sys2Proof

/-! ### The shadow and its sets (R395, R399) -/

/-- Place of a set in the shadow (R395, R416). -/
def setKey (u : Nat) (volt : Bool) (j s : Nat) : Nat := 96 * u + 8 * factKey volt j + s

/-- Set `s` of a range of a channel in a shadow, none while it is empty. -/
def calSet (m : SMap CalSet) (u : Nat) (volt : Bool) (j s : Nat) : Option CalSet := m.look (setKey u volt j s)

/-- A set and its number placed by temperature. -/
def placeSet (x : Nat × CalSet) : List (Nat × CalSet) → List (Nat × CalSet)
  | [] => [x]
  | y :: ys => if (f32Val x.2.temp).le (f32Val y.2.temp) then x :: y :: ys else y :: placeSet x ys

/-- The valid sets of a range with their numbers, by temperature. -/
def validSets (m : SMap CalSet) (u : Nat) (volt : Bool) (j : Nat) : List (Nat × CalSet) :=
  (List.range 8).foldr (fun s a => match calSet m u volt j s with | some x => placeSet (s, x) a | none => a) []

/-- The factors of one set. -/
def CalSet.factors (x : CalSet) : Factors := ⟨x.o, x.g, x.k2⟩

/-- `fa + w × (fb − fa)` rounded to nearest code, for the temperatures of two sets (R399). -/
def lerp (w : Rat2) (a b : Int) : Int := let x := (Rat2.ofInt a).add (w.mul (Rat2.ofInt (b - a))); rdiv x.num x.den

/-- Factors formed from two neighbouring sets at temperature `t` (R399). -/
def between (t : Rat2) (a b : CalSet) : Factors :=
  let w := (t.sub (f32Val a.temp)).div ((f32Val b.temp).sub (f32Val a.temp))
  ⟨lerp w a.o b.o, lerp w a.g b.g, lerp w a.k2 b.k2⟩

/-- What the sets of a range give at a temperature: factors, the sets used (0xFF none), and whether the temperature lies
outside them (R399, R405). -/
structure Formed where
  f : Factors := {}
  lo : Nat := 255
  hi : Nat := 255
  out : Bool := false
  deriving DecidableEq, Repr

/-- Forming with the sets from the second lowest on, the lowest being `a` and not above `t` (R399). -/
def formOn (t : Rat2) (a : Nat × CalSet) : List (Nat × CalSet) → Formed
  | [] => ⟨a.2.factors, a.1, a.1, (f32Val a.2.temp).lt t⟩
  | b :: bs => if t.le (f32Val b.2.temp) then ⟨between t a.2 b.2, a.1, b.1, false⟩ else formOn t b bs

/-- Factors of a range at temperature `t` from its valid sets by temperature (R399). -/
def form (t : Rat2) : List (Nat × CalSet) → Formed
  | [] => {}
  | [a] => ⟨a.2.factors, a.1, a.1, false⟩
  | a :: as => if t.lt (f32Val a.2.temp) then ⟨a.2.factors, a.1, a.1, true⟩ else formOn t a as

/-- What the shadow gives for a range of a channel at temperature `t`, F32 bits. -/
def Dev.formed (d : Dev) (u : Nat) (volt : Bool) (j : Nat) (t : Int) : Formed :=
  form (f32Val t) (validSets d.shadow u volt j)

/-- Variable and range of each place of the factors. -/
def factPlaces : List (Bool × Nat) := (List.range 8).map (fun j => (false, j)) ++ (List.range 4).map fun j => (true, j)

/-- The factors of all 12 ranges of a channel at temperature `t` (R400). -/
def Dev.formAll (d : Dev) (u : Nat) (t : Int) : SMap Factors :=
  factPlaces.foldl (fun m x => SMap.set ({} : Factors) m (factKey x.1 x.2) (d.formed u x.1 x.2 t).f) ([] : SMap Factors)

/-- A read of the calibration shadow of channel `u` checked, an injected mismatch reported (R431, R449, R451). -/
def Dev.shadowRead (d : Dev) (u : Nat) : Dev :=
  if d.injArmed .calShadow u then
    let code := if d.rd D.FI_INJ_STATE 0 = 3 then 0x1734 else 0x1733
    (d.injHit false).reportInj code u 0 1
  else d

/-- The factors of a channel recomputed at T_NOW and made pending (R400, R404). -/
def Dev.renew (d : Dev) (u : Nat) : Dev :=
  let t := d.rd C.T_NOW u
  let f := d.formAll u t
  (d.shadowRead u).modMeas u fun m => { m with pend := some f, pendAt := d.clk.tick, pendT := t }

/-- A change of the shadow: DIRTY, in a store under way after its snapshot too (R413, R419, R421). -/
def Dev.dirty (d : Dev) : Dev :=
  { d with storing := d.storing.map fun (x : Store) => { x with changed := true } }.wr D.DIRTY 0 1

/-- Bounds of g_path and k2_path (R394). -/
def factorOk (f : Factors) : Bool :=
  decide (1020054733 ≤ f.g) && decide (f.g ≤ 1127428915) && decide (-21474836 ≤ f.k2) && decide (f.k2 ≤ 21474836)

/-- UNCAL of one variable: the range in force has no valid set (R395). -/
def Dev.uncal (d : Dev) (u : Nat) (volt : Bool) : Bool := validSets d.shadow u volt ((d.ch u).rng volt).now = []

/-- TEMP_OUT: the temperature lies outside the sets of a range in force (R399). -/
def Dev.tempOut (d : Dev) (u : Nat) : Bool :=
  let t := d.rd C.T_NOW u
  (d.formed u true (d.ch u).rngV.now t).out || (d.formed u false (d.ch u).rngI.now t).out

/-- Whether a path-calibration run holds the channel: RUNNING (R405, R414). -/
def Dev.calHolds (d : Dev) (u : Nat) : Bool :=
  d.crRest.contains u || (match d.cr with | some r => r.u == u | none => false)

/-- CS_FLAGS (R405). -/
def Dev.csFlags (d : Dev) (u : Nat) : Nat :=
  let m := (d.ch u).meas
  0x80 * b2n (decide (d.rd C.TS_SRC u = 0)) + 0x40 * b2n (d.uncal u false) + 0x20 * b2n (d.uncal u true) +
    0x10 * b2n m.tempLost + 8 * b2n (d.tempOut u) + 4 * b2n (d.calHolds u) + 3 * b2n m.pend.isSome

/-- V_SETS or I_SETS: the sets interpolated for the range in force (R405). -/
def Dev.setsUsed (d : Dev) (u : Nat) (volt : Bool) : Nat :=
  let x := d.formed u volt ((d.ch u).rng volt).now (d.rd C.T_APPLIED u)
  x.lo + 256 * x.hi

/-- The factors in force for the range in force of one variable (R405). -/
def Dev.factNow (d : Dev) (u : Nat) (volt : Bool) : Factors :=
  SMap.get {} (d.ch u).meas.fact (factKey volt ((d.ch u).rng volt).now)

/-! ### AP_RUN (R146, R148) -/

/-- AP_RUN given `v`: 0 abandons the free-running aperture, 1 lets one start at the next sample (R146, R148). -/
def Dev.setApRun (d : Dev) (u : Nat) (v : Int) : Dev :=
  let was := d.flag C.AP_RUN u
  let d1 := d.wr C.AP_RUN u v
  let free := match (d.ch u).meas.ap with | some a => a.owner == ApOwner.free | none => false
  if v = 0 then (if free then d1.abandon u else d1).modMeas u fun m => { m with freeNext := false }
  else if was || (d.ch u).meas.ap.isSome || (d.ch u).meas.stepNext.isSome || !(d.ch u).ctl.st.integrates then d1
  else d1.modMeas u fun m => { m with freeNext := true, freeFrom := d.clk.tick + 1, lineSeen := false }

/-! ### Ending a run (R412, R414) -/

/-- Objects a run saves and restores, AP_RUN apart (R408, R414). -/
def crObjects : List Obj :=
  [C.MODE, C.SETPOINT, C.VCP, C.VCN, C.ICP, C.ICN, C.AR_I, C.AR_V, C.AR_UP, C.AR_UP_COUNT, C.AR_DOWN, C.AR_DWELL,
   C.RANGE_LOCK, C.AP_MODE, C.AP_LENGTH, C.LINE_FLUE, C.LINE_CYCLES, C.LINE_TIMEOUT, C.AP_TB]

/-- The values a run saves: AP_RUN, then those objects. -/
def Dev.crSave (d : Dev) (u : Nat) : List Int := d.rd C.AP_RUN u :: crObjects.map fun o => d.rd o u

/-- The saved values put back. -/
def Dev.crRestore (d : Dev) (u : Nat) (vs : List Int) : Dev :=
  let d1 := (crObjects.zip vs.tail).foldl (fun e x => e.wr x.1 u x.2) d
  (d1.setApRun u (vs.headD 1)).modCtl u fun c => { c with tgt := if c.st.code = 3 then c.tgt else d1.rd C.SETPOINT u }

/-- RUNNING clears once no restoring change is left (R414). -/
def Dev.crSettled (d : Dev) (u : Nat) : Dev :=
  let c := d.ch u
  let rest := fun (r : Rng) => r.ph == .steady && r.held.isNone && r.deferred.isNone
  if d.crRest.contains u && rest c.rngI && rest c.rngV then { d with crRest := d.crRest.filter (· ≠ u) } else d

/-- A saved range requested again unless it is in force with no change on its way (R414). -/
def Dev.crRange (d : Dev) (u : Nat) (volt : Bool) (j : Nat) : Dev :=
  let r := (d.ch u).rng volt
  if r.now = j && r.ph = .steady then d.wr (oRange volt) u j else d.rangeAsk u volt j false false

/-- A run's reading given up (R148, R409). -/
def Dev.crDrop (d : Dev) (u : Nat) : Dev :=
  (d.modMeas u fun m => { m with again := none, stepFirst := none }).dropStepAperture u |>.modMeas u fun m =>
    { m with stepRes := none }

/-- The run ended in CR_STATE `st` with CR_RESULT `res`: objects and ranges restored; a failure of causes 1 to 9
reported (R408, R412, R414, R426). The channel state is left as it is. -/
def Dev.crLeave (d : Dev) (st res : Nat) : Dev :=
  match d.cr with
  | none => d
  | some r =>
    let d1 := ({ d with cr := none, crRest := r.u :: d.crRest }.crDrop r.u).crRestore r.u r.vals
    let d2 := (d1.crRange r.u false r.rI).crRange r.u true r.rV
    let d3 := (((d2.wr D.CR_STATE 0 st).wr D.CR_RESULT 0 res).wr D.CR_POINT 0 0).wr D.CM_STATE 0 0
    let d4 := if st = 7 then d3.report 0x1732 r.u res else d3
    d4.crSettled r.u

/-- A channel has entered state `x`: a run that gave it another fails with cause 5 (R412). -/
def Dev.crStateLeft (d : Dev) (u : Nat) (x : ChState) : Dev :=
  match d.cr with
  | some r => if r.u = u && r.given ≠ x then d.crLeave 7 5 else d
  | none => d

end Sys2Proof.Machine
end

