-- ==== Sys2Proof/Machine/Channel.lean ====
section
/-! DEFINITION. Channel states (R36–R44): entering a state with everything that follows from it, hearths (R116–R134),
and the channel commands. -/

namespace Sys2Proof.Machine

open Sys2Proof

/-! ### What enters with a state (R37, R38) -/

/-- Whether a state regulates. -/
def ChState.reg : ChState → Bool
  | .source => true
  | .hold => true
  | _ => false

/-- The lock-in of a channel that enters state `x`: out of Monitor, Source and Hold its window is abandoned (R158). -/
def Meas.liEnter (m : Meas) (x : ChState) : Meas :=
  match x with
  | .monitor => m
  | .source => m
  | .hold => m
  | _ => { m with li := m.li.restart }

/-- The integrator of unit `u` on entering state `x` from `old` (R146, R148, R154). -/
def Dev.apEnter (d : Dev) (u : Nat) (old x : ChState) : Dev :=
  if !x.integrates then
    let d1 := d.abandon u
    d1.modMeas u fun m =>
      let m1 := { m with freeNext := false, lineSeen := false }
      if x = .calibrating then { m1.missing with stale := true } else m1
  else if !old.integrates then d.modMeas u fun m => 
    { m with freeNext := d.flag C.AP_RUN u, freeFrom := d.clk.tick + 1, lineSeen := false }
  else d

/-- Leaving regulation: outputs at rest, injection ended, a limit left with its exit event (R37, R38, R44, R87, R302). -/
def Dev.leaveReg (d : Dev) (u : Nat) (c : Cause) : Dev :=
  let d1 := if (d.ch u).ctl.limit.isSome then d.raiseC (srcCh u 1) c else d
  let d2 := d1.modCtl u Ctl.rest
  if d2.isMember u then d2.ilUpdate u else d2

/-- Unit `u` enters state `x`, events carrying what `c` gives them: the state with its notification, outputs, aperture,
lock-in, acquisition unit, fence event, and the start of regulation (R36–R44, R107, R245, R291). -/
def Dev.enter (d : Dev) (u : Nat) (x : ChState) (c : Cause := {}) : Dev :=
  let old := (d.ch u).ctl.st
  if old = x then d
  else Dev.crStateLeft (u := u) (x := x) <|
    let d0 := if old = .source && x ≠ .source then d.injEnd u 3 else d
    let d1 := d0.setChState u x
    let d2 := if old.reg && !x.reg then d1.leaveReg u c else d1
    let d3 := (d2.apEnter u old x).modMeas u fun m => m.liEnter x
    match x with
    | .source =>
      if old = .hold then d3.modCtl u fun k => { k with tgt := d3.rd C.SETPOINT u }
      else d3.modCtl u fun k =>
        { k with sw := .idle, band := d3.rd C.BAND u, tgt := d3.rd C.SETPOINT u, fresh := none, swapSlot := false,
                 trim := 0, hands := [], edgeAt := none }
    | .calibrating => d3.acqCut u 0x10
    | .fenced =>
      let cancel := fun (r : Rng) => match r.ph with | .pending _ => { r with ph := .steady, deferred := none }
                                                     | _ => { r with deferred := none }
      ((((d3.acqCut u 8).modRng u true cancel).modRng u false cancel).raiseC (srcCh u 12) c).ftAbortIf (d.ftHolds u)
    | _ => d3

/-! ### Hearths: who is active (R126, R128–R132) -/

/-- HS_FLAGS bit `b` of hearth `h` set. -/
def Dev.hsFlag (d : Dev) (h b : Nat) : Dev := d.wr C.HS_FLAGS h (d.rdN C.HS_FLAGS h ||| 2 ^ b : Nat)

/-- Leaves `us` leave the active set of top-level hearth `h` because they are fenced in this cv (R126, R128). -/
def Dev.leavesOut (d : Dev) (h : Nat) (us : List Nat) : Dev :=
  let gone := us.filter fun u => !(d.he h).out.contains u && !(d.he h).leaving.contains u
  if gone = [] then d
  else
    let d1 := d.modHe h fun x =>
      { x with leaving := x.leaving ++ gone, joining := x.joining.filter fun u => !gone.contains u,
               due := match x.due with | some t => some t | none => some (d.clk.tick + 3) }
    gone.foldl (fun e u => ((e.hsFlag h 1).raise (srcCh h 13)).report 0x1418 h u) d1

/-- A unit's sequence and injection on being fenced, and the unit's entry into Fenced; a hearth's active leaf leaves its
active set (R38, R82, R107, R128, R195). -/
def Dev.fenceCh (d : Dev) (u : Nat) (c : Cause := {}) : Dev :=
  if (d.ch u).ctl.st = .fenced then d
  else
    let d1 := (d.seqFail u 9).enter u .fenced c
    if d1.isMember u then d1.leavesOut (d1.topOf u) [u] else d1

/-- The hearth's capacity cut: DEGRADED set with its event when a cut first stands (R129). -/
def Dev.degrade (d : Dev) (h : Nat) : Dev :=
  if d.hearthCut h && !bit (d.rdN C.HS_FLAGS h) 2 then ((d.hsFlag h 2).raise (srcCh h 14)).report 0x1419 h 0 else d

/-- A leaf that becomes leader runs the hearth law from here on as at a hand-over (R70, R131). -/
def Dev.newLeader (d : Dev) (h l : Nat) : Dev :=
  let d1 := d.modCtl l fun c => { c with limit := none, trim := 0 }
  ((d1.hsFlag h 3).raise (srcCh h 15)).report 0x141A h l

/-- Hearth `h` fenced with its active leaves (R132). -/
def Dev.fenceHearth (d : Dev) (h : Nat) (c : Cause := {}) : Dev :=
  let us := d.active h
  let d1 := (d.seqFail h 9).enter h .fenced c
  let d2 := us.foldl (fun e u => (e.seqFail u 9).enter u .fenced c) d1
  d2.modHe h fun x => { x with fencedWith := us, cmds := [] }

/-- Fencing a unit of either kind; a hearth's leaves fenced with it leave the active set (R126, R132, R437). -/
def Dev.fenceUnit (d : Dev) (u : Nat) (c : Cause := {}) : Dev :=
  if u < 256 then d.fenceCh u c
  else if (d.ch u).ctl.st = .fenced then d
  else (d.fenceHearth u c).leavesOut (d.topOf u) (d.active u)

/-- The minimum of hearth `g`, which had `was` active leaves, checked as the active set of the top-level hearth `h` changes:
one that falls below it is fenced, and the leaves fenced with it leave the active set in the same cv (R132). -/
def Dev.checkMin (d : Dev) (h g was : Nat) : Dev :=
  let us := d.active g
  if (d.ch g).ctl.st = .fenced || decide (was ≤ us.length) || decide (d.rdN C.MIN_MEMBERS g ≤ us.length) then d
  else
    let d1 := ((d.fenceHearth g).report 0x141B g 0).modHe h fun x => { x with out := x.out ++ us }
    us.foldl (fun e u => ((e.hsFlag h 1).raise (srcCh h 13)).report 0x1418 h u) d1

/-- DEGRADED clears once no cut stands and the hearth is Off with a full active set (R129). -/
def Dev.undegrade (d : Dev) (h : Nat) : Dev :=
  if (d.ch h).ctl.st = .off && !d.hearthCut h && (d.he h).out = [] && bit (d.rdN C.HS_FLAGS h) 2 then
    d.wr C.HS_FLAGS h (setBit (d.rdN C.HS_FLAGS h) 2 false : Nat)
  else d

/-- The next active set of top-level hearth `h`: the leaves that left are out, those that rejoined are in (R128). -/
def Hearth.next (x : Hearth) : Hearth :=
  { x with
    out := (x.out ++ x.leaving.filter fun u => !x.out.contains u).filter fun u => !x.joining.contains u,
    leaving := [], joining := [], due := none }

/-- The leader of hearth `h` where the leaf `o` that led it is no longer active (R131). -/
def Dev.leadAnew (d : Dev) (h : Nat) (o : Option Nat) : Dev :=
  match d.leaderOf h, o with
  | some l, some o => if (d.active h).contains o then d else d.newLeader h l
  | _, _ => d

/-- The next active set, fractions, leader and capacity of top-level hearth `h` put in force, and the minimum of every
hearth in it checked, the innermost first (R128, R129, R131, R132). -/
def Dev.reshare (d : Dev) (h : Nat) : Dev :=
  let d1 := d.modHe h Hearth.next
  let d2 := (d1.hearthsIn h).reverse.foldl (fun e g => e.checkMin h g (d.active g).length) d1
  ((d2.leadAnew h (d.leaderOf h)).degrade h).undegrade h

/-- Leaf `u`, cleared, rejoins the active set of its top-level hearth: at once while that is Off (R126). -/
def Dev.rejoin (d : Dev) (u : Nat) : Dev :=
  let h := d.topOf u
  if h = u || (d.ch h).ctl.st ≠ .off || (d.ch u).ctl.st = .fenced || !(d.he h).out.contains u then d
  else d.modHe h fun x =>
    if x.joining.contains u then x
    else { x with joining := x.joining ++ [u], due := match x.due with | some t => some t | none => some (d.clk.tick + 3) }

/-- What a hearth does on being Off: its cleared leaves rejoin, and DEGRADED clears where it may (R126, R129). -/
def Dev.hearthOff (d : Dev) (h : Nat) : Dev := ((d.he h).out.foldl (fun e u => e.rejoin u) d).undegrade h

/-- Whether hearth `g`, within a hearth that enters state `x`, enters it with it: not while it is fenced, nor into a state
that no active leaf of its own shows (R38, R124). -/
def Dev.follows (d : Dev) (g : Nat) (x : ChState) : Bool :=
  decide ((d.ch g).ctl.st ≠ .fenced) && (decide (x = .off) || decide (d.active g ≠ []))

/-- A unit and, for a hearth, the hearths within it and its active leaves enter state `x` in the same cv (R124, R125). -/
def Dev.enterAll (d : Dev) (u : Nat) (x : ChState) (c : Cause := {}) : Dev :=
  if u < 256 then d.enter u x c
  else
    let d0 := ((d.hearthsIn u).drop 1).foldl (fun e g => if e.follows g x then e.enter g x c else e) (d.enter u x c)
    let d1 := (d.active u).foldl (fun e l => if (e.ch l).ctl.st = .fenced then e else e.enter l x c) d0
    if x = .off then d1.hearthOff u else d1

/-! ### Entry conditions (R40, R124, R173, R186, R501) -/

/-- Why STk_STAGE_EN is low: SE_BLOCK (R109). -/
def Dev.seBlock (d : Dev) (k : Nat) : Nat :=
  let s := d.st k
  if !d.pdOn (256 + k) then 4
  else if s.fenced then 3
  else if !s.ilk then 2
  else if !d.flag S.SE_CMD k then 1
  else if s.extLow then 5
  else 0

/-- The level at STk_STAGE_EN (R109, R110). -/
def Dev.sePin (d : Dev) (k : Nat) : Bool := d.seBlock k = 0

/-- Whether the test DAC of the channel's stove is routed to it (R186). -/
def Dev.tdRouted (d : Dev) (u : Nat) : Bool :=
  d.rd S.TD_ROUTE (stoveOf u) ≠ 0 && d.rd S.TD_CHANNEL (stoveOf u) = (posOf u : Int)

/-- Both compliance pairs ordered (R40). -/
def Dev.complOk (d : Dev) (u : Nat) : Bool :=
  decide (d.rd C.ICN u < d.rd C.ICP u) && decide (d.rd C.VCN u < d.rd C.VCP u)

/-- Whether one role of the channel is held by a failed converter with no spare (R173). -/
def Dev.convFailed (d : Dev) (u : Nat) : Bool :=
  let n := (d.st (stoveOf u)).noSpare
  bit n (roleOf u true) || bit n (roleOf u false)

/-- R40 for a physical channel, its compliance and membership apart; R173, R186. -/
def Dev.readyCh (d : Dev) (u : Nat) : Bool :=
  let k := stoveOf u
  d.sePin k && (d.st k).ilk && d.pdOn u && d.pdOn (256 + k) && !d.flag C.LP_MODE u && !d.convFailed u && !d.tdRouted u

/-- Whether SOURCE is accepted for a unit that is no member, as far as its conditions go (R40, R124). -/
def Dev.sourceOk (d : Dev) (u : Nat) : Bool :=
  !d.isMember u && d.complOk u &&
  (if u < 256 then d.readyCh u
   else decide (0 < d.levelOf u) && decide (d.rdN C.MIN_MEMBERS u ≤ (d.active u).length) &&
     (d.active u).all fun l => d.readyCh l && decide ((d.ch l).ctl.st = .off ∨ (d.ch l).ctl.st = .monitor))

/-! ### Channel commands (R36–R43, R124, R125) -/

/-- The codes of CH_CMD (R36). -/
inductive ChCmd where
  | off
  | monitor
  | source
  | hold
  | resume
  | calibrate
  deriving DecidableEq, Repr

/-- The state a command names; RESUME names none (R39). -/
def ChCmd.target : ChCmd → Option ChState
  | .off => some .off
  | .monitor => some .monitor
  | .source => some .source
  | .hold => some .hold
  | .calibrate => some .calibrating
  | .resume => none

/-- Whether R38 lists a command for a state, entry conditions apart. -/
def ChCmd.listed (x : ChCmd) (s : ChState) : Bool :=
  match s, x with
  | .off, .monitor => true
  | .off, .source => true
  | .off, .calibrate => true
  | .monitor, .off => true
  | .monitor, .source => true
  | .source, .hold => true
  | .hold, .resume => true
  | .source, .off => true
  | .source, .monitor => true
  | .hold, .off => true
  | .hold, .monitor => true
  | _, _ => false

/-- The code of a command (R36). -/
def ChCmd.code : ChCmd → Nat
  | .off => 1
  | .monitor => 2
  | .source => 3
  | .hold => 4
  | .resume => 5
  | .calibrate => 6

/-- The command of a CH_CMD code (R36). -/
def ChCmd.ofCode (v : Int) : Option ChCmd :=
  match v with
  | 1 => some .off
  | 2 => some .monitor
  | 3 => some .source
  | 4 => some .hold
  | 5 => some .resume
  | 6 => some .calibrate
  | _ => none

/-- The state a unit's commands are judged by: the one that a command still on its way to a hearth's leaves leaves it in
(R29, R124). -/
def Dev.stateFor (d : Dev) (u : Nat) : ChState :=
  if u < 256 then (d.ch u).ctl.st
  else match (d.he u).cmds.getLast? with
    | none => (d.ch u).ctl.st
    | some x => match ChCmd.ofCode x.code with
      | some y => (y.target).getD .source
      | none => (d.ch u).ctl.st

/-- The answer to a channel command of a unit: STATE where it is refused (R38–R42, R124, R125). -/
def Dev.chCheck (d : Dev) (u : Nat) (x : ChCmd) : Status :=
  let s := d.stateFor u
  if d.isMember u then .state
  else if x.target = some s then .ok
  else if !x.listed s then .state
  else if x = .source && d.ftHolds u then .busy
  else if x = .source && !d.sourceOk u then .state
  else if decide (256 ≤ u) && decide (d.levelOf u = 0) then .state
  else .ok

/-- A channel command carried out: `eng` where a step of the unit's own engine issued it, which does not stop the engine
(R38, R41, R125, R195, R196). -/
def Dev.chDo (d : Dev) (u : Nat) (x : ChCmd) (eng : Bool) (c : Cause := {}) : Dev :=
  match x with
  | .off => (if eng then d else d.seqStop u).enterAll u .off c
  | .monitor => (if eng then d else d.seqStop u).enterAll u .monitor c
  | .source => d.enterAll u .source c
  | .hold => (d.seqPause u).enterAll u .hold c
  | .resume => (d.enterAll u .source c).seqResume u
  | .calibrate =>
    let d1 := ((d.active u).foldl (fun e l => e.seqStop l) (d.seqStop u)).enterAll u .calibrating c
    { d1 with cals := d1.cals ++ [⟨d1.clk.tick + 2100000, d.active u, [], false⟩] }

/-- Whether the active leaves of a unit lie in more than one stove (R124). -/
def Dev.inStoves (d : Dev) (u : Nat) : Bool :=
  decide (1 < (((d.active u).map stoveOf).eraseDups).length)

/-- The effect of an accepted channel command; a hearth with leaves in more than one stove carries it out 2 cv later
(R38, R124). -/
def Dev.chApply (d : Dev) (u : Nat) (x : ChCmd) (eng : Bool) (c : Cause := {}) : Dev :=
  if x.target = some (d.stateFor u) then d
  else if 256 ≤ u && d.inStoves u then
    d.modHe u fun y => { y with cmds := y.cmds ++ [⟨x.code, (d.stateFor u).code, eng, c, d.clk.tick + 2⟩] }
  else d.chDo u x eng c

/-- A hearth's command carried out, unless the hearth has left the state it was given in (R38, R124). -/
def Dev.landCmd (d : Dev) (h : Nat) (x : HearthCmd) : Dev :=
  match ChCmd.ofCode x.code with
  | some y => if (d.ch h).ctl.st.code = x.inState && !d.isMember h then d.chDo h y x.eng x.cause else d
  | none => d

/-- The commands of hearth `h` that are due carried out (R124). -/
def Dev.landCmds (d : Dev) (h : Nat) : Dev :=
  let t := d.clk.tick
  let go := (d.he h).cmds.filter fun x => decide (x.due ≤ t)
  go.foldl (fun e x => e.landCmd h x) (d.modHe h fun y => { y with cmds := y.cmds.filter fun x => decide (t < x.due) })

/-- What is due by now has been done: every command of the device finds it so (R124). -/
def Dev.settle (d : Dev) : Dev :=
  (d.hearths.filter fun e => e.2.cmds.any fun x => decide (x.due ≤ d.clk.tick)).foldl (fun e x => e.landCmds x.1) d

/-- DEGRADED of every top-level hearth as the cuts stand after a write (R129). -/
def Dev.watchCuts (d : Dev) : Dev :=
  (d.hearths.filter fun e => !d.isMember e.1).foldl (fun e x => (e.degrade x.1).undegrade x.1) d

/-- A state with its device changed; what was due is done before. -/
def State.on (s : State) (f : Dev → Dev) : State := { s with dev := f s.dev.settle }

/-- A unit taken Off by the interlock or by STAGE_EN: Source and Hold go Off with the engine in Error 10; a member is
fenced (R38, R111, R113, R126, R195). -/
def Dev.dropCh (d : Dev) (u : Nat) : Dev :=
  if !(d.ch u).ctl.st.reg then d
  else if d.isMember u then d.fenceCh u
  else (d.seqFail u 10).enterAll u .off

/-- Every channel of stove `k` that regulates taken Off or, as a member, fenced (R111, R113, R126). -/
def Dev.dropStove (d : Dev) (k : Nat) : Dev := (List.range 16).foldl (fun e p => e.dropCh (16 * k + p)) d

/-- A unit in Source put on Hold by lease expiry, flue-less causes or an ownership split (R38, R375). -/
def Dev.holdUnit (d : Dev) (u : Nat) : Dev :=
  if (d.ch u).ctl.st = .source && !d.isMember u then d.chApply u .hold false else d

end Sys2Proof.Machine
end

