-- ==== Sys2Proof/Machine/Access.lean ====
section
/-! DEFINITION. Access to the object dictionary: who may read and write what, the order of the status codes, the values
an object accepts, and the bytes of a value (R347–R354, R378–R382). -/

namespace Sys2Proof.Machine

open Sys2Proof

/-! ### Order of the codes (R349) -/

/-- The code with the lower number of two, OK aside (R349). -/
def Status.first (a b : Status) : Status :=
  if a = .ok then b else if b = .ok then a else if b.code < a.code then b else a

/-- The first code in the order of R349 among several refusals, OK where there is none. -/
def firstOf (xs : List Status) : Status := xs.foldl Status.first .ok

/-- The refusal `x` where `c` holds. -/
def Status.when (x : Status) (c : Bool) : Status := if c then x else .ok

/-! ### Whether an access reaches the dictionary -/

/-- Objects that are read while the device boots (R484). -/
def bootReads (ix : Nat) : Bool :=
  (decide (0x1000 ≤ ix) && decide (ix ≤ 0x1002)) || ix == 0x2000 || ix == 0x2002 ||
    (decide (0x2021 ≤ ix) && decide (ix ≤ 0x2023))

/-- Objects the island serves by itself (R492). -/
def islandServes (ix : Nat) : Bool :=
  ix == 0x1000 || ix == 0x1001 || ix == 0x2021 || ix == 0x2304 || ix == 0x2600 || ix == 0x2602 || ix == 0x2603

/-- Objects the console's own commands write in the scopes without the device: TP, RATE, BOOT and RESET (R491). -/
def consoleWrites (ix : Nat) : Bool := ix == 0x2001 || ix == 0x2600 || ix == 0x2603

/-- Whether the port of a party answers nothing: it is fenced, or under the host-link test (R437, R502). -/
def Dev.fencedParty (d : Dev) (p : Party) : Bool :=
  match p.port? with
  | some n => bit d.portFenced n || d.ftOnPort n
  | none => false

/-- Whether an access of a party to index `ix` is served at all: no answer from a fenced port, a device in reset or a
console without its supply; BUSY until DS_STATE is 1 (R437, R459, R484, R490–R492). -/
def Dev.gate (d : Dev) (p : Party) (ix : Nat) (write : Bool) : Status :=
  if d.fencedParty p || (p == .console && !d.pwr.vsrv) then .noAnswer
  else if d.rd D.DS_STATE 0 = 1 then .ok
  else match p with
    | .console =>
      if d.held then Status.state.when (!islandServes ix)
      else Status.busy.when (!(bootReads ix && !write) && !consoleWrites ix)
    | _ => if d.held then .noAnswer else Status.busy.when (write || !bootReads ix)

/-! ### Levels (R352–R354) -/

/-- The owner code of a port: 1 for A, 2 for B. -/
def ownerCode (p : Party) : Nat :=
  match p with
  | .a => 1
  | .b => 2
  | .console => 0

/-- Whether a party holds Service level: the console, or a port under a grant (R353, R354). -/
def Dev.service (d : Dev) (p : Party) : Bool :=
  match p.port? with
  | none => true
  | some n => bit (d.rdN D.GRANT_PORTS 0) n && decide (d.clk.cc < d.grantDue)

/-- The answer to a write at Operator or Owner level on a unit (R353, R375). -/
def Dev.unitLevel (d : Dev) (p : Party) (u : Nat) : Status :=
  if d.disputed u then (if p = .console then .ok else .split)
  else if p = .console || d.ownerFor p u == ownerCode p then .ok
  else .notOwner

/-- Objects of which each port writes its own only (R353). -/
def portOwn (ix : Nat) : Bool :=
  ix / 2 == 0x1100 / 2 || ix / 2 == 0x1300 / 2 || ix / 2 == 0x1310 / 2 || ix / 2 == 0x2110 / 2 ||
    ix / 2 == 0x2118 / 2 || ix / 2 == 0x2120 / 2

/-- The answer to a write at a level (R352–R354). -/
def Dev.levelOk (d : Dev) (p : Party) (o : Obj) (u : Nat) : Status :=
  match o.lvl with
  | .observer => .ok
  | .service =>
    if o.index u = 0x2012 || o.index u = 0x2011 then Status.level.when (decide (p ≠ .console))
    else Status.level.when (!d.service p)
  | _ =>
    match o.blk with
    | .chan => d.unitLevel p u
    | .stove => .ok
    | .dev =>
      match p.port? with
      | none => .ok
      | some n => Status.level.when (portOwn (o.index u) && decide (o.index u % 2 ≠ n))

/-! ### Values (R6, R7, R381, R534) -/

/-- Bytes of a type; none for the types of variable size. -/
def Ty.size : Ty → Option Nat
  | .bool => some 1
  | .u8 => some 1
  | .u16 => some 2
  | .u32 => some 4
  | .u64 => some 8
  | .i8 => some 1
  | .i16 => some 2
  | .i32 => some 4
  | .i64 => some 8
  | .f32 => some 4
  | .f64 => some 8
  | .str n => some n
  | .domain => none
  | .time96 => some 12

/-- Whether a number is a value of a type, an F32 or F64 by its bits (R381). -/
def Ty.holds (t : Ty) (v : Int) : Bool :=
  let un := fun (w : Nat) => decide (0 ≤ v) && decide (v < 2 ^ w)
  let sg := fun (w : Nat) => decide (-(2 ^ (w - 1)) ≤ v) && decide (v < 2 ^ (w - 1))
  match t with
  | .bool => v == 0 || v == 1
  | .u8 => un 8
  | .u16 => un 16
  | .u32 => un 32
  | .u64 => un 64
  | .i8 => sg 8
  | .i16 => sg 16
  | .i32 => sg 32
  | .i64 => sg 64
  | .f32 => un 32 && !f32Bad v
  | .f64 => un 64 && !f64Bad v
  | .str n => un (8 * n)
  | .domain => false
  | .time96 => decide (0 ≤ v) && decide (v < 2 ^ 64 * 1000000000)

/-- Whether an object accepts a value (its Meaning column). -/
def Dom.accepts (x : Dom) (v : Int) : Bool :=
  match x with
  | .any => true
  | .range lo hi => decide (lo ≤ v) && decide (v ≤ hi)
  | .orNone hi n => (decide (0 ≤ v) && decide (v ≤ hi)) || v == n
  | .zeroOr lo hi => v == 0 || (decide (lo ≤ v) && decide (v ≤ hi))
  | .oneOf vs => vs.contains v
  | .keep _ => true
  | .counter => v == 0
  | .w1c _ => true
  | .special => true

/-- The value an object keeps of a write: reserved bits are ignored, a sticky flag is cleared by a 1 (R7, R534). -/
def Dom.kept (x : Dom) (old v : Int) : Int :=
  match x with
  | .keep m => ((v.toNat &&& m : Nat) : Int)
  | .w1c m => ((old.toNat - (old.toNat &&& v.toNat &&& m) : Nat) : Int)
  | _ => v

/-- A number's bytes in a type, least significant first (R381). -/
def Ty.encode (t : Ty) (v : Int) : List Byte :=
  match t with
  | .time96 => natLe 8 (v.toNat / 1000000000) ++ natLe 4 (v.toNat % 1000000000)
  | .domain => []
  | _ => match t.size with
    | some n => natLe n (toU (8 * n) v)
    | none => []

/-- The value that bytes of the right number spell in a type; none where no value of the type is spelt, a TIME96 with too
many nanoseconds or a STR with a byte that does not print (R381). -/
def Ty.decode (t : Ty) (bs : List Byte) : Option Int :=
  let n := leNat bs
  match t with
  | .i8 => some (ofTwos 8 n)
  | .i16 => some (ofTwos 16 n)
  | .i32 => some (ofTwos 32 n)
  | .i64 => some (ofTwos 64 n)
  | .time96 =>
    let s := leNat (bs.take 8)
    let f := leNat (bs.drop 8)
    if f < 1000000000 then some ((s * 1000000000 + f : Nat) : Int) else none
  | .str _ =>
    if (bs.takeWhile fun b => b.toNat ≠ 0).all fun b => decide (0x20 ≤ b.toNat) && decide (b.toNat ≤ 0x7E) then
      some (n : Int) else none
  | _ => some (n : Int)

/-! ### The checks of one write and one read -/

/-- Whether the row of an object covers subindex `o.sub + i` of unit `u`, and the unit has it (R379, R387, R416). -/
def Obj.there (o : Obj) (u i : Nat) : Bool :=
  decide (i < o.nsubs) &&
  match o.blk with
  | .chan =>
    if o.off = 0x28 || o.off = 0x29 then decide (u < 256)
    else if 0x38 ≤ o.off then decide (256 ≤ u) && decide (u < 384) else decide (u < 384)
  | .stove => decide (u < 16)
  | .dev => decide (u < o.ninst)

/-- Objects a hearth's member refuses: CH_CMD, RANGE, AUTORANGE and the coefficients (R72, R118). -/
def memberRefuses (o : Obj) : Bool :=
  o.off == 0x01 || o.off == 0x03 || o.off == 0x04 || o.off == 0x05 || o.off == 0x06 || o.off == 0x07 || o.off == 0x08 ||
    o.off == 0x09 || (o.off == 0x0B && (o.sub == 2 || o.sub == 3)) || o.off == 0x0C || o.off == 0x0D || o.off == 0x0F

/-- Objects of a channel that a path-calibration run keeps from being written (R414). -/
def calRefuses (o : Obj) : Bool :=
  o.off == 0x01 || o.off == 0x02 || o.off == 0x03 || o.off == 0x04 || o.off == 0x05 || o.off == 0x06 || o.off == 0x12

/-- Objects of RANGE_MAP, which a hearth only reads (R121, R387). -/
def hearthRo (o : Obj) (u : Nat) : Bool :=
  decide (o.blk = .chan) && decide (256 ≤ u) && (o.off == 0x30 || o.off == 0x31 || o.off == 0x32)

/-- State-dependent refusals that go by the object: a member's, a calibration run's, and RWS outside Off
(R72, R118, R414; "Objects" of chapter 0). -/
def Dev.stateOk (d : Dev) (o : Obj) (u : Nat) (v : Int) : Status :=
  if o.blk ≠ .chan then .ok
  else
    let busy := d.calHolds u && calRefuses o && !(o.off == 0x01 && (v == 0 || v == 1))
    firstOf [Status.state.when (d.isMember u && memberRefuses o),
      Status.state.when (decide (o.acc = .rws) && decide ((d.ch u).ctl.st ≠ .off)), Status.busy.when busy]

/-- The answer to a write of `v` to subindex `o.sub + i`, as far as it goes by the object's row: what the row's chapter
adds is `extra` (R349). -/
def Dev.writeStatus (d : Dev) (p : Party) (o : Obj) (u i : Nat) (v : Int) (extra : Status) : Status :=
  match d.gate p (o.index u) true with
  | .ok =>
    if !o.there u i then .noObject
    else firstOf [Status.access.when (o.acc == .ro || o.acc == .const_ || hearthRo o u), d.levelOk p o u,
      Status.value.when (!o.ty.holds v || !o.dom.accepts v), d.stateOk o u v, extra]
  | x => x

/-- A write carried out, or refused with its status and nothing else changed (R347, R349). -/
def Dev.write (d : Dev) (p : Party) (o : Obj) (u i : Nat) (v : Int) (extra : Status) (eff : Dev → Dev) : Dev :=
  match d.writeStatus p o u i v extra with
  | .ok => (eff d).watchCuts.say .ok
  | x => d.say x

/-- The answer to a read. -/
def Dev.readStatus (d : Dev) (p : Party) (o : Obj) (u i : Nat) : Status :=
  match d.gate p (o.index u) false with
  | .ok => if !o.there u i then .noObject else Status.access.when (o.acc == .wo)
  | x => x

/-- A read served: the value `v`, and what reading it does (R347, R352). -/
def Dev.read (d : Dev) (p : Party) (o : Obj) (u i : Nat) (extra : Status) (v : Val) (eff : Dev → Dev) : Dev :=
  match firstOf [d.readStatus p o u i, extra] with
  | .ok => (eff d).give v
  | x => d.say x

/-- The plain effect of a write: the value the object keeps. -/
def Dev.store (d : Dev) (o : Obj) (u i : Nat) (v : Int) : Dev := d.wri o u i (o.dom.kept (d.rdi o u i) v)

/-- Objects a hearth writes to its leaves as well (R133, R387). -/
def leafCopied (o : Obj) : Bool :=
  (o.off == 0x02 && o.sub == 2) || o.off == 0x07 || o.off == 0x08 || o.off == 0x09 || o.off == 0x0B || o.off == 0x0C ||
    o.off == 0x0F

/-- The plain effect of a write on a channel object: on a hearth's own copy and on every leaf where R133 says so. -/
def Dev.storeCh (d : Dev) (o : Obj) (u i : Nat) (v : Int) : Dev :=
  let d1 := d.store o u i v
  if 256 ≤ u && leafCopied o then (d.leaves u).foldl (fun e l => e.store o l i v) d1 else d1

/-- A command refused or carried out, where no object's value is written. -/
def Dev.attempt (d : Dev) (x : Status) (eff : Dev → Dev) : Dev :=
  match x with
  | .ok => (eff d).say .ok
  | y => d.say y

end Sys2Proof.Machine
end

