-- ==== Sys2Proof/Machine/FlueOps.lean ====
section
/-! DEFINITION. Levels of flues, gates and event pins (R288–R298, R308, R309). -/

namespace Sys2Proof.Machine

open Sys2Proof

/-- EVI_CFG of pin `i` (R308). -/
def Dev.eviCfg (d : Dev) (i : Nat) : Nat := d.rdiN D.EVI_CFG 0 i

/-- Level of pin EVIi: 0 while EN is clear, else the filtered ball after INV (R308). -/
def Dev.eviLevel (d : Dev) (i : Nat) : Bool :=
  let c := d.eviCfg i
  bit c 15 && (bit d.evi i != bit c 14)

/-- The level a source gives (R291, R292, R308). -/
def Dev.srcLevel (d : Dev) (src : Nat) : Bool :=
  if src < 0x1800 then
    let u := src / 16
    let e := src % 16
    if e = 0 then
      (match (if u < 256 then some u else d.leaderOf u) with
       | some l => (d.ch l).ctl.limit.isSome
       | none => false)
    else if e = 12 then (d.ch u).ctl.st == .fenced
    else e == 14 && bit (d.rdN C.HS_FLAGS u) 2
  else if src < 0x1A00 then
    let k := (src - 0x1800) / 32
    let e := (src - 0x1800) % 32
    if e < 12 then bit (d.st k).cmp e else e == 14 && !(d.st k).ilk
  else if 0x1A50 ≤ src && decide (src < 0x1A60) then d.eviLevel (src - 0x1A50)
  else src == srcDev 2 && d.fltLow

/-- The record of flue `f`. -/
def Dev.flue (d : Dev) (f : Nat) : Flue := SMap.get {} d.flues f

/-- Level of flue `f`: its software level or the level of a source routed to it (R288). -/
def Dev.flueLevel (d : Dev) (f : Nat) : Bool :=
  (d.flue f).soft || d.routes.any fun e => e.2 == f && d.srcLevel e.1

/-- Whether the gate of consumer `c` is open (R297, R298). -/
def Dev.gateOpen (d : Dev) (c : Nat) : Bool :=
  let g := (d.cons c).gate
  let n := g % 1024
  match bits g 15 14 with
  | 1 => d.flueLevel n != bit g 13
  | 2 => d.eviLevel n != bit g 13
  | _ => true

/-- EVO_CFG of pin `i` (R309). -/
def Dev.evoCfg (d : Dev) (i : Nat) : Nat := d.rdiN D.EVO_CFG 0 i

/-- The level pin EVOi is driven to: low while EN is clear; the pulse, the gated level or the toggled level after INV
(R309). -/
def Dev.evoLevel (d : Dev) (i : Nat) : Bool :=
  let c := d.evoCfg i
  let x := SMap.get {} d.evo i
  let raw := match bits c 29 28 with
    | 0 => x.ends.isSome
    | 1 => d.flueLevel (bits c 25 16) && d.gateOpen (0x1910 + i)
    | _ => x.tog
  bit c 31 && (raw != bit c 30)

/-- LI_REF's generator: the unit whose sine generator is the reference of `u` (R155). -/
def Dev.liRef (d : Dev) (u : Nat) : Nat := if d.rd C.LI_REF u = 0xFFFF then u else d.rdN C.LI_REF u

/-- The reference in force: a running generator no faster than f_cv/16, or f_cv/64 in the low-power mode (R156). -/
def Dev.liSine (d : Dev) (u : Nat) : Option Sine :=
  match (d.sq (d.liRef u)).sine with
  | none => none
  | some s => if s.f ≤ (if d.flag C.LP_MODE u then 2 ^ 42 else 2 ^ 44) then some s else none

/-- Whether the lock-in of a unit is on: LI_EN, or a step's wait (R155, R209). -/
def Dev.liOn (d : Dev) (u : Nat) : Bool := d.flag C.LI_EN u || (d.sq u).z == .waiting

/-- LI_STATUS (R155). -/
def Dev.liStatus (d : Dev) (u : Nat) : Nat :=
  let l := (d.ch u).meas.li
  if (d.liSine u).isNone then 0
  else match l.ph with
    | .idle => 0
    | .integrating => if l.weak then 4 else if l.valid then 3 else 2
    | _ => 1

/-- The lock-ins that take the generator of `g` as their reference start their settle count again (R158). -/
def Dev.liRestart (d : Dev) (g : Nat) : Dev :=
  let us := g :: (d.chans.map Prod.fst).filter fun u => u != g && d.liRef u == g
  us.foldl (fun e u => if e.liRef u = g then e.modMeas u fun m => { m with li := m.li.restart } else e) d

/-- The generator of engine `u` set to `x`, lock-ins restarted where its frequency changes, or it starts or stops
(R158, R215). -/
def Dev.setSine (d : Dev) (u : Nat) (x : Option Sine) : Dev :=
  let old := (d.sq u).sine
  let d1 := d.modSq u fun q => { q with sine := x }
  if (old.map Sine.f) = (x.map Sine.f) then d1 else d1.liRestart u

/-- Whether a write to object `o` is a coefficient's (R72). -/
def isCoef (o : Obj) : Bool :=
  o.off == 0x03 || o.off == 0x04 || o.off == 0x07 || o.off == 0x08 || (o.off == 0x09 && o.sub == 1) ||
    (o.off == 0x0B && (o.sub == 2 || o.sub == 3)) || o.off == 0x0C || o.off == 0x0D || o.off == 0x0F

/-- The coefficients of channel `u` and of object `o` noted before a write in this cv, once each (R72). -/
def Dev.noteOld (d : Dev) (o : Obj) (u i : Nat) : Dev :=
  let s : Olds := if d.olds.at_ = d.clk.tick then d.olds else { at_ := d.clk.tick }
  let k := o.key u i
  let c := (d.ch u).ctl
  let s1 := if s.vals.any fun e => e.1 == k then s else { s with vals := (k, o.default u i, d.rdi o u i) :: s.vals }
  let s2 := if s1.chs.any fun e => e.1 == u then s1 else { s1 with chs := (u, c.tgt, c.band, c.ff) :: s1.chs }
  { d with olds := s2 }

/-- Decision `f` of a slot run on the coefficients as they stood before the writes of its own cv, which come into force
after it (R72). -/
def Dev.withOlds (d : Dev) (f : Dev → Dev) : Dev :=
  if d.olds.at_ ≠ d.clk.tick then f d
  else
    let s := d.olds
    let d1 := { d with dict := s.vals.foldl (fun m e => SMap.set e.2.1 m e.1 e.2.2) d.dict }
    let d2 := s.chs.foldl (fun e x => e.modCtl x.1 fun c => { c with tgt := x.2.1, band := x.2.2.1, ff := x.2.2.2 }) d1
    let d3 := f d2
    let d4 := { d3 with dict := s.vals.foldl (fun m e => SMap.set e.2.1 m e.1 (SMap.get e.2.1 d.dict e.1)) d3.dict }
    s.chs.foldl (fun e x =>
      let c0 := (d.ch x.1).ctl
      e.modCtl x.1 fun c =>
        { c with
          tgt := if c0.tgt = x.2.1 then c.tgt else c0.tgt, band := if c0.band = x.2.2.1 then c.band else c0.band,
          ff := c0.ff }) d4

end Sys2Proof.Machine
end

