-- ==== Sys2Proof/Machine/StepOps.lean ====
section
/-! DEFINITION. What the steps of a Sahiol program and the points of a sweep do (R199–R220). -/

namespace Sys2Proof.Machine

open Sys2Proof

/-! ### Starting a step (R195, R199, R201) -/

/-- Opcodes of R200. -/
def opKnown (op : Nat) : Bool := (decide (1 ≤ op) && decide (op ≤ 11)) || (decide (16 ≤ op) && decide (op ≤ 19))

/-- The step with opcode `op` at PC started in its slot: nothing where the engine is not at such a step; Armed where it
waits for its flue; error 1 where the opcode is undefined, or a Limtur one with LIMTUR clear (R195, R198, R199, R201).
`f` is what the step does, given its words and its slot. -/
def Dev.runStep (d : Dev) (m : Mem) (u op : Nat) (f : Dev → List Nat → Nat → Dev) : Dev :=
  let q := d.sq u
  if q.st ≠ .running || q.step ≠ .none then d
  else
    let ws := stepWords m q.nextPc
    let o := wd ws 0 / 2 ^ 24
    if opKnown o && o ≠ op then d
    else
      let d1 := ((d.syncTarget u (q.slot - 1)).reachSlot u q.slot).modSq u fun q => { q with pc := q.nextPc }
      if bit (wd ws 0) 15 && !q.armed then d1.modSq u fun q => { q with st := .armed }
      else
        let d2 := d1.modSq u fun q =>
          { q with steps := (q.steps + 1) % 2 ^ 32, words := ws, at_ := q.slot, armed := false, met := false, z := .no,
                   blkN := 0, blkSum := 0 }
        if !opKnown o || (decide (16 ≤ o) && !d.flag C.LIMTUR u) then d2.seqError u 1 else f d2 ws q.slot

/-- The slot of a step as a boundary for pending factors: with an aperture of its own, or with no free-running one open
(R402). -/
def Dev.stepBoundary (d : Dev) (u slot : Nat) (own : Bool) : Dev :=
  if own || (d.ch u).meas.ap.isNone then d.boundary u (slot + 1) else d

/-! ### Values of a step or point (R48, R196, R202, R537) -/

/-- The channel whose control engine regulates for a unit: itself, or the hearth's leader. -/
def Dev.regUnit (d : Dev) (u : Nat) : Nat := if u < 256 then u else (d.leaderOf u).getD u

/-- MODE set by a step; regulation in a limit ends with a change of it (R48, R537). -/
def Dev.stepMode (d : Dev) (u v : Nat) : Dev :=
  if d.rd C.MODE u = (v : Int) then d
  else
    let d1 := d.wr C.MODE u v
    let l := d1.regUnit u
    let c := (d1.ch l).ctl
    if c.regulating then
      let d2 := d1.modCtl l fun c => { c with limit := none, trim := 0 }
      if c.limit.isSome then d2.raiseC (srcCh l 1) (d2.sq u).cause else d2
    else d1

/-- The limits of the mode in force set by a step or point (R200). -/
def Dev.stepLimits (d : Dev) (u : Nat) (hi lo : Int) : Dev :=
  if d.rd C.MODE u = 1 then (d.wr C.VCP u hi).wr C.VCN u lo else (d.wr C.ICP u hi).wr C.ICN u lo

/-- BAND set, in the object and in force, in a unit and the leaves of a hearth (R62, R133, R200). -/
def Dev.setBand (d : Dev) (u : Nat) (v : Int) : Dev :=
  (u :: (if u < 256 then [] else d.leaves u)).foldl
    (fun e l => (e.wr C.BAND l v).modCtl l fun c => { c with band := v }) d

/-- A target given by a FORCE, a DC point or the start of a RAMP or PLAY ends the generator (R215). -/
def Dev.takeTarget (d : Dev) (u : Nat) (x : Int) : Dev := (d.setSine u none).setTarget u x

/-- The ranges a step or point asks for that are not in force, as pairs of variable and range; 0xFF keeps (R200, R203). -/
def Dev.wantRanges (d : Dev) (u rI rV : Nat) : List (Bool × Nat) :=
  (if rI = 255 || rI = (d.ch u).rngI.now then [] else [(false, rI)]) ++
  (if rV = 255 || rV = (d.ch u).rngV.now then [] else [(true, rV)])

/-- The error of a step's or point's ranges: 13 not present, 14 with LINK_FAULT set in the channel or in every active leaf
(R198, R202, R203). -/
def Dev.rangeErr (d : Dev) (u rI rV : Nat) : Nat :=
  if (rI ≠ 255 && decide (d.ranges u false ≤ rI)) || (rV ≠ 255 && decide (d.ranges u true ≤ rV)) then 13
  else if d.wantRanges u rI rV ≠ [] && (d.active u).all fun l => (d.st (stoveOf l)).link.fault then 14
  else 0

/-- The changes asked for; an active leaf of a hearth with LINK_FAULT is fenced as one whose change has failed
(R122, R123). -/
def Dev.askRanges (d : Dev) (u : Nat) (rs : List (Bool × Nat)) : Dev :=
  let bad := if u < 256 then [] else (d.active u).filter fun l => (d.st (stoveOf l)).link.fault
  let d1 := bad.foldl (fun e l => e.fenceCh l) d
  (rs.foldl (fun e r => e.rangeAsk u r.1 r.2 false false) d1).followLeader u

/-! ### FORCE (R202) -/

/-- The error of a FORCE's fields, 0 for none (R198, R202). -/
def Dev.forceErr (d : Dev) (u : Nat) (ws : List Nat) : Nat :=
  let fl := bits (wd ws 0) 23 16
  if bit fl 0 && decide (1 < bits (wd ws 1) 7 0) then 1
  else if bit fl 2 && decide (s32 (wd ws 3) ≤ s32 (wd ws 4)) then 4
  else if bit fl 3 then d.rangeErr u (bits (wd ws 1) 15 8) (bits (wd ws 1) 23 16)
  else 0

/-- The mode, limits, band and target of a FORCE (R200, R202). -/
def Dev.forceFields (d : Dev) (u : Nat) (ws : List Nat) : Dev :=
  let fl := bits (wd ws 0) 23 16
  let d1 := if bit fl 0 then d.stepMode u (bits (wd ws 1) 7 0) else d
  let d2 := if bit fl 2 then d1.stepLimits u (s32 (wd ws 3)) (s32 (wd ws 4)) else d1
  let d3 := if bit fl 4 then d2.setBand u (wd ws 5) else d2
  if bit fl 1 then d3.takeTarget u (s32 (wd ws 2)) else d3

/-- A FORCE applied in the slot of tick `slot`: fields and state together, error 3 where SOURCE is refused; the step is
complete (R201, R202). -/
def Dev.forceApply (d : Dev) (u slot : Nat) : Dev :=
  let ws := (d.sq u).words
  let d1 := d.forceFields u ws
  let go := fun (x : ChCmd) => if d1.chCheck u x = .ok then d1.chApply u x true (d1.sq u).cause else d1
  match bits (wd ws 0) 22 21 with
  | 1 => if d1.chCheck u .source = .ok then (go .source).seqAdvance u (slot + 1) else d.seqError u 3
  | 2 => (go .monitor).seqAdvance u (slot + 1)
  | 3 => (go .off).seqAdvance u (slot + 1)
  | _ => d1.seqAdvance u (slot + 1)

/-- A FORCE that waits for its ranges applied in the slot of tick `slot` once they are in force (R97, R203). -/
def Dev.forceGo (d : Dev) (u slot : Nat) : Dev :=
  let q := d.sq u
  let ws := q.words
  if q.st = .running && q.step = .force && d.wantRanges u (bits (wd ws 1) 15 8) (bits (wd ws 1) 23 16) = [] then
    d.forceApply u slot
  else d

/-- FORCE in its slot (R202, R203). -/
def Dev.stepForce (d : Dev) (u : Nat) (ws : List Nat) (slot : Nat) : Dev :=
  let e := d.forceErr u ws
  if e ≠ 0 then d.seqError u e
  else
    let rs := if bit (wd ws 0) 19 then d.wantRanges u (bits (wd ws 1) 15 8) (bits (wd ws 1) 23 16) else []
    if rs = [] then (d.stepBoundary u slot false).forceApply u slot
    else ((d.askRanges u rs).modSq u fun q => { q with step := .force }).forceGo u slot

/-! ### RAMP and SINE (R204, R214, R215) -/

/-- RAMP in its slot (R204). -/
def Dev.stepRamp (d : Dev) (u : Nat) (ws : List Nat) (slot : Nat) : Dev :=
  if wd ws 3 = 0 then d.seqError u 15
  else
    let d1 := (d.stepBoundary u slot false).setSine u none
    d1.modSq u fun q => { q with step := .ramp (d1.ch u).ctl.tgt (s32 (wd ws 2)) (wd ws 3) slot }

/-- The ramp at its end: T1 in force, the successor N slots after the first (R201, R204). -/
def Dev.rampEnd (d : Dev) (u : Nat) : Dev :=
  match (d.sq u).st, (d.sq u).step with
  | .running, .ramp _ t1 n s => (((d.reachSlot u (s + n - 1)).setTarget u t1)).seqAdvance u (s + n)
  | _, _ => d

/-- SINE in its slot (R200, R214, R215). -/
def Dev.stepSine (d : Dev) (u : Nat) (ws : List Nat) (slot : Nat) : Dev :=
  let f := long ws 1
  if 2 ^ 46 ≤ f then d.seqError u 12
  else
    let d1 := (d.stepBoundary u slot false).setSine u (some ⟨f, bits (wd ws 2) 31 16, wd ws 3, s32 (wd ws 4)⟩)
    let n := long ws 5
    if n = 0 then d1.seqAdvance u (slot + 1) else d1.modSq u fun q => { q with step := .sine (slot + n) }

/-- The end of a SINE's duration (R215). -/
def Dev.sineEnd (d : Dev) (u : Nat) : Dev :=
  match (d.sq u).st, (d.sq u).step with
  | .running, .sine due => (d.reachSlot u due).seqAdvance u due
  | _, _ => d

/-! ### SWEEP (R212, R213) -/

/-- The next point waits for its flue, or starts in the slot of tick `slot` (R213). -/
def Dev.pointNext (d : Dev) (u slot : Nat) : Dev :=
  d.modSq u fun q =>
    match q.sweep with
    | some s => if s.arm then { q with st := .waiting, step := .pointArm } else { q with st := .running, step := .point, slot := slot }
    | none => q

/-- SWEEP in its slot, which is the first point's slot where that waits for no flue (R213, log 11). -/
def Dev.stepSweep (d : Dev) (u : Nat) (ws : List Nat) (slot : Nat) : Dev :=
  let n := wd ws 2
  if n = 0 || 65535 < n || !queueOk (wd ws 4) then d.seqError u 15
  else
    let sw : Sweep :=
      { seg := bits (wd ws 1) 11 0, place := bits (wd ws 1) 22 16, count := n, arm := bit (wd ws 3) 15,
        flue := bits (wd ws 3) 9 0, queue := wd ws 4 }
    (d.modSq u fun q => { q with sweep := some sw }).pointNext u slot

/-- Held autorange requests of the sweep released at a point boundary (R97). -/
def Dev.pointRelease (d : Dev) (u : Nat) : Dev :=
  let s := (d.sq u).sweep
  ((d.modSq u fun q => { q with sweep := none }).releaseHeld u).modSq u fun q => { q with sweep := s }

/-- The error of a point's fields, 0 for none (R198, R213). -/
def Dev.pointErr (d : Dev) (u : Nat) (ws : List Nat) : Nat :=
  let e := d.rangeErr u (bits (wd ws 3) 7 0) (bits (wd ws 3) 15 8)
  if bit (wd ws 3) 31 then (if 2 ^ 46 ≤ long ws 0 then 12 else e)
  else if s32 (wd ws 1) ≤ s32 (wd ws 2) then 4 else e

/-- Whether a point, or a MEASURE's MSEL, waits for the lock-in. -/
def selZ (msel : Nat) : Bool := bit msel 4

/-- A point's values in force in the slot of tick `p`, and its source delay begun (R213, R402). -/
def Dev.pointApply (d : Dev) (u p : Nat) : Dev :=
  let ws := (d.sq u).words
  let own := wd ws 5 ≠ 0
  let d1 := d.stepBoundary u p own
  let d2 := if bit (wd ws 3) 31 then d1.setSine u (some ⟨long ws 0, bits (wd ws 1) 31 16, wd ws 2, s32 (wd ws 6)⟩)
    else (d1.stepLimits u (s32 (wd ws 1)) (s32 (wd ws 2))).takeTarget u (s32 (wd ws 0))
  d2.modSq u fun q =>
    { q with st := .waiting, at_ := p,
             step := if own || selZ (bits (wd ws 3) 23 16) then .pointDelay (p + wd ws 4) else .pointRest (p + max 1 (wd ws 4)) }

/-- A point that waits for its ranges applied in the slot of tick `slot` once they are in force (R97, R203). -/
def Dev.pointGo (d : Dev) (u slot : Nat) : Dev :=
  let q := d.sq u
  let ws := q.words
  if q.st = .running && q.step = .pointMake && d.wantRanges u (bits (wd ws 3) 7 0) (bits (wd ws 3) 15 8) = [] then
    d.pointApply u slot
  else d

/-- A point in its slot (R213). -/
def Dev.pointStart (d : Dev) (m : Mem) (u : Nat) : Dev :=
  let q := d.sq u
  match q.st, q.step, q.sweep with
  | .running, .point, some s =>
    let d1 := (d.reachSlot u q.slot).pointRelease u
    if (d1.seg s.seg).kind ≠ 2 then d1.seqError u 7
    else
      let ws := stepWords m (128 * s.seg + s.place)
      let hdr := wd q.words (if s.idx = 0 then 0 else 8)
      let d2 := d1.modSq u fun q => { q with words := ws ++ [hdr], at_ := q.slot, z := .no }
      let e := d2.pointErr u ws
      if e ≠ 0 then d2.seqError u e
      else
        let rs := d2.wantRanges u (bits (wd ws 3) 7 0) (bits (wd ws 3) 15 8)
        if rs = [] then d2.pointApply u q.slot
        else ((d2.askRanges u rs).modSq u fun q => { q with step := .pointMake }).pointGo u q.slot
  | _, _, _ => d

/-- The end of a point's source delay: its aperture and its wait begin (R213). -/
def Dev.pointDelayEnd (d : Dev) (u : Nat) : Dev :=
  match (d.sq u).st, (d.sq u).step with
  | .waiting, .pointDelay due =>
    let ws := (d.sq u).words
    let d1 := d.reach due
    let d2 := if wd ws 5 = 0 then d1 else d1.stepAperture u 0 (apSamples (wd ws 5) (d1.flag C.LP_MODE u)) due
    d2.modSq u fun q =>
      { q with step := .pointMeasure, z := if selZ (bits (wd ws 3) 23 16) then .waiting else .no }
  | _, _ => d

/-- A step's aperture with all its samples published now, where it runs (R148, R149). -/
def Dev.finishAperture (d : Dev) (u : Nat) : Dev :=
  match (d.ch u).meas.ap with
  | some a => if a.owner = .step && a.full then d.endAperture u else d
  | none => d

/-- The sweep goes on after its point: the next one from `slot`, through NEXT of the list, or the step complete
(R97, R213). -/
def Dev.sweepOn (d : Dev) (u slot : Nat) : Dev :=
  match (d.sq u).sweep with
  | none => d
  | some s =>
    if s.idx + 1 ≥ s.count then
      let d1 := (d.modSq u fun q => { q with sweep := none, words := [wd q.words 8] }).releaseHeld u
      d1.seqAdvance u slot
    else
      let nx := (d.seg s.seg).next
      let s1 : Sweep := if s.place < 127 then { s with place := s.place + 1, idx := s.idx + 1 }
        else { s with seg := nx, place := 0, idx := s.idx + 1 }
      if s.place = 127 && (4095 < nx || (d.seg nx).kind ≠ 2) then d.seqError u 7
      else (d.modSq u fun q => { q with sweep := some s1 }).pointNext u slot

/-- A point complete: its record written where it has one, the next point in the slot after it (R208, R213). -/
def Dev.pointDone (d : Dev) (u : Nat) : Dev :=
  match (d.sq u).st, (d.sq u).step, (d.sq u).sweep with
  | .waiting, .pointRest due, some _ => (d.reachSlot u due).sweepOn u due
  | .waiting, .pointMeasure, some s =>
    let d1 := d.finishAperture u
    let q := d1.sq u
    let ws := q.words
    let a := (d1.ch u).meas.stepRes
    if (wd ws 5 ≠ 0 && a.isNone) || q.z = .waiting then d1
    else
      let r := { d1.measFields u 2 (bits (wd ws 3) 23 16) a with last := s.idx }
      let d2 := (d1.record u (d1.recQueue u s.queue) r).modMeas u fun m => { m with stepRes := none }
      let d3 := if wd ws 5 = 0 then d2 else d2.modSq u fun q => q.remember r
      d3.sweepOn u (d3.clk.tick + 1)
  | _, _, _ => d

/-! ### DWELL, MEASURE, WAIT (R201, R206, R209) -/

/-- DWELL in its slot (R201). -/
def Dev.stepDwell (d : Dev) (u : Nat) (ws : List Nat) (slot : Nat) : Dev :=
  if long ws 1 = 0 then d.seqError u 15
  else (d.stepBoundary u slot false).modSq u fun q => { q with st := .waiting, step := .dwell (slot + long ws 1) }

/-- The end of a DWELL. -/
def Dev.dwellEnd (d : Dev) (u : Nat) : Dev :=
  match (d.sq u).st, (d.sq u).step with
  | .waiting, .dwell due => (d.reachSlot u due).seqAdvance u due
  | _, _ => d

/-- MEASURE in its slot (R209). -/
def Dev.stepMeasure (d : Dev) (u : Nat) (ws : List Nat) (slot : Nat) : Dev :=
  let line := bit (wd ws 0) 16
  let n := wd ws 2
  if (line && (n = 0 || decide (255 < n))) || !queueOk (wd ws 4) then d.seqError u 15
  else
    let d1 := d.stepBoundary u slot true
    let len := if line then n else apSamples n (d1.flag C.LP_MODE u)
    (d1.stepAperture u (if line then 1 else 0) len (slot + 1)).modSq u fun q =>
      { q with st := .waiting, step := .measure, z := if selZ (wd ws 1) then .waiting else .no }

/-- MEASURE complete: record kind 1, the successor in the next slot (R201, R208, R209). -/
def Dev.measureDone (d : Dev) (u : Nat) : Dev :=
  match (d.sq u).st, (d.sq u).step with
  | .waiting, .measure =>
    let d1 := d.finishAperture u
    let q := d1.sq u
    match (d1.ch u).meas.stepRes with
    | none => d1
    | some a =>
      if q.z = .waiting then d1
      else
        let r := d1.measFields u 1 (wd q.words 1) (some a)
        let d2 := (d1.record u (d1.recQueue u (wd q.words 4)) r).modMeas u fun m => { m with stepRes := none }
        (d2.modSq u fun q => q.remember r).seqAdvance u (d2.clk.tick + 1)
  | _, _ => d

/-- `x` above an F32: false for a NaN (R206, R207, R381). -/
def aboveF32 (x : Rat2) (w : Nat) : Bool :=
  if bits w 30 23 = 255 then decide (bits w 22 0 = 0) && bit w 31 else (f32Val w).lt x

/-- `x` below an F32: false for a NaN. -/
def belowF32 (x : Rat2) (w : Nat) : Bool :=
  if bits w 30 23 = 255 then decide (bits w 22 0 = 0) && !bit w 31 else x.lt (f32Val w)

/-- ACC_VALUE of CHARGE or ENERGY as the number that is read (R152). -/
def Dev.accVal (d : Dev) (u : Nat) (energy : Bool) : Rat2 :=
  f64Val (accF64 energy (d.accu u energy).val)

/-- The moment of a WAIT of KIND 2, in ns (R206). -/
def waitNs (ws : List Nat) : Nat := (wd ws 2 + wd ws 3 * 2 ^ 32) * 1000000000 + wd ws 4

/-- Whether the condition of a WAIT of words `ws` holds (R206). -/
def Dev.waitMet (d : Dev) (u : Nat) (ws : List Nat) : Bool :=
  match bits (wd ws 1) 7 0 with
  | 2 => decide (waitNs ws ≤ (d.tbase (bits (wd ws 1) 9 8)).ns)
  | 7 => aboveF32 (d.accVal u false) (wd ws 2)
  | 8 => aboveF32 (d.accVal u true) (wd ws 2)
  | _ => (d.sq u).met

/-- A WAIT ended with COND `c`, its successor in the slot of tick `slot`. -/
def Dev.waitEnd (d : Dev) (u c slot : Nat) : Dev := (d.modSq u fun q => { q with cond := c }).seqAdvance u slot

/-- WAIT in its slot (R206). -/
def Dev.stepWait (d : Dev) (u : Nat) (ws : List Nat) (slot : Nat) : Dev :=
  let k := bits (wd ws 1) 7 0
  if k = 0 || 8 < k then d.seqError u 1
  else if 3 ≤ k && decide (k ≤ 6) && (wd ws 3 = 0 || decide (2 ^ 24 < wd ws 3)) then d.seqError u 15
  else
    let d1 := d.stepBoundary u slot false
    if k = 2 && d1.waitMet u ws then d1.waitEnd u 1 (slot + 1)
    else d1.modSq u fun q =>
      { q with st := .waiting, step := .wait (if k = 2 || long ws 4 = 0 then none else some (slot + long ws 4)) }

/-- Core cycles until time base `t` has reached `ns`. -/
def Dev.ccTo (d : Dev) (t ns : Nat) : Nat :=
  let b := d.tbase t
  let want := ns * 2 ^ 44
  if want ≤ b.acc || b.inc = 0 then 0 else (want - b.acc + (b.inc - 1)) / b.inc

/-- A WAIT whose condition is met: COND 1; a WAIT of KIND 2 at its moment (R206). -/
def Dev.waitDone (d : Dev) (u : Nat) : Dev :=
  let q := d.sq u
  match q.st, q.step with
  | .waiting, .wait _ =>
    let k2 := bits (wd q.words 1) 7 0 = 2
    let d1 := if k2 then d.advCc (d.ccTo (bits (wd q.words 1) 9 8) (waitNs q.words)) else d
    if d1.waitMet u q.words then d1.waitEnd u 1 (d1.clk.tick + 1) else d1
  | _, _ => d

/-- A WAIT at its timeout: COND 2 (R206). -/
def Dev.waitTimeout (d : Dev) (u : Nat) : Dev :=
  match (d.sq u).st, (d.sq u).step with
  | .waiting, .wait (some due) => if d.waitMet u (d.sq u).words then d else (d.reachSlot u due).waitEnd u 2 due
  | _, _ => d

/-! ### POST and JUMP (R207, R210) -/

/-- Whether F32 bits are a NaN. -/
def nanF32 (w : Nat) : Bool := bits w 30 23 = 255 && bits w 22 0 ≠ 0

/-- The resistance of PSEL 4 as F32 bits (R210). -/
def resistance (ms : List VI) : Nat :=
  match ms with
  | b :: a :: _ =>
    if nanF32 a.v.toNat || nanF32 a.i.toNat || nanF32 b.v.toNat || nanF32 b.i.toNat then nan32
    else
      let r := ((f32Val b.v).sub (f32Val a.v)).div ((f32Val b.i).sub (f32Val a.i))
      if ((f32Val b.i).sub (f32Val a.i)).num = 0 then nan32 else toF32 r.num r.den
  | _ => nan32

/-- The record of POST (R208, R210). -/
def Dev.postRec (d : Dev) (u psel marker ns : Nat) : RecFields :=
  match psel with
  | 1 => { kind := 3, time := ns, last := marker }
  | 2 => { kind := 4, time := ns, q := accF64 false (d.accu u false).val, e := accF64 true (d.accu u true).val }
  | 3 => { kind := 6, time := ns, zLow := d.liStatus u = 4, z1 := d.rdN C.Z_MAG u, z2 := d.rdN C.Z_PHASE u }
  | 4 => { kind := 7, time := ns, z1 := resistance (d.sq u).meas2 }
  | _ => { kind := 8, time := ns }

/-- POST in its slot (R210). -/
def Dev.stepPost (d : Dev) (u : Nat) (ws : List Nat) (slot : Nat) : Dev :=
  let k := bits (wd ws 1) 7 0
  if k = 0 || 5 < k then d.seqError u 1
  else if !queueOk (wd ws 3) then d.seqError u 15
  else
    let d1 := d.stepBoundary u slot false
    let r := d1.postRec u k (wd ws 2) (d1.slotStamp (bits (wd ws 1) 9 8) u slot)
    (d1.record u (d1.recQueue u (wd ws 3)) r).seqAdvance u (slot + 1)

/-- Whether a JUMP's condition holds; none for a code not listed (R207). -/
def Dev.jumpCond (d : Dev) (u : Nat) (ws : List Nat) : Option Bool :=
  let op := wd ws 3
  let vi := fun (f : VI → Int) (g : Rat2 → Nat → Bool) =>
    match (d.sq u).meas2 with
    | [] => false
    | x :: _ => !nanF32 (f x).toNat && g (f32Val (f x)) op
  match bits (wd ws 1) 7 0 with
  | 0 => some true
  | 1 => some ((d.sq u).cond == 1)
  | 2 => some ((d.sq u).cond == 2)
  | 3 => some (vi VI.v aboveF32)
  | 4 => some (vi VI.v belowF32)
  | 5 => some (vi VI.i aboveF32)
  | 6 => some (vi VI.i belowF32)
  | 7 => some (d.flueLevel (bits (wd ws 1) 25 16))
  | 8 => some (aboveF32 (d.accVal u false) op)
  | 9 => some (aboveF32 (d.accVal u true) op)
  | _ => none

/-- JUMP in its slot (R207). -/
def Dev.stepJump (d : Dev) (u : Nat) (ws : List Nat) (slot : Nat) : Dev :=
  match d.jumpCond u ws with
  | none => d.seqError u 1
  | some c =>
    let d1 := d.stepBoundary u slot false
    if c then (d1.notifyStep u).seqGoto u (slot + 1) (some (wd ws 2)) else d1.seqAdvance u (slot + 1)

/-! ### END (R195, R211) -/

/-- END in its slot: Done, with OFF if asked; its events (R195, R211, R291, R368). -/
def Dev.stepEnd (d : Dev) (u : Nat) (ws : List Nat) (slot : Nat) : Dev :=
  let d1 := ((d.stepBoundary u slot false).notifyStep u).seqHalt u .done
  let d2 := if bit (wd ws 0) 16 && d1.chCheck u .off = .ok then d1.chApply u .off true (d1.sq u).cause else d1
  (d2.seqRaise u 4).notifyOwner u 6 5 (d2.sq u).err

/-! ### LOOP, LOOP_END, CALL, RETURN (R220) -/

/-- LOOP in its slot. -/
def Dev.stepLoop (d : Dev) (u : Nat) (ws : List Nat) (slot : Nat) : Dev :=
  let q := d.sq u
  if 4 ≤ q.loops.length then d.seqError u 5
  else match d.stepAfter q.pc with
    | none => d.seqError u 2
    | some a =>
      ((d.stepBoundary u slot false).modSq u fun q => { q with loops := (a, bits (wd ws 1) 15 0) :: q.loops }).seqAdvance u
        (slot + 1)

/-- LOOP_END in its slot. -/
def Dev.stepLoopEnd (d : Dev) (u : Nat) (slot : Nat) : Dev :=
  let d1 := d.stepBoundary u slot false
  match (d1.sq u).loops with
  | [] => d.seqError u 6
  | (a, c) :: ls =>
    if c = 0 then (d1.notifyStep u).seqGoto u (slot + 1) (some a)
    else if 1 < c then
      ((d1.modSq u fun q => { q with loops := (a, c - 1) :: ls }).notifyStep u).seqGoto u (slot + 1) (some a)
    else (d1.modSq u fun q => { q with loops := ls }).seqAdvance u (slot + 1)

/-- CALL in its slot. -/
def Dev.stepCall (d : Dev) (u : Nat) (ws : List Nat) (slot : Nat) : Dev :=
  let q := d.sq u
  if 4 ≤ q.calls.length then d.seqError u 5
  else match d.stepAfter q.pc with
    | none => d.seqError u 2
    | some a =>
      (((d.stepBoundary u slot false).modSq u fun q =>
        { q with calls := (a, q.loops.length) :: q.calls }).notifyStep u).seqGoto u (slot + 1) (some (wd ws 2))

/-- RETURN in its slot. -/
def Dev.stepReturn (d : Dev) (u : Nat) (slot : Nat) : Dev :=
  let d1 := d.stepBoundary u slot false
  match (d1.sq u).calls with
  | [] => d.seqError u 6
  | (a, n) :: cs =>
    ((d1.modSq u fun q => { q with calls := cs, loops := q.loops.drop (q.loops.length - n) }).notifyStep u).seqGoto u
      (slot + 1) (some a)

/-! ### PLAY (R216–R219) -/

/-- Whether segment `g` may play as a waveform: KIND 3 or 4 (R187). -/
def Dev.waveSeg (d : Dev) (g : Nat) : Bool := decide (g < 4096) && ((d.seg g).kind == 3 || (d.seg g).kind == 4)

/-- The natural successor of segment `g`, scheduled where it is KIND 3, or KIND 4 and filled (R217). -/
def Dev.natural (d : Dev) (g : Nat) : Option Nat :=
  let n := (d.seg g).next
  if 4095 < n then none
  else if (d.seg n).kind = 3 || ((d.seg n).kind = 4 && (d.seg n).filled) then some n else none

/-- The samples of segment `g` (R187, R216). -/
def Dev.samplesOf (d : Dev) (m : Mem) (g : Nat) : List Int := (List.range (d.seg g).len).map fun i => s32 (segWord m g i)

/-- First cv after the segment that plays: its boundary (R216). -/
def Play.bound (p : Play) : Nat := p.start + p.data.length * p.div

/-- Segment `g` played from the cv of tick `s`; a jump request that missed its boundary is scheduled as next
(R216–R218). -/
def Dev.playSeg (d : Dev) (m : Mem) (u g s div : Nat) (jump : Option (Nat × Nat)) (late : Bool) : Dev :=
  let nx := match jump with
    | some j => some j.1
    | none => d.natural g
  let p : Play :=
    { seg := g, start := s, div := div, data := d.samplesOf m g, next := nx, jumped := jump.isSome, jump := jump,
      late := late }
  d.modSq u fun q => { q with st := .waiting, step := .play, play := some p }

/-- Whether another engine plays segment `g`. -/
def Dev.playedByOther (d : Dev) (u g : Nat) : Bool :=
  d.seqs.any fun e => e.1 != u && e.2.st.active && (match e.2.play with | some p => p.seg == g | none => false)

/-- PLAY in its slot (R200, R216). -/
def Dev.stepPlay (d : Dev) (m : Mem) (u : Nat) (ws : List Nat) (slot : Nat) : Dev :=
  let g := bits (wd ws 1) 11 0
  let div := if wd ws 2 = 0 then 65536 else wd ws 2
  if !d.waveSeg g || ((d.seg g).kind = 4 && d.playedByOther u g) then d.seqError u 8
  else if 65536 < div then d.seqError u 15
  else ((d.stepBoundary u slot false).setSine u none).playSeg m u g slot div none false

/-- A jump request refused: JUMP_STATUS 4 and JUMP_REFUSED (R218, R426). -/
def Dev.jumpRefuse (d : Dev) (u : Nat) : Dev :=
  ((d.modSq u fun q => { q with jumpStatus := 4 }).wr C.SQ_FLAGS u (d.rdN C.SQ_FLAGS u ||| 4 : Nat)).report 0x1522 u 0

/-- A jump request in the cv of tick `t` (R218, R426 JUMP_REFUSED). -/
def Dev.jumpRequest (d : Dev) (u t : Nat) : Dev :=
  let g := d.rdN C.JUMP_TARGET u
  match (d.sq u).play with
  | some p =>
    if !d.waveSeg g then d.jumpRefuse u
    else if p.starved.isNone && decide (t + 3 ≤ p.bound) then
      d.modSq u fun q => { q with jumpStatus := 1, play := q.play.map fun p =>
        { p with next := some g, jumped := true, jump := some (g, t), late := p.late && p.jump.isSome } }
    else
      d.modSq u fun q => { q with jumpStatus := 1, play := q.play.map fun p =>
        { p with jump := some (g, t), late := p.starved.isNone || p.late } }
  | none => d.jumpRefuse u

/-- A stream segment released at its boundary (R217). -/
def Dev.unfill (d : Dev) (g : Nat) : Dev :=
  if (d.seg g).kind = 4 then d.modSeg g fun s => { s with filled := false } else d

/-- Engine stopped by an underflow: OFF and error 11 (R219). -/
def Dev.starveOff (d : Dev) (u : Nat) : Dev :=
  let d1 := d.seqError u 11
  if d1.chCheck u .off = .ok then d1.chApply u .off true (d1.sq u).cause else d1

/-- The underflow of segment `g` at boundary `b` (R219). -/
def Dev.starve (d : Dev) (m : Mem) (u g b div : Nat) (jump : Option (Nat × Nat)) : Dev :=
  let d1 := (((d.wr C.SQ_FLAGS u (d.rdN C.SQ_FLAGS u ||| 1 : Nat)).bump C.STARVES u 32 1).seqRaise u 6).report 0x1521 u g
  let safe := (d.seg g).safeSeg
  match (d.seg g).ufAction with
  | 0 => d1.modSq u fun q => { q with play := q.play.map fun p =>
      { p with starved := some g, next := none, jumped := false, jump := jump, late := jump.isSome } }
  | 1 => d1.starveOff u
  | _ => if safe < 4096 && (d.seg safe).kind = 3 then d1.playSeg m u safe b div jump jump.isSome else d1.starveOff u

/-- A waveform segment at its boundary (R216–R219). -/
def Dev.segBoundary (d : Dev) (m : Mem) (u : Nat) : Dev :=
  let q := d.sq u
  match q.st, q.step, q.play with
  | .waiting, .play, some p =>
    if p.starved.isSome then d
    else
      let b := p.bound
      let d1 := (d.syncTarget u (b - 1)).reachSlot u b
      let d2 := d1.unfill p.seg
      if p.jumped then
        match p.jump with
        | some j =>
          let d3 := d2.modSq u fun q => { q with jumpStatus := if p.late then 3 else 2 }
          (if p.late then d3.wr C.SQ_FLAGS u (d3.rdN C.SQ_FLAGS u ||| 2 : Nat) else d3).playSeg m u j.1 b p.div none false
        | none => d2
      else
        match p.next with
        | some g => d2.playSeg m u g b p.div p.jump p.late
        | none =>
          let n := (d.seg p.seg).next
          if 4095 < n then
            let d3 := d2.modSq u fun q => { q with play := none, jumpStatus := if q.jumpStatus = 1 then 0 else q.jumpStatus }
            d3.seqAdvance u b
          else if (d.seg n).kind = 4 then d2.starve m u n b p.div p.jump
          else d2.seqError u 8
  | _, _, _ => d

/-- The segment that an underflow held back starts (R219). -/
def Dev.starvedStart (d : Dev) (m : Mem) (u : Nat) : Dev :=
  let q := d.sq u
  match q.st, q.step, q.play with
  | .waiting, .play, some p =>
    match p.starved, p.startAt with
    | some g, some s => (d.reachSlot u s).playSeg m u g s p.div p.jump p.late
    | _, _ => d
  | _, _, _ => d

/-- A waveform that waits for segment `g` once its FILLED lands in the cv of tick `t`: started by an underflow's rule,
or scheduled as the natural successor (R217, R219). -/
def Play.fillLands (p : Play) (g t next : Nat) : Play :=
  if p.starved == some g then { p with startAt := some (t + 3) }
  else if !p.jumped && p.starved.isNone && next == g && decide (t + 3 ≤ p.bound) then { p with next := some g }
  else p

/-- FILLED of segment `g` set in the cv of tick `t` (R217, R219). -/
def Dev.filledLands (d : Dev) (g t : Nat) : Dev :=
  d.seqs.foldl (fun e x =>
    e.modSq x.1 fun q => { q with play := q.play.map fun p => p.fillLands g t (d.seg p.seg).next }) d

/-! ### START and STOP (R195) -/

/-- The answer to a START (R195, R197, R414, R501). -/
def Dev.startCheck (d : Dev) (u : Nat) : Status :=
  let s := (d.ch u).ctl.st
  let e := d.rdN C.ENTRY u
  firstOf [Status.value.when (!(d.sq u).st.active && !d.inProgram e),
    Status.state.when ((d.sq u).st.active || s == .calibrating || s == .fenced || d.isMember u || d.calHolds u),
    Status.busy.when (d.ftHolds u)]

/-- START accepted: the engine Running from ENTRY, its first step in the slot of the cv after the slot that sees it (R195,
R201, log 15). -/
def Dev.seqStart (d : Dev) (u : Nat) (c : Cause) : Dev :=
  let slot := d.nextSlot u
  let d1 := if d.rd C.EPOCH_MODE u = 0 then d.wr C.EPOCH u ((d.cvAt slot) % 2 ^ 64) else d
  d1.modSq u fun q =>
    { (q.halt .running) with
      pc := d.rdN C.ENTRY u, nextPc := d.rdN C.ENTRY u, cond := 0, steps := 0, err := 0, slot := slot, startTime := d.slotStamp 2 u slot, meas2 := [],
      cause := c }

end Sys2Proof.Machine
end

