-- ==== Sys2Proof/Machine/CalRuns.lean ====
section
/-! DEFINITION. The course of a path-calibration run (R406–R415), and when temperatures are taken (R397–R400). -/

namespace Sys2Proof.Machine

open Sys2Proof

/-- Index in PT_1 to PT_3 of the points of a run: with two points, PT_1 and PT_3 (R406). -/
def crPoints (n : Nat) : List Nat := if n = 2 then [0, 2] else [0, 1, 2]

/-- Value of a point (R406). -/
def Dev.crPt (d : Dev) (i : Nat) : Rat2 := f32Val (d.rdi D.PT_1 0 i)

/-- The run ended as failed or aborted, the channel back in its state unless it has left the one the run gave it
(R408, R414). -/
def Dev.crEnd (d : Dev) (st res : Nat) : Dev :=
  match d.cr with
  | none => d
  | some r =>
    let d1 := d.crLeave st res
    if (d1.ch r.u).ctl.st = r.given then d1.enter r.u r.before else d1

/-- The run of channel `u`, if one holds it. -/
def Dev.crOf (d : Dev) (u : Nat) : Option CalRun :=
  match d.cr with
  | some r => if r.u = u then some r else none
  | none => none

/-- A run of channel `u` failed with cause `res`, if there is one. -/
def Dev.crFailOn (d : Dev) (u res : Nat) : Dev := if (d.crOf u).isSome then d.crEnd 7 res else d

/-- A code of Q1.31 nearest to a rational, saturated. -/
def toCode (x : Rat2) : Int := sat32 (x.scale (2 ^ 31))

/-- The wait for an entry begins: CM_STATE, CM_UNIT, CM_NOMINAL and the end of CM_TIMEOUT (R410). -/
def Dev.cmOpen (d : Dev) (r : CalRun) (st : Nat) : Dev :=
  let nom := (d.crPt r.point).mul (d.fs r.u r.volt r.range)
  let d1 := ((d.wr D.CM_STATE 0 st).wr D.CM_UNIT 0 (if r.volt then 0 else 1)).wr D.CM_NOMINAL 0 nom.f64
  { d1 with cr := some { r with entryDue := d.clk.cc + d.rdN D.CM_TIMEOUT 0 * d.clk.fcore } }

/-- The point `r.point` begins: target in the meter mode, an applied value asked for in the reference mode, and the
settle time (R408). -/
def Dev.crPoint (d : Dev) (r : CalRun) : Dev :=
  let r1 := { r with due := d.clk.tick + d.rdN D.CR_SETTLE 0, entry := none, reading := none }
  let d1 := ((d.wr D.CR_STATE 0 2).wr D.CR_POINT 0 (r.point + 1)).wr D.CR_REJECTS 0 0
  if r.meter then
    let x := toCode (d.crPt r.point)
    { (d1.wr C.SETPOINT r.u x).modCtl r.u fun c => { c with tgt := x } with cr := some r1 }
  else d1.cmOpen r1 2

/-- The run leaves Ranging for Settling: in the meter mode with MODE, compliance and SOURCE, in the reference mode with
Monitor (R408). -/
def Dev.crSettle (d : Dev) (r : CalRun) : Dev :=
  let u := r.u
  if r.meter then
    let k := toCode (f32Val (d.rd D.CR_COMPL 0))
    let d1 := d.wr C.MODE u (if r.volt then 0 else 1)
    let d2 := if r.volt then (d1.wr C.ICP u k).wr C.ICN u (-k) else (d1.wr C.VCP u k).wr C.VCN u (-k)
    let x := toCode (d2.crPt r.point)
    if d2.sourceOk u then
      let r1 := { r with given := .source }
      (({ d2.wr C.SETPOINT u x with cr := some r1 }).enter u .source).crPoint r1
    else d2.crEnd 7 5
  else
    let r1 := { r with given := .monitor }
    ({ d with cr := some r1 }.enter u .monitor).crPoint r1

/-- A run in Ranging goes on once its range is in force and steady (R408). -/
def Dev.crRanged (d : Dev) (u : Nat) : Dev :=
  match d.crOf u with
  | some r =>
    let x := (d.ch u).rng r.volt
    if d.rd D.CR_STATE 0 = 1 && x.now = r.range && x.ph = .steady then d.crSettle r else d
  | none => d

/-! ### Start and abort (R407, R408) -/

/-- Whether the sender of a command owns a unit, or is the console (R407, R410). -/
def Dev.holdsUnit (d : Dev) (p : Party) (u : Nat) : Bool := p = .console || d.owner u == ownerCode p

/-- Whether two points of the run lie less than 0.2 of full scale apart (R407). -/
def Dev.crClose (d : Dev) : Bool :=
  let gap := fun (i j : Nat) => ((d.crPt i).sub (d.crPt j)).abs.lt ⟨1, 5⟩
  if d.rd D.CR_POINTS 0 = 2 then gap 0 2 else gap 0 1 || gap 1 2 || gap 0 2

/-- Whether SOURCE would be refused once the run's compliance is in force (R40, R407). -/
def Dev.crSourceBad (d : Dev) (u : Nat) (volt : Bool) : Bool :=
  !d.readyCh u || (if volt then decide (d.rd C.VCP u ≤ d.rd C.VCN u) else decide (d.rd C.ICP u ≤ d.rd C.ICN u))

/-- Whether a run is in progress. -/
def Dev.crBusy (d : Dev) : Bool := d.cr.isSome

/-- The answer to CR_CMD 1 (R407). -/
def Dev.crStartCheck (d : Dev) (p : Party) : Status :=
  let u := d.rdN D.CR_CHANNEL 0
  let volt : Bool := d.rd D.CR_VAR 0 = 0
  let s := (d.ch u).ctl.st
  firstOf [Status.busy.when (d.crBusy || d.calHolds u), Status.notOwner.when (!d.holdsUnit p u),
    Status.value.when (decide (d.ranges u volt ≤ d.rdN D.CR_RANGE 0) || d.crClose),
    Status.state.when (!(s == .off || s == .monitor) || d.isMember u || (d.sq u).st.active || d.convFailed u ||
      (d.rd D.CR_TRUTH 0 == 0 && d.crSourceBad u volt)),
    Status.busy.when (d.ftHolds u)]

/-- CR_CMD 1 accepted (R408). -/
def Dev.crStart (d : Dev) (p : Party) : Dev :=
  let u := d.rdN D.CR_CHANNEL 0
  let volt : Bool := d.rd D.CR_VAR 0 = 0
  let j := d.rdN D.CR_RANGE 0
  let c := d.ch u
  let pts := crPoints (d.rdN D.CR_POINTS 0)
  let r : CalRun :=
    { u := u, volt := volt, range := j, meter := d.rd D.CR_TRUTH 0 = 0, before := c.ctl.st, given := c.ctl.st,
      vals := d.crSave u, rI := c.rngI.now, rV := c.rngV.now, point := pts.headD 0, rest := pts.tail,
      temps := [d.rdN C.T_NOW u] }
  let d1 := (((({ d with cr := some r }.wr C.AR_I u 0).wr C.AR_V u 0).setApRun u 0).wr D.CR_STATE 0 1).wr D.CR_RESULT 0 0
  let d2 := (((d1.wr D.CR_POINT 0 1).wr D.CR_REJECTS 0 0).wr D.CR_STARTER 0
    (match p with | .a => 1 | .b => 2 | .console => 3))
  if (c.rng volt).now = j then (d2.crRange u volt j).crRanged u else d2.rngAsk u volt j false false

/-- The answer to CR_CMD 2: from the starter or the console, while a run is in progress (R408). -/
def Dev.crAbortCheck (d : Dev) (p : Party) : Status :=
  firstOf [Status.state.when (!d.crBusy),
    Status.notOwner.when (d.crBusy && p ≠ .console && decide (d.rdN D.CR_STARTER 0 ≠ ownerCode p))]

/-- A write of CR_CMD (R406–R408). -/
def Dev.crCmd (d : Dev) (p : Party) (v : Int) : Dev :=
  d.write p D.CR_CMD 0 0 v (if v = 1 then d.crStartCheck p else d.crAbortCheck p) fun e =>
    if v = 1 then e.crStart p else e.crEnd 8 10

/-! ### Readings (R409) -/

/-- The pair of readings of the point begins (R408, R409). -/
def Dev.crMeasure (d : Dev) (r : CalRun) : Dev :=
  let u := r.u
  let len := apSamples (d.rdN D.CR_APERTURE 0) (d.flag C.LP_MODE u)
  let d1 := ({ d with cr := some { r with reading := none } }.wr D.CR_STATE 0 3).stepAperture u 0 len (d.clk.tick + 1)
  (d1.modMeas u fun m => { m with again := some len, stepFirst := none }).modCtl u fun c =>
    { c with limSeen := c.limit.isSome }

/-- CR_SETTLE has elapsed and, in the reference mode, the entry is there: the pair is taken (R408). -/
def Dev.crSettleEnd (d : Dev) : Dev :=
  match d.cr with
  | some r =>
    if d.rd D.CR_STATE 0 = 2 && (r.meter || r.entry.isSome) then
      let d1 := d.reach r.due
      match d1.cr with
      | some r1 => d1.crMeasure r1
      | none => d1
    else d
  | none => d

/-- The sum of m over a reading, in 2^-61 of the pin full scale (R139, R409). -/
def Dev.crSum (d : Dev) (u : Nat) (volt : Bool) (a : Ap) : Int :=
  let c := d.conv (stoveOf u) (d.holder (stoveOf u) (roleOf u volt))
  ((if volt then a.rawV else a.rawI) * 65536 - (a.n : Int) * c.matchOfs) * c.matchGain

/-- A reading's mean of m as a fraction of full scale. -/
def crMean (x : Int × Nat) : Rat2 := ⟨x.1, max 1 x.2 * 2 ^ 61⟩

/-- The value of a reading corrected with the factors in force, in V or A (R410, R415). -/
def Dev.crDevice (d : Dev) (r : CalRun) (x : Int × Nat) : Rat2 :=
  let f := SMap.get ({} : Factors) (d.ch r.u).meas.fact (factKey r.volt r.range)
  let m := (crMean x).sub ⟨f.o, 2 ^ 31⟩
  ((m.mul ⟨f.g, 2 ^ 30⟩).add ((m.mul m).mul ⟨f.k2, 2 ^ 31⟩)).mul (d.fs r.u r.volt r.range)

/-! ### The fit (R411–R413) -/

/-- The real root of a2·o² + a1·o + a0 with the smaller magnitude, by a square root to 2^-80; none where there is none
(R411). -/
def smallRoot (a0 a1 a2 : Rat2) : Option Rat2 :=
  if a2.num = 0 then (if a1.num = 0 then none else some ((Rat2.ofInt 0).sub (a0.div a1)))
  else
    let disc := (a1.mul a1).sub ((Rat2.ofInt 4).mul (a2.mul a0))
    if disc.num < 0 then none
    else
      let s : Rat2 := ⟨isqrt (disc.num.natAbs * 2 ^ 160 / disc.den), 2 ^ 80⟩
      let den := if a1.num < 0 then a1.sub s else a1.add s
      if den.num = 0 then none else some ((Rat2.ofInt (-2)).mul (a0.div den))

/-- The factors of the fit through readings `m` and true values `t`, both of full scale 1; none where it is degenerate
(R411, R412 cause 9). -/
def fit (ms ts : List Rat2) : Option (Rat2 × Rat2 × Rat2) :=
  let near := fun (x y : Rat2) => (x.sub y).abs.lt ⟨1, 10⟩
  match ms, ts with
  | [m1, m3], [t1, t3] =>
    if near m1 m3 then none
    else
      let g := (t3.sub t1).div (m3.sub m1)
      if g.num = 0 then none else some (m1.sub (t1.div g), g, ⟨0, 1⟩)
  | [m1, m2, m3], [t1, t2, t3] =>
    if near m1 m2 || near m2 m3 || near m1 m3 then none
    else
      let d12 := (t2.sub t1).div (m2.sub m1)
      let d23 := (t3.sub t2).div (m3.sub m2)
      let a2 := (d23.sub d12).div (m3.sub m1)
      let a1 := d12.sub (a2.mul (m1.add m2))
      let a0 := (t1.sub (a1.mul m1)).sub ((a2.mul m1).mul m1)
      match smallRoot a0 a1 a2 with
      | none => none
      | some o => some (o, a1.add (((Rat2.ofInt 2).mul a2).mul o), a2)
  | _, _ => none

/-- Mean, as F32 bits, of temperatures. -/
def meanTemp (ts : List Nat) : Int :=
  let sum : Int := ts.foldl (fun a (t : Nat) => a + (f32Val t).num * 2 ^ 149 / ((f32Val t).den : Int)) 0
  (Rat2.mk sum (max 1 ts.length * 2 ^ 149)).f32

/-- Whether the temperatures of the run spread by more than RUN_SPREAD (R412 cause 3). -/
def Dev.spread (d : Dev) (ts : List Nat) : Bool :=
  ts.any fun a => ts.any fun b => (f32Val (d.rd D.RUN_SPREAD 0)).lt ((f32Val a).sub (f32Val b))

/-- The other sets of the range within SET_MERGE of a temperature made empty (R413). -/
def Dev.mergeSets (d : Dev) (r : CalRun) (s : Nat) (t : Int) : Dev :=
  let m := f32Val (d.rd D.SET_MERGE 0)
  let gone := (List.range 8).filter fun j => j ≠ s &&
    (match calSet d.shadow r.u r.volt r.range j with
     | some x => ((f32Val x.temp).sub (f32Val t)).abs.le m
     | none => false)
  { d with shadow := gone.foldl (fun a j => a.del (setKey r.u r.volt r.range j)) d.shadow }

/-- The seconds of time base 3. -/
def Dev.secs3 (d : Dev) : Nat := (d.tbase 3).ns / 1000000000

/-- A run passed: set, LAST_RUN, substitution flag, pending factors, DIRTY (R413). -/
def Dev.crPass (d : Dev) (r : CalRun) (f : Factors) : Dev :=
  let t := meanTemp r.temps
  let s := d.rdN D.CR_SET 0
  let x : CalSet :=
    { temp := t.toNat, o := f.o, g := f.g, k2 := f.k2, secs := d.secs3 % 2 ^ 32, src := if r.meter then 0 else 1,
      pts := d.rdN D.CR_POINTS 0 }
  let d1 := d.mergeSets r s t
  let d2 := ({ d1 with shadow := d1.shadow.ins (setKey r.u r.volt r.range s) x }.wr C.LAST_RUN r.u (d.tbase 3).ns).wr
    D.CR_TEMP 0 t
  let d3 := d2.modSt (stoveOf r.u) fun y => { y with subst := setBit y.subst (roleOf r.u r.volt) false }
  ((d3.renew r.u).dirty).crEnd 6 0

/-- Computing: the fit and its limits (R411, R412). -/
def Dev.crCompute (d : Dev) (r : CalRun) : Dev :=
  let fsv := d.fs r.u r.volt r.range
  let d1 := d.wr D.CR_STATE 0 5
  match fit (r.done.map fun x => crMean x.1) (r.done.map fun x => (f64Val x.2).div fsv) with
  | none => d1.crEnd 7 9
  | some (o, g, k) =>
    let f : Factors := ⟨o.scale (2 ^ 31), g.scale (2 ^ 30), k.scale (2 ^ 31)⟩
    if factorOk f && decide (-42949672 ≤ f.o) && decide (f.o ≤ 42949672) then d1.crPass r f else d1.crEnd 7 2

/-- The point complete with its reading and true value: the next one, or Computing (R408). -/
def Dev.crNext (d : Dev) (r : CalRun) (x : Int × Nat) (t : Nat) : Dev :=
  let r1 := { r with done := r.done ++ [(x, t)] }
  match r.rest with
  | [] => { d with cr := some r1 }.crCompute r1
  | p :: ps =>
    let r2 := { r1 with point := p, rest := ps }
    { d with cr := some r2 }.crPoint r2

/-- An accepted pair: an entry asked for in the meter mode, the next point in the reference mode (R408, R410). -/
def Dev.crAccept (d : Dev) (r : CalRun) (x : Int × Nat) : Dev :=
  let d1 := d.wr D.CM_DEVICE 0 (if r.meter then (d.crDevice r x).f64 else d.rd D.CM_DEVICE 0)
  if r.meter then (d1.wr D.CR_STATE 0 4).cmOpen { r with reading := some x } 1
  else d1.crNext r x (r.entry.getD 0)

/-- Flags of a reading that discard its pair: SWAP, RANGE_CUT, OVER (R409). -/
def crSpoilt (volt : Bool) (a : Ap) : Bool :=
  let f := if volt then a.flagV else a.flagI
  bit f mSwap || bit f mCut || bit f mOver

/-- The pair of readings complete: accepted, rejected or discarded (R409). -/
def Dev.crPair (d : Dev) : Dev :=
  match d.cr with
  | none => d
  | some r =>
    let d1 := d.finishAperture r.u
    match (d1.ch r.u).meas.stepFirst, (d1.ch r.u).meas.stepRes with
    | some a, some b =>
      if d1.rd D.CR_STATE 0 ≠ 3 then d1
      else
        let d2 := d1.modMeas r.u fun m => { m with stepFirst := none, stepRes := none }
        if (d2.ch r.u).ctl.limSeen then d2.crEnd 7 6
        else if crSpoilt r.volt a || crSpoilt r.volt b then d2.crMeasure r
        else
          let x := d2.crSum r.u r.volt a
          let y := d2.crSum r.u r.volt b
          let far := (Rat2.mk (d2.rd D.CR_TOL 0) (2 ^ 31)).lt ((crMean (x, a.n)).sub (crMean (y, b.n))).abs
          if !far then d2.crAccept r (x + y, a.n + b.n)
          else if 3 ≤ d2.rdN D.CR_REJECTS 0 then (d2.wr D.CR_REJECTS 0 4).crEnd 7 1
          else (d2.wr D.CR_REJECTS 0 (d2.rdN D.CR_REJECTS 0 + 1 : Nat)).crMeasure r
    | _, _ => d1

/-! ### Entries (R410) -/

/-- The answer to a write of CM_ENTRY (R410). -/
def Dev.cmCheck (d : Dev) (p : Party) (v : Int) : Status :=
  match d.cr with
  | none => .state
  | some r =>
    let gap := ((f64Val v).sub (f64Val (d.rd D.CM_NOMINAL 0))).abs
    firstOf [Status.notOwner.when (p ≠ .console && decide (d.rdN D.CR_STARTER 0 ≠ ownerCode p)),
      Status.value.when (((d.fs r.u r.volt r.range).mul ⟨1, 20⟩).lt gap), Status.state.when (d.rd D.CM_STATE 0 == 0)]

/-- CM_ENTRY accepted (R408, R410). -/
def Dev.cmTake (d : Dev) (v : Int) : Dev :=
  match d.cr with
  | none => d
  | some r =>
    let d1 := d.wr D.CM_STATE 0 0
    match r.reading with
    | some x => d1.crNext r x v.toNat
    | none =>
      let r1 := { r with entry := some v.toNat }
      let d2 := { d1 with cr := some r1 }
      if r1.due ≤ d2.clk.tick then d2.crMeasure r1 else d2

/-- A write of CM_ENTRY. -/
def Dev.cmEntry (d : Dev) (p : Party) (v : Int) : Dev :=
  d.write p D.CM_ENTRY 0 0 v (d.cmCheck p v) fun e => e.cmTake v

/-- CM_TIMEOUT has run out: cause 4 (R412). -/
def Dev.cmTimeout (d : Dev) : Dev :=
  match d.cr with
  | some r => if d.rd D.CM_STATE 0 = 0 then d else (d.reachCc r.entryDue).crEnd 7 4
  | none => d

/-! ### Temperatures (R398–R400) -/

/-- Whether the source of a channel's temperature is lost at core cycle `cc` (R398). -/
def Dev.tempGone (d : Dev) (u cc : Nat) : Bool :=
  let a := (d.st (stoveOf u)).aux
  let e := d.rdN C.TS_ENTRY u
  decide (a.copy.length < e) || a.ph == .idle || a.ph == .urgent || (match a.upd.look e with
    | some t => decide (t + d.rdN D.TS_STALE 0 * (d.clk.fcore / 1000) < cc)
    | none => true)

/-- The temperature of a channel as its source gives it now, F32 bits (R398). -/
def Dev.tempTaken (d : Dev) (u : Nat) : Int :=
  if d.rd C.TS_SRC u = 0 then d.rd C.T_FIXED u
  else
    let k := stoveOf u
    let e := d.rdN C.TS_ENTRY u
    let v := d.rdi S.AUX_VALUE k (e - 1)
    let die : Bool := (d.st k).aux.copy.getD (e - 1) 0 % 32 = 18
    if die then v else ((f32Val (d.rd C.TS_OFS u)).add ((f32Val (d.rd C.TS_SLOPE u)).mul (f32Val v))).f32

/-- TEMP_LOST set or cleared, reported when it sets (R398, R426). -/
def Dev.setLost (d : Dev) (u : Nat) (x : Bool) : Dev :=
  let was := (d.ch u).meas.tempLost
  let d1 := d.modMeas u fun m => { m with tempLost := x }
  if x && !was then d1.report 0x1730 u 0 else d1

/-- TEMP_OUT as it stands, reported when it sets (R399, R426). -/
def Dev.seeOut (d : Dev) (u : Nat) : Dev :=
  let x := d.tempOut u
  let was := (d.ch u).meas.tempOut
  let d1 := d.modMeas u fun m => { m with tempOut := x }
  if x && !was then d1.report 0x1731 u 0 else d1

/-- The temperature of a channel taken, its factors renewed past TS_HYST, a run failed by its spread (R398–R400, R412). -/
def Dev.tempPoll (d : Dev) (u : Nat) : Dev :=
  let e := d.reachCc ((d.ch u).meas.polled + d.rdN D.T_POLL 0 * (d.clk.fcore / 1000))
  let d0 := e.modMeas u fun m => { m with polled := e.clk.cc }
  if d0.rd C.TS_SRC u ≠ 0 && d0.tempGone u d0.clk.cc then d0.setLost u true
  else
    let t := d0.tempTaken u
    let d1 := ((d0.wr C.T_NOW u t).setLost u false).seeOut u
    let moved := ((f32Val t).sub (f32Val (d1.rd C.T_APPLIED u))).abs
    let d2 := if (f32Val (d1.rd C.TS_HYST u)).le moved then d1.renew u else d1
    match d2.crOf u with
    | some r =>
      let r1 := { r with temps := r.temps ++ [t.toNat] }
      let d3 := { d2 with cr := some r1 }
      if d3.spread r1.temps then d3.crEnd 7 3 else d3
    | none => d2

end Sys2Proof.Machine
end

