-- ==== Sys2Proof/Machine/Converters.lean ====
section
/-! DEFINITION. Self-calibration, spare rotation and substitution of the pipeline converters (R159–R174). -/

namespace Sys2Proof.Machine

open Sys2Proof

/-- Length of a self-calibration in cv (R161). -/
def calTicks : Nat := 2100000

/-- The channel of role `r` of stove `k` (R164). -/
def roleUnit (k r : Nat) : Nat := 16 * k + r / 2

/-- Whether role `r` is a V converter's (R164). -/
def roleVolt (r : Nat) : Bool := r % 2 == 0

/-- Rotation state changed by `f`. -/
def Dev.modRot (d : Dev) (k : Nat) (f : Rot → Rot) : Dev := d.modSt k fun s => { s with rot := f s.rot }

/-- A converter's pass of a self-calibration (R162, R163). -/
def Dev.convPass (d : Dev) (k c : Nat) : Dev :=
  { (d.modConv k c fun v => { v with failed := false, result := 1, time := d.now2, fact := d.free + 1 }) with
    free := d.free + 32 }

/-- A converter's failure of a self-calibration: marked failed, its factors kept, reported (R162). -/
def Dev.convFail (d : Dev) (k c : Nat) : Dev :=
  (d.modConv k c fun v => { v with failed := true, result := 2 }).report 0x2310 k c

/-- The state of rotation that follows a rotation's end: Waiting, or Disabled with ROT_EN clear (R168). -/
def Dev.rotIdle (d : Dev) (k : Nat) : RotPhase := if d.flag S.ROT_EN k then .waiting else .disabled

/-- Whether role `r` is rotatable (R167). -/
def Dev.rotatable (d : Dev) (k r : Nat) : Bool :=
  let u := roleUnit k r
  d.pdOn u && (d.ch u).ctl.st != .calibrating && !d.flag C.LP_MODE u && !(d.conv k (d.holder k r)).failed

/-- The role a rotation takes: ROT_NEXT or the next rotatable one upward (R167). -/
def Dev.rotPick (d : Dev) (k : Nat) : Option Nat :=
  ((List.range 32).map fun i => (d.rdN S.ROT_NEXT k + i) % 32).find? (d.rotatable k)

/-- The free calibrated spare with the oldest TRIM_TIME, the lower number on a tie (R167). -/
def Dev.freeSpare (d : Dev) (k : Nat) : Option Nat :=
  ((List.range 34).filter fun c => (d.conv k c).role == 0x40).foldl (fun (a : Option Nat) c =>
    match a with
    | none => some c
    | some b => if (d.conv k c).time < (d.conv k b).time then some c else some b) none

/-- A rotation started where a spare and a rotatable role exist (R167, R168). -/
def Dev.rotStart (d : Dev) (k : Nat) : Dev :=
  match d.freeSpare k, d.rotPick k with
  | some c, some r =>
    (d.modConv k c fun v => { v with role := 0x41 }).modRot k fun x =>
      { x with ph := .calSpare, role := r, spare := c, due := d.clk.tick + calTicks, n := 0, sum := 0 }
  | _, _ => d

/-- Core cycle at which ROT_INTERVAL has elapsed (R166). -/
def Dev.rotDue (d : Dev) (k : Nat) : Nat := (d.st k).rot.since + d.rdN S.ROT_INTERVAL k * (d.clk.fcore / 1000)

/-- ROTATION_START of stove `k` (R168). -/
def Dev.rotInterval (d : Dev) (k : Nat) : Dev :=
  if (d.st k).rot.ph = .waiting && d.flag S.ROT_EN k && d.pdOn (256 + k) then (d.reachCc (d.rotDue k)).rotStart k else d

/-- The rotation under way given up: its spare free again, or still uncalibrated (R168, R171). -/
def Dev.rotDrop (d : Dev) (k : Nat) (next : RotPhase) : Dev :=
  let x := (d.st k).rot
  let d1 := if x.ph = .matching then d.modConv k x.spare fun v => { v with role := 0x40 } else d
  d1.modRot k fun y => { y with ph := next, role := 255, n := 0, sum := 0 }

/-- ROT_EN written (R166, R168). -/
def Dev.rotEnable (d : Dev) (k : Nat) (on : Bool) : Dev :=
  let d1 := d.wr S.ROT_EN k (b2i on)
  let ph := (d.st k).rot.ph
  if on then
    if ph = .disabled || ph = .waiting then (d1.modRot k fun x => { x with ph := .waiting }).rotStart k else d1
  else match ph with
    | .swapPending => d1
    | .calFreed => d1
    | .paused => d1
    | _ => d1.rotDrop k .disabled

/-- The calibrated spare passes or fails (R162, R168). -/
def Dev.spareCal (d : Dev) (k : Nat) (pass : Bool) : Dev :=
  let x := (d.st k).rot
  if x.ph ≠ .calSpare then d
  else
    let d1 := d.reach x.due
    if pass then
      let d2 := (d1.convPass k x.spare)
      if d2.rotatable k x.role then
        (d2.modConv k x.spare fun v => { v with role := 0x42 }).modRot k fun y =>
          { y with ph := .matching, n := 0, sum := 0, due := d1.clk.tick + 64 }
      else (d2.modConv k x.spare fun v => { v with role := 0x40 }).modRot k fun y =>
        { y with ph := d2.rotIdle k, role := 255 }
    else
      ((d1.convFail k x.spare).modConv k x.spare fun v => { v with role := 0x80 }).modRot k fun y =>
        { y with ph := d1.rotIdle k, role := 255 }

/-- A pair of samples of edge `n` seen by the match of channel `u`'s stove: `cs` the spare's code (R168, R169). -/
def Dev.rotSample (d : Dev) (u n : Nat) (cV cI : Int) (cs : Option Int) : Dev :=
  let k := stoveOf u
  let x := (d.st k).rot
  if x.ph ≠ .matching || roleUnit k x.role ≠ u then d
  else if !d.rotatable k x.role then d.rotDrop k (d.rotIdle k)
  else match cs with
    | none => d
    | some c =>
      let cnt := d.rdN S.MATCH_COUNT k
      if n < x.due || cnt ≤ x.n then d
      else d.modRot k fun y =>
        { y with n := y.n + 1, sum := y.sum + (c - if roleVolt y.role then cV else cI) * 65536,
                 due := if y.n + 1 = cnt then n + 12 else y.due }

/-- A MAKE latch of a variable of channel `u`: a match of its role counts from the start again (R168). -/
def Dev.rotRestart (d : Dev) (u : Nat) (volt : Bool) : Dev :=
  let k := stoveOf u
  let x := (d.st k).rot
  if x.ph = .matching && roleUnit k x.role = u && roleVolt x.role == volt then
    d.modRot k fun y => { y with n := 0, sum := 0, due := d.clk.tick + 1 }
  else d

/-- A report of the channel that holds role `r` of stove `k`: `code` for its V variable, the next code for I (R426). -/
def Dev.reportRole (d : Dev) (k r code : Nat) : Dev :=
  d.report (if roleVolt r then code else code + 1) (roleUnit k r) 0

/-- The match of stove `k` complete: its difference formed, and the swap pending or given up (R168, R169). -/
def Dev.matchDone (d : Dev) (k : Nat) : Dev :=
  let x := (d.st k).rot
  if x.ph ≠ .matching || x.n < d.rdN S.MATCH_COUNT k then d
  else
    let diff := odiv 169 x.sum (max 1 x.n)
    let d1 := d.wr S.LAST_DIFF k (sat32 diff)
    if (diff.natAbs : Int) ≤ d.rd S.MATCH_LIMIT k then
      (d1.modRot k fun y => { y with ph := .swapPending, sum := diff }).modSt k fun s =>
        { s with suspect := setBit s.suspect x.role false }
    else
      let d2 := (d1.modConv k x.spare fun v => { v with role := 0x40 }).modSt k fun s =>
        { s with suspect := setBit s.suspect x.role true, rot := { s.rot with ph := d1.rotIdle k, role := 255, n := 0, sum := 0 } }
      ((d2.bump S.MATCH_FAILS k 32 1).report 0x2311 k x.role).reportRole k x.role 0x120C

/-- The sample of edge `e` of role `r` is the first of a new holder: swap mark, and the slot taken (R21, R170, R171). -/
def Dev.markSwap (d : Dev) (k r e : Nat) : Dev :=
  let u := roleUnit k r
  (d.modMeas u fun m => if roleVolt r then { m with swapV := some e } else { m with swapI := some e }).modCtl u fun c =>
    { c with swapSlot := true }

/-- The swap (R168–R170): made when the sample of its edge reaches the correction stage (log 11). -/
def Dev.swap (d : Dev) (k : Nat) : Dev :=
  let x := (d.st k).rot
  if x.ph ≠ .swapPending then d
  else
    let u := roleUnit k x.role
    let nf := ((d.ch u).rng (roleVolt x.role)).newFrom
    let e := if nf = x.due then x.due + 1 else x.due
    let d1 := d.reach (e + 10)
    let old := d1.holder k x.role
    let o := d1.conv k old
    let d2 := (d1.modConv k x.spare fun v =>
      { v with role := x.role, matchOfs := sat32 (o.matchOfs + x.sum), matchGain := o.matchGain }).modConv k old fun v =>
      { v with role := 0x43 }
    let d3 := (d2.markSwap k x.role e).modRot k fun y =>
      { y with ph := .calFreed, freed := old, since := d1.clk.cc, due := e + calTicks }
    (d3.raise (srcSt k 18)).report 0x2314 k x.role

/-- The freed converter passes or fails; the rotation is complete (R162, R167, R168). -/
def Dev.freedCal (d : Dev) (k : Nat) (pass : Bool) : Dev :=
  let x := (d.st k).rot
  if x.ph ≠ .calFreed then d
  else
    let d1 := d.reach x.due
    let d2 := if pass then (d1.convPass k x.freed).modConv k x.freed fun v => { v with role := 0x40 }
      else (d1.convFail k x.freed).modConv k x.freed fun v => { v with role := 0x80 }
    ((d2.wrap S.SWAPS k 32 1).wr S.ROT_NEXT k ((x.role + 1) % 32 : Nat)).modRot k fun y =>
      { y with ph := d2.rotIdle k, role := 255, n := 0, sum := 0 }

/-- A role of stove `k` whose converter is found failed waits for a spare (R171). -/
def Dev.needSpare (d : Dev) (k r : Nat) : Dev :=
  let d1 := d.modConv k (d.holder k r) fun v => { v with failed := true }
  d1.modSt k fun s => if s.substWait.contains r then s else { s with substWait := s.substWait ++ [r] }

/-- The substitution of the role that waits longest (R171, R173). -/
def Dev.substitute (d : Dev) (k : Nat) : Dev :=
  match (d.st k).substWait with
  | [] => d
  | r :: rs =>
    let x := (d.st k).rot
    let go := fun (e : Dev) (c : Nat) =>
      let old := e.holder k r
      let o := e.conv k old
      let u := roleUnit k r
      let e1 := (e.modConv k c fun v => { v with role := r, matchOfs := o.matchOfs, matchGain := o.matchGain }).modConv k old
        fun v => { v with role := 0x80 }
      let e2 := e1.modSt k fun s =>
        { s with substWait := rs, subst := setBit s.subst r true, noSpare := setBit s.noSpare r false,
                 suspect := setBit s.suspect r false }
      (((e2.markSwap k r (e2.edgeNow u + 1)).raise (srcSt k 19)).report 0x2315 k r).reportRole k r 0x1208
    match d.freeSpare k with
    | some c => go d c
    | none =>
      if x.ph = .matching then go ((d.rotDrop k (d.rotIdle k)).report 0x2313 k 0) x.spare
      else if (List.range 34).any fun c => (d.conv k c).role == 0x41 || (d.conv k c).role == 0x43 then d
      else
        let d1 := (d.modSt k fun s => { s with substWait := rs, noSpare := setBit s.noSpare r true }).report 0x2312 k r
        (d1.reportRole k r 0x120A).crFailOn (roleUnit k r) 8

/-! ### Runs of self-calibration (R159–R162) -/

/-- Whether a SELFCAL run of a party reaches channel `u`, CALIBRATE would be accepted there, and nothing holds it
(R160). -/
def Dev.scReaches (d : Dev) (p : Party) (u : Nat) : Bool :=
  let own := match p with
    | .console => true
    | _ => d.owner u == 0 || d.owner u == ownerCode p
  own && (d.ch u).ctl.st == .off && decide (d.chCheck u .calibrate = .ok) && !d.calHolds u && !d.ftHolds u

/-- The spares that a SELFCAL run takes, as stove × 256 + converter: free, calibrating, matching, freed or failed ones
(R160, R161). -/
def Dev.scSpares (d : Dev) : List Nat :=
  (List.range 16).flatMap fun k =>
    if d.pdOn (256 + k) then
      ((List.range 34).filter fun c => decide (0x40 ≤ (d.conv k c).role)).map fun c => 256 * k + c
    else []

/-- A SELFCAL run started by a party (R160, R161). -/
def Dev.selfcal (d : Dev) (p : Party) : Dev :=
  let us := (List.range 256).filter (d.scReaches p)
  let sp := d.scSpares
  let d0 := d.wr D.SC_SKIPPED 0 (256 - us.length : Nat)
  if us = [] && sp = [] then d0.wr D.SC_STATUS 0 4
  else
    let d1 := us.foldl (fun e u => (e.seqStop u).enter u .calibrating) d0
    let d2 := sp.foldl (fun e x => e.modConv (x / 256) (x % 256) fun v => { v with role := 0x41 }) d1
    let d3 := (List.range 16).foldl (fun e k =>
      let ph := (e.st k).rot.ph
      let e1 := if ph = .calSpare || ph = .matching then e.report 0x2313 k 0 else e
      if ph = .disabled then e1 else e1.modRot k fun x => { x with ph := .paused, role := 255 }) d2
    { (d3.wr D.SC_STATUS 0 1) with cals := d3.cals ++ [⟨d3.clk.tick + calTicks, us, sp, true⟩] }

/-- The converters of a run that hold roles of a channel. -/
def Dev.roleConvs (d : Dev) (u : Nat) : List Nat :=
  let k := stoveOf u
  [256 * k + d.holder k (roleOf u true), 256 * k + d.holder k (roleOf u false)]

/-- The end of the run `r`: converters pass but for those in `bad`, channels leave Calibrating for Off, rotation goes on
(R161, R162, R168, R173). -/
def Dev.calEnd (d : Dev) (r : SelfRun) (bad : List Nat) : Dev :=
  let d0 := d.reach r.due
  let cs := r.units.flatMap d0.roleConvs
  let d1 := (cs ++ r.spares).foldl (fun e x =>
    let k := x / 256
    let c := x % 256
    let role := (e.conv k c).role
    if bad.contains x then
      let e1 := e.convFail k c
      if role < 32 then e1.needSpare k role else e1.modConv k c fun v => { v with role := 0x80 }
    else
      let e1 := e.convPass k c
      if role < 32 then e1.modSt k fun s => { s with noSpare := setBit s.noSpare role false }
      else e1.modConv k c fun v => { v with role := 0x40 }) d0
  let d2 := r.units.foldl (fun e u =>
    let e1 := if (e.ch u).ctl.st = .calibrating then e.enter u .off else e
    let h := e1.topOf u
    if h ≠ u && (e1.ch h).ctl.st = .calibrating then (e1.enter h .off).hearthOff h else e1) d1
  if !r.selfcal then d2
  else
    let nb := ((cs ++ r.spares).filter bad.contains).length
    let d3 := (((d2.wr D.SC_STATUS 0 (if nb = 0 then 2 else 3)).wr D.SC_FAILED 0 (nb : Nat)).wr D.SC_DONE 0 d2.now2).wr
      D.SC_ELAPSED 0 calTicks
    (List.range 16).foldl (fun e k =>
      if (e.st k).rot.ph = .paused then e.modRot k fun x => { x with ph := e.rotIdle k, since := e.clk.cc } else e) d3

/-- The run that ends first. -/
def firstRun : List SelfRun → Option SelfRun
  | [] => none
  | r :: rs => match firstRun rs with
    | none => some r
    | some q => if q.due < r.due then some q else some r

/-- SELFCAL_COMPLETE: the run that ends first comes to its end (R161, R162). -/
def Dev.calComplete (d : Dev) (bad : List Nat) : Dev :=
  match firstRun d.cals with
  | none => d
  | some r => { d with cals := d.cals.erase r }.calEnd r bad

/-! ### Meanings -/

/-- SELFCAL_START (R159–R161). -/
def execSelfcalStart (p : Party) (s : State) : Host.Outcome State Fault Refusal :=
  .next (s.on fun d => d.write p D.SC_CMD 0 0 1 (Status.busy.when (d.rd D.SC_STATUS 0 = 1)) fun e => e.selfcal p)

/-- SELFCAL_COMPLETE (R161, R162). -/
def execSelfcalComplete (failed : List Nat) (s : State) : Host.Outcome State Fault Refusal :=
  .next (s.on fun d => d.calComplete failed)

/-- ROTATION_START (R168). -/
def execRotationStart (k : Nat) (s : State) : Host.Outcome State Fault Refusal := .next (s.on fun d => d.rotInterval k)

/-- ROT_EN_WRITE (R166, R168). -/
def execRotEnWrite (p : Party) (k : Nat) (v : Int) (s : State) : Host.Outcome State Fault Refusal :=
  .next (s.on fun d => d.write p S.ROT_EN k 0 v .ok fun e => e.rotEnable k (v ≠ 0))

/-- SPARE_CAL_DONE (R162, R168). -/
def execSpareCalDone (k : Nat) (pass : Bool) (s : State) : Host.Outcome State Fault Refusal :=
  .next (s.on fun d => d.spareCal k pass)

/-- MATCH_COMPLETE (R168, R169). -/
def execMatchComplete (k : Nat) (s : State) : Host.Outcome State Fault Refusal := .next (s.on fun d => d.matchDone k)

/-- CONVERTER_SWAP (R170). -/
def execConverterSwap (k : Nat) (s : State) : Host.Outcome State Fault Refusal := .next (s.on fun d => d.swap k)

/-- FREED_CAL_DONE (R168). -/
def execFreedCalDone (k : Nat) (pass : Bool) (s : State) : Host.Outcome State Fault Refusal :=
  .next (s.on fun d => d.freedCal k pass)

/-- SUBSTITUTION (R171, R173). -/
def execSubstitution (k : Nat) (s : State) : Host.Outcome State Fault Refusal := .next (s.on fun d => d.substitute k)

end Sys2Proof.Machine
end

