-- ==== Sys2Proof/Machine/Samples.lean ====
section
/-! DEFINITION. A sample on its way: correction, and its copies to the integrator, the accumulators, the lock-in, the
conditions of a sequence, autorange, the acquisition unit and the control engine; the sums of a hearth (R130, R135–R158,
R206, R209). -/

namespace Sys2Proof.Machine

open Sys2Proof

/-! ### Lock-in (R156, R157) -/

/-- Whole turns of the reference at cv count `n`, unwrapped (R156, R214). -/
def Sine.turns (s : Sine) (epoch : Nat) (n : Int) : Int := ((s.f : Int) * (n - epoch) + (s.p : Int) * 2 ^ 32) / 2 ^ 48

/-- A lock-in with one sample demodulated at phase `ph` in 2^-48 turns (R157). -/
def LockIn.add (l : LockIn) (ph : Nat) (yV yI : Int) : LockIn :=
  let c := cosTurn ph (2 ^ 48)
  let s := sinTurn ph (2 ^ 48)
  { l with n := l.n + 1, vr := l.vr + yV * c, vi := l.vi - yV * s, ir := l.ir + yI * c, ii := l.ii - yI * s }

/-- A lock-in whose sums begin anew. -/
def LockIn.clear (l : LockIn) : LockIn := { l with n := 0, vr := 0, vi := 0, ir := 0, ii := 0 }

/-- The next state of a lock-in that is on, at a sample whose reference has completed `t` whole turns (R156). -/
def LockIn.next (l : LockIn) (t : Int) (settle cycles ph f : Nat) (yV yI : Int) : LockIn :=
  let dt := (t - l.turn).toNat
  let m := { l with turn := t }
  match l.ph with
  | .idle => { m.clear with ph := .waitTurn }
  | .waitTurn =>
    if l.turn = 0 && l.left = 0 && l.n = 0 && decide (t ≤ l.turn) then m
    else if t ≤ l.turn then m
    else if settle = 0 then { m.clear with ph := .settled, left := cycles }.add ph yV yI
    else { m with ph := .settling, left := settle }
  | .settling =>
    if dt < l.left then { m with left := l.left - dt }
    else { m.clear with ph := .settled, left := cycles }.add ph yV yI
  | _ =>
    if dt < l.left then { m with ph := .integrating, left := l.left - dt }.add ph yV yI
    else { m.clear with ph := .integrating, left := cycles, done := some ⟨l.n, l.vr, l.vi, l.ir, l.ii, f⟩ }.add ph yV yI

/-- A complete window published: its five results, status, count, and the wait of a step that it ends (R157, R209). -/
def Dev.liPublish (d : Dev) (u : Nat) : Dev :=
  match (d.ch u).meas.li.done with
  | none => d
  | some r =>
    let fv := d.fsNow u true
    let fi := d.fsNow u false
    let mv := isqrt (r.vr * r.vr + r.vi * r.vi).toNat
    let mi := isqrt (r.ir * r.ir + r.ii * r.ii).toNat
    let weak := decide (2 * mi < r.n * 2 ^ 75)
    let ampl := fun (m : Nat) (fs : Rat2) => (Rat2.mk (2 * m * fs.num) (max 1 r.n * 2 ^ 91 * fs.den)).f32
    let z := (Rat2.mk (mv * fv.num) fv.den).div (Rat2.mk (mi * fi.num) fi.den)
    let a0 := atan2 r.vi r.vr - atan2 r.ii r.ir
    let a := if twoPi60 / 2 < a0 then a0 - twoPi60 else if a0 < -(twoPi60 / 2) then a0 + twoPi60 else a0
    let d1 := ((((d.wr C.V_AMPL u (ampl mv fv)).wr C.I_AMPL u (ampl mi fi)).wr C.Z_FREQ u
      (Rat2.mk (r.f * d.clk.fcv : Nat) (2 ^ 48)).f64)).wrap C.LI_SEQNO u 32 1
    let d2 := if weak then d1 else (d1.wr C.Z_MAG u z.f32).wr C.Z_PHASE u (Rat2.mk a (2 ^ 60)).f32
    let d3 := d2.modMeas u fun m => { m with li := { m.li with done := none, valid := true, weak := weak } }
    if (d3.sq u).z = .waiting then
      d3.modSq u fun q => { q with z := .got, zLow := weak, zMag := d3.rd C.Z_MAG u, zPhase := d3.rd C.Z_PHASE u }
    else d3

/-- One sample of edge `n` given to the lock-in of a unit (R156–R158, R209). -/
def Dev.liSample (d : Dev) (u n : Nat) (yV yI : Int) : Dev :=
  match d.liSine u with
  | none =>
    let d1 := if (d.ch u).meas.li.ph = .idle then d
      else d.modMeas u fun m => { m with li := { m.li.restart with ph := .idle } }
    if (d1.sq u).z = .waiting && decide ((d1.sq u).at_ < n) then d1.modSq u fun q => { q with z := .nothing } else d1
  | some s =>
    if !d.liOn u then
      if (d.ch u).meas.li.ph = .idle then d else d.modMeas u fun m => { m with li := { m.li.restart with ph := .idle } }
    else
      let d1 := d.liPublish u
      let e := d1.rdN C.EPOCH (d1.liRef u)
      let N := d1.cvAt n
      let ph := s.phase e N
      let t := s.turns e N
      let st := d1.rdN C.LI_SETTLE u
      let cy := max 1 (d1.rdN C.LI_CYCLES u)
      d1.modMeas u fun m =>
        { m with li := if m.li.ph = .waitTurn && m.li.n = 0 && m.li.left = 0 && decide (t < m.li.turn) then { m.li with turn := t }
                       else m.li.next t st cy ph s.f yV yI }

/-! ### Conditions of WAIT (R206) -/

/-- A sample in A or V, in units of 2^-180. -/
def physCode (y : Int) (fs : Rat2) : Int := y * (fs.num * 2 ^ 149 / (fs.den : Int))

/-- One sample of edge `n` given to the WAIT of engine `u`: the block it belongs to, and the condition at its end (R206). -/
def Dev.waitSample (d : Dev) (u n : Nat) (yV yI : Int) : Dev :=
  let q := d.sq u
  match q.st, q.step with
  | .waiting, .wait _ =>
    let k := bits (wd q.words 1) 7 0
    if k < 3 || 6 < k || decide (n ≤ q.at_) then d
    else
      let c := d.ch u
      let x : Int := if k ≤ 4 then (physCode yI (d.fs u false (c.rngI.at n))).natAbs
        else physCode yV (d.fs u true (c.rngV.at n))
      let sum := q.blkSum + x
      if q.blkN + 1 < wd q.words 3 then d.modSq u fun q => { q with blkN := q.blkN + 1, blkSum := sum }
      else
        let mean : Rat2 := ⟨sum, (q.blkN + 1) * 2 ^ 180⟩
        let hit := if k = 3 || k = 5 then belowF32 mean (wd q.words 2) else aboveF32 mean (wd q.words 2)
        d.modSq u fun q => { q with blkN := 0, blkSum := 0, met := q.met || hit }
  | _, _ => d

/-! ### One corrected pair of samples -/

/-- The sample that waits for the acquisition unit of `u` taken by it, unless it has been; a channel that is Calibrating or
Fenced gives it none (R225). -/
def Dev.acqTake (d : Dev) (m : Mem) (u : Nat) : Dev :=
  let c := d.ch u
  if !c.meas.got || (d.aq u).last == some c.meas.edge || c.ctl.st == .calibrating || c.ctl.st == .fenced then d
  else d.acqSample m u c.meas.edge c.meas.yV c.meas.yI c.meas.cV c.meas.cI

/-- A corrected pair of samples of edge `n` with codes and flags given to every consumer of a unit but its control engine;
the acquisition unit takes it in its own step, at the latest before the next sample comes (R140, R143, R146, R153,
R156, R206, R225). -/
def Dev.consume (d : Dev) (m : Mem) (u n : Nat) (yV yI cV cI : Int) (fV fI : Nat) (swap : Bool) : Dev :=
  let c := d.ch u
  let fsV := d.fs u true (c.rngV.at n)
  let fsI := d.fs u false (c.rngI.at n)
  let lim := fun (f : Nat) => bit f mOver
  let d1 := (d.acqTake m u).accumulate u n yV yI fsV fsI swap
  let d2 := d1.integrate u n yV yI cV cI fV fI
  let d3 := ((d2.liSample u n yV yI).waitSample u n yV yI).arCount u yV yI (lim fV) (lim fI)
  let last := fun (y : Int) (fs : Rat2) => (Rat2.mk (y * fs.num) (2 ^ 31 * fs.den)).f32
  let d4 := ((d3.wr C.V_LAST u (last yV fsV)).wr C.I_LAST u (last yI fsI))
  let d5 := if u < 256 then (d4.wr C.V_RAW_LAST u cV).wr C.I_RAW_LAST u cI else d4
  d5.modMeas u fun x =>
    { x with
      past := if x.got then (⟨x.edge, x.yV, x.yI, x.cV, x.cI⟩ :: x.past).take 2 else [],
      yV := yV, yI := yI, cV := cV, cI := cI, edge := n, got := true, overV := lim fV, overI := lim fI, stale := false,
      settle := none }

/-- Flags of one variable's sample (R144). -/
def Dev.sampleFlags (d : Dev) (u n : Nat) (volt : Bool) (code y : Int) : Nat :=
  let m := (d.ch u).meas
  let sw := if volt then m.swapV else m.swapI
  2 ^ mOver * b2n (codeLimit code) + 2 ^ mSat * b2n (out32 y) + 2 ^ mSwap * b2n (sw == some n) +
    2 ^ mSubst * b2n (bit (d.st (stoveOf u)).subst (roleOf u volt)) + 2 ^ mTest * b2n (volt && d.tdRouted u)

/-- Limits of a Q2.31 sample (R140). -/
def satQ231 (y : Int) : Int := clampI (-(2 ^ 32)) (2 ^ 32 - 1) y

/-- An older sample that has not had its slot is passed over: its decision is missed with cause 3 (R20, R64). -/
def Dev.passOver (d : Dev) (u : Nat) : Dev :=
  match (d.ch u).ctl.fresh with
  | none => d
  | some n0 =>
    if !(d.ch u).ctl.regulating then d
    else ((d.bump S.SLOT_OVERRUNS (stoveOf u) 32 1).report 0x2102 (stoveOf u) (posOf u)).missed u n0 3

/-- A pair of codes of physical channel `u` at the correction stage (R135–R140); a low-power sample that a load of the
cv count cuts short is dropped (R335). -/
def Dev.samplePair (d : Dev) (m : Mem) (u : Nat) (cV cI : Int) (spare : Option Int) : Dev :=
  let n := d.edgeNow u
  if d.flag C.LP_MODE u && (d.cvAt n % 4 ≠ 0 || (decide (n < d.clk.loadTick) && decide (d.clk.loadTick < n + 4))) then d
  else if !d.delivers u then d.modMeas u Meas.missing
  else
    let d0 := match (d.ch u).meas.ap with
      | some a => if a.full then d.endAperture u else d
      | none => d
    let k := stoveOf u
    let c := d0.ch u
    let y := fun (volt : Bool) (code : Int) =>
      satQ231 (correct (d0.conv k (d0.holder k (roleOf u volt))) (d0.factor u volt ((c.rng volt).at n) n) code)
    let yV := y true cV
    let yI := y false cI
    let d1 := (d0.rotSample u n cV cI spare).consume m u n yV yI cV cI (d0.sampleFlags u n true cV yV)
      (d0.sampleFlags u n false cI yI) (c.meas.swapV == some n || c.meas.swapI == some n)
    let d2 := (d1.passOver u).modCtl u fun c =>
      (c.flagIf fSampleSat (out32 yV || out32 yI)).watch cV cI (sat32 yV) (d1.flag C.KELVIN_EN u)
    d2.feed u n (sat32 yV) (sat32 yI) (out32 yV) (out32 yI)

/-- The sample of edge `n`, one of the last three (R130). -/
def Meas.sampleAt (m : Meas) (n : Nat) : Option OldSample :=
  if !m.got then none
  else if m.edge = n then some ⟨m.edge, m.yV, m.yI, m.cV, m.cI⟩
  else m.past.find? fun x => x.edge == n

/-- The edge whose sums of hearth `h` are ready now: n at cv n+10 with all its leaves in one stove, else at n+12 (R130). -/
def Dev.sumEdge (d : Dev) (h l : Nat) : Nat :=
  d.edgeNow l - (if (d.leaves h).all fun u => stoveOf u == stoveOf l then 0 else 2)

/-- The sample of a hearth formed from its active leaves' samples of one edge (R130, R151). -/
def Dev.sampleHearth (d : Dev) (m : Mem) (h : Nat) : Dev :=
  match d.leaderOf h with
  | none => d
  | some l =>
    let n := d.sumEdge h l
    let act := d.active h
    let xs := act.filterMap fun u => ((d.ch u).meas.sampleAt n).map fun x => (u, x)
    if (d.ch h).ctl.st = .calibrating || decide (xs.length ≠ act.length) ||
        ((d.ch h).meas.got && decide (n ≤ (d.ch h).meas.edge)) then d
    else
      let d0 := match (d.ch h).meas.ap with
        | some a => if a.full then d.endAperture h else d
        | none => d
      let c := d0.ch h
      let cvt := fun (u : Nat) (volt : Bool) (y : Int) =>
        rescale y (d0.fsPhys u volt (((d0.ch u).rng volt).at n)) (d0.fs h volt ((c.rng volt).at n))
      let yI := satQ231 (xs.foldl (fun a e => a + cvt e.1 false e.2.yI) 0)
      let yV := satQ231 ((xs.head?.map fun e => cvt e.1 true e.2.yV).getD 0)
      let fl := fun (volt : Bool) => xs.foldl (fun a e =>
        a ||| d0.sampleFlags e.1 n volt (if volt then e.2.cV else e.2.cI) (if volt then e.2.yV else e.2.yI)) 0
      let sw := act.any fun u => (d0.ch u).meas.swapV == some n || (d0.ch u).meas.swapI == some n
      let own := fun (y : Int) => 2 ^ mSat * b2n (out32 y)
      (d0.consume m h n yV yI 0 0 (fl true ||| own yV) (fl false ||| own yI) sw).modCtl h fun c =>
        c.flagIf fSampleSat (out32 yV || out32 yI)

/-- A pair of samples of a unit: a physical channel's codes, or the sums of a hearth. -/
def Dev.sample (d : Dev) (m : Mem) (u : Nat) (cV cI : Int) (spare : Option Int) : Dev :=
  if u < 256 then (d.reachSlot u d.clk.tick).samplePair m u cV cI spare else d.sampleHearth m u

end Sys2Proof.Machine
end

