-- ==== Sys2Proof/Machine/Acquire.lean ====
section
/-! DEFINITION. Meanings of the commands of the acquisition units and the trigger groups (R225–R259). -/

namespace Sys2Proof.Machine

open Sys2Proof

/-! ### Commands of a unit (R228, R230, R249) -/

/-- A FORCE given to group `g`, found by unit `x`: to the fabric of an Armed group; missed in a Fired one (R249, R251,
R252). -/
def Dev.groupForce (d : Dev) (g x : Nat) (us : List Nat) : Dev :=
  match (d.gr g).st with
  | .armed => d.groupTrig g ⟨d.clk.tick - 10, x, 4, d.clk.tick⟩ (d.gr g).fcause
  | .fired => us.foldl (fun e u => e.trigMissed u) d
  | .idle => d

/-- The effect of a code of ACQ_CMD on unit `u`: DISARM and FORCE of a member act on its whole group (R230, R249). -/
def Dev.acqCmdEffect (d : Dev) (m : Mem) (u : Nat) (v : Int) : Dev :=
  match v, d.groupOf u with
  | 1, _ => d.unitArm u
  | 2, some g => d.groupDisarm g
  | 2, none => d.acqDisarm u
  | _, some g => d.groupForce g u [u]
  | _, none => d.acqForce m u

/-- A write of ACQ_CMD: an arm that R231 refuses is answered in ACQ_ERR (R228, R230, R501). -/
def Dev.acqCmd (d : Dev) (m : Mem) (p : Party) (u : Nat) (v : Int) : Dev :=
  d.write p C.ACQ_CMD u 0 v (Status.busy.when (v = 1 && d.ftHolds u)) fun e => e.acqCmdEffect m u v

/-- ACQ_CMD_ARM (R230). -/
def execAcqCmdArm (p : Party) (u : Nat) (s : State) : Host.Outcome State Fault Refusal :=
  .next (s.on fun d => d.acqCmd s.wmem p u 1)

/-- ACQ_CMD_DISARM (R230, R245). -/
def execAcqCmdDisarm (p : Party) (u : Nat) (s : State) : Host.Outcome State Fault Refusal :=
  .next (s.on fun d => d.acqCmd s.wmem p u 2)

/-- ACQ_CMD_FORCE (R233, R235). -/
def execAcqCmdForce (p : Party) (u : Nat) (s : State) : Host.Outcome State Fault Refusal :=
  .next (s.on fun d => d.acqCmd s.wmem p u 3)

/-- Why a write of an object of ACQ_CFG or MASK_CFG is refused by its own rules: outside Idle, and TGROUP while the group
named is Armed or Fired (R229, R253). -/
def Dev.acqCfgCheck (d : Dev) (o : Obj) (u : Nat) (v : Int) : Status :=
  Status.state.when ((d.aq u).st ≠ .idle ||
    (o == C.TGROUP && decide (0 ≤ v) && decide (v < 64) && decide ((d.gr v.toNat).st ≠ .idle)))

/-! ### Events of a unit (R230, R238, R239, R256) -/

/-- WAIT_SPACE_GRANT: the reservation of a unit in Wait space granted as soon as it can be (R230). -/
def execWaitSpaceGrant (u : Nat) (s : State) : Host.Outcome State Fault Refusal :=
  .next (s.on fun d => 
    if (d.aq u).st = .waitSpace && d.canReserve (d.rdN C.ACQ_QUEUE u) 1 (d.acqNeed u) then d.acqReserve u else d)

/-- ACQ_SAMPLE: the sample that has reached the unit is tested and, if kept, written (R225, R234, R238, R255). -/
def execAcqSample (u : Nat) (s : State) : Host.Outcome State Fault Refusal :=
  .next (s.on fun d => d.acqTake s.wmem u)

/-- CAPTURE_COMMIT (R230, R239). -/
def execCaptureCommit (u : Nat) (s : State) : Host.Outcome State Fault Refusal :=
  .next (s.on fun d => if (d.aq u).st = .closing then (d.reach (d.aq u).due).acqCommit u else d)

/-- The end of a unit's Re-arm: armed again by AUTO_REARM or a held arm, else Idle; a member waits for its group
(R230, R249, R252). -/
def Dev.rearmEnd (d : Dev) (u : Nat) : Dev :=
  let a := d.aq u
  if a.st ≠ .rearm then d
  else
    let d1 := (d.reach a.due).modAq u fun a => { a with st := .idle }
    match d1.groupOf u with
    | some g => d1.groupSettle g
    | none =>
      let d2 := d1.modAq u fun a => { a with heldArm := false }
      if a.heldArm || d2.flag C.AUTO_REARM u then d2.acqArm u a.fcause else d2

/-- REARM_END (R230, R252). -/
def execRearmEnd (u : Nat) (s : State) : Host.Outcome State Fault Refusal := .next (s.on fun d => d.rearmEnd u)

/-- The STOP that a mask violation sends to the sequence engine (R256). -/
def Dev.maskStop (d : Dev) (u : Nat) : Dev :=
  match (d.aq u).stopDue with
  | none => d
  | some t => ((d.reach t).modAq u fun a => { a with stopDue := none }).seqStop u

/-- MASK_STOP_SEQUENCE (R256). -/
def execMaskStopSequence (u : Nat) (s : State) : Host.Outcome State Fault Refusal := .next (s.on fun d => d.maskStop u)

/-! ### Groups (R248–R252) -/

/-- Whether a port may command group `g`: no member's unit belongs to the other port (R250). -/
def Dev.groupCheck (d : Dev) (p : Party) (g : Nat) : Status :=
  match p with
  | .console => .ok
  | _ => Status.notOwner.when ((d.groupUnits g).any fun u => d.owner u != 0 && d.owner u != ownerCode p)

/-- A write of TG_CMD; a FORCE of the host is no unit's trigger, and the number of the unit it records is free (R248–R250,
log 8). -/
def Dev.tgCmd (d : Dev) (p : Party) (g : Nat) (v : Int) : Dev :=
  d.write p D.TG_CMD g 0 v (d.groupCheck p g) fun e =>
    if v = 1 then e.groupArm g
    else if v = 2 then e.groupDisarm g
    else e.drawn.groupForce g (e.freeBits 16) (e.groupUnits g)

/-- TG_CMD_ARM (R250). -/
def execTgCmdArm (p : Party) (g : Nat) (s : State) : Host.Outcome State Fault Refusal :=
  .next (s.on fun d => d.tgCmd p g 1)

/-- TG_CMD_DISARM (R249). -/
def execTgCmdDisarm (p : Party) (g : Nat) (s : State) : Host.Outcome State Fault Refusal :=
  .next (s.on fun d => d.tgCmd p g 2)

/-- TG_CMD_FORCE (R249). -/
def execTgCmdForce (p : Party) (g : Nat) (s : State) : Host.Outcome State Fault Refusal :=
  .next (s.on fun d => d.tgCmd p g 3)

/-- The trigger of group `g` reaching one member: it acts on an Armed one, and is counted in Re-arm and Wait space
(R237, R251). -/
def Dev.deliverTrig (d : Dev) (m : Mem) (t : GrpTrig) (c : Cause) (u : Nat) : Dev :=
  match (d.aq u).st with
  | .armed => (d.modAq u fun a => { a with fcause := c }).acqTrigger m u t.edge t.cause t.unit
  | .rearm => d.trigMissed u
  | .waitSpace => d.trigMissed u
  | _ => d

/-- The fabric of group `g` delivers its trigger two cv after it arrived (R251). -/
def Dev.groupDeliver (d : Dev) (m : Mem) (g : Nat) : Dev :=
  match (d.gr g).st, (d.gr g).trig with
  | .armed, some t =>
    let c := (d.gr g).fcause
    let d1 := (d.groupUnits g).foldl (fun e u => e.deliverTrig m t c u) (d.reach (t.arrived + 2))
    let d2 := ((d1.wrap D.TG_FIRES g 32 1).wr D.TG_LAST_UNIT g t.unit).wr D.TG_LAST_TIME g (d1.stamp 2 t.edge)
    (d2.modGr g fun x => { x with st := .fired, trig := none }).raiseC (srcGroup g) c
  | _, _ => d

/-- GROUP_TRIGGER_DELIVERY (R251). -/
def execGroupTriggerDelivery (g : Nat) (s : State) : Host.Outcome State Fault Refusal :=
  .next (s.on fun d => d.groupDeliver s.wmem g)

end Sys2Proof.Machine
end

