-- ==== Sys2Proof/Machine/Calibrate.lean ====
section
/-! DEFINITION. Meanings of the commands of path calibration and of the calibration store (R394–R423). -/

namespace Sys2Proof.Machine

open Sys2Proof

/-! ### Temperatures and pending factors (R398–R402) -/

/-- TEMP_POLL (R398–R400). -/
def execTempPoll (u : Nat) (s : State) : Host.Outcome State Fault Refusal := .next (s.on fun d => d.tempPoll u)

/-- TEMP_SOURCE_STALE: the entry has not been updated for TS_STALE (R398). -/
def Dev.tempStale (d : Dev) (u : Nat) : Dev :=
  match (d.st (stoveOf u)).aux.upd.look (d.rdN C.TS_ENTRY u) with
  | some t =>
    if d.rd C.TS_SRC u = 0 then d
    else (d.reachCc (t + d.rdN D.TS_STALE 0 * (d.clk.fcore / 1000) + 1)).setLost u true
  | none => if d.rd C.TS_SRC u = 0 then d else d.setLost u true

/-- TEMP_SOURCE_STALE (R398). -/
def execTempSourceStale (u : Nat) (s : State) : Host.Outcome State Fault Refusal := .next (s.on fun d => d.tempStale u)

/-- FACTORS_APPLY_IDLE: pending factors of a channel with no open aperture take effect at the first sample edge at least
2 cv after they became pending; those of a leaf together with its hearth's (R402, R403). -/
def Dev.factorsIdle (d : Dev) (u : Nat) : Dev :=
  let t := d.topOf u
  let z := (d.sq t).z == .waiting
  if (d.ch u).meas.pend.isNone || (d.ch t).meas.ap.isSome || z then d
  else
    let n := (d.ch u).meas.pendAt + 2
    (d.reach n).boundary t (max n (d.clk.tick))

/-- FACTORS_APPLY_IDLE (R402). -/
def execFactorsApplyIdle (u : Nat) (s : State) : Host.Outcome State Fault Refusal := .next (s.on fun d => d.factorsIdle u)

/-! ### Runs (R406–R414) -/

/-- CR_CMD_START (R407, R408). -/
def execCrCmdStart (p : Party) (s : State) : Host.Outcome State Fault Refusal := .next (s.on fun d => d.crCmd p 1)

/-- CR_CMD_ABORT (R408). -/
def execCrCmdAbort (p : Party) (s : State) : Host.Outcome State Fault Refusal := .next (s.on fun d => d.crCmd p 2)

/-- CAL_SETTLE_END (R408). -/
def execCalSettleEnd (s : State) : Host.Outcome State Fault Refusal := .next (s.on fun d => d.crSettleEnd)

/-- CAL_PAIR_COMPLETE (R409). -/
def execCalPairComplete (s : State) : Host.Outcome State Fault Refusal := .next (s.on fun d => d.crPair)

/-- CM_ENTRY_WRITE (R410). -/
def execCmEntryWrite (p : Party) (v : Int) (s : State) : Host.Outcome State Fault Refusal :=
  .next (s.on fun d => d.cmEntry p v)

/-- CM_TIMEOUT (R412). -/
def execCmTimeout (s : State) : Host.Outcome State Fault Refusal := .next (s.on fun d => d.cmTimeout)

/-! ### CAL_FACTORS (R416) -/

/-- The 24 bytes of a set, zero for an empty one (R416). -/
def setBytes (x : Option CalSet) : List Byte :=
  match x with
  | none => natLe 24 0
  | some x =>
    natLe 4 x.temp ++ natLe 4 (toU 32 x.o) ++ natLe 4 (toU 32 x.g) ++ natLe 4 (toU 32 x.k2) ++ natLe 4 x.secs ++
      natLe 4 (1 + 2 * x.src + 16 * x.pts)

/-- The record of a channel in a shadow, 2,304 bytes (R416). -/
def recordBytes (m : SMap CalSet) (u : Nat) : List Byte :=
  (List.range 96).flatMap fun i => setBytes (m.look (96 * u + i))

/-- The set that 24 written bytes give: none unless VALID (R416). -/
def setOf (bs : List Byte) : Option CalSet :=
  let w := fun (i : Nat) => leNat ((bs.drop (4 * i)).take 4)
  if w 5 % 2 = 0 then none
  else some ⟨w 0, ofTwos 32 (w 1), ofTwos 32 (w 2), ofTwos 32 (w 3), w 4, 2, bits (w 5) 7 4⟩

/-- The sets of a written record, at their places in the shadow. -/
def recordSets (u : Nat) (bs : List Byte) : List (Nat × CalSet) :=
  (List.range 96).filterMap fun i => (setOf ((bs.drop (24 * i)).take 24)).map fun x => (96 * u + i, x)

/-- Whether a written record breaks R394, has two sets of a range within SET_MERGE, or a temperature that is not finite
(R416). -/
def Dev.recordBad (d : Dev) (xs : List (Nat × CalSet)) : Bool :=
  let m := f32Val (d.rd D.SET_MERGE 0)
  xs.any fun a =>
    f32Bad a.2.temp || !factorOk a.2.factors ||
    xs.any fun b => a.1 ≠ b.1 && a.1 / 8 == b.1 / 8 && ((f32Val a.2.temp).sub (f32Val b.2.temp)).abs.le m

/-- The level of a write of the record of channel `c`: ownership of the channel or of its top-level hearth (R416). -/
def Dev.calLevel (d : Dev) (p : Party) (c : Nat) : Status :=
  if p = .console || d.owner c == ownerCode p then .ok else .notOwner

/-- The answer to a write of CAL_FACTORS (R416). -/
def Dev.factorsCheck (d : Dev) (p : Party) (c : Nat) (bs : List Byte) : Status :=
  match d.gate p 0x2403 true with
  | .ok =>
    if 255 < c then .noObject
    else firstOf [d.calLevel p c, Status.length.when (bs.length ≠ 2304),
      Status.value.when (decide (bs.length = 2304) && d.recordBad (recordSets c bs)), Status.busy.when (d.calHolds c)]
  | x => x

/-- The record of a channel replaced (R416). -/
def Dev.putRecord (d : Dev) (c : Nat) (bs : List Byte) : Dev :=
  let keep := d.shadow.filter fun (e : Nat × CalSet) => e.1 / 96 ≠ c
  (({ d with shadow := (recordSets c bs).foldl (fun m (e : Nat × CalSet) => SMap.ins m e.1 e.2) keep }.renew c).dirty)

/-- CAL_FACTORS_WRITE (R416). -/
def Dev.factorsWrite (d : Dev) (p : Party) (c : Nat) (bs : List Byte) : Dev :=
  d.attempt (d.factorsCheck p c bs) fun e => e.putRecord c bs

/-- CAL_FACTORS_WRITE (R416). -/
def execCalFactorsWrite (p : Party) (sub : Nat) (bytes : List Byte) (s : State) : Host.Outcome State Fault Refusal :=
  .next (s.on fun d => d.factorsWrite p sub bytes)

/-! ### The store (R417–R421) -/

/-- The answer to a write of ST_CMD (R421). -/
def Dev.storeCheck (d : Dev) (p : Party) (v : Int) : Status :=
  if v = 1 then Status.busy.when d.storing.isSome
  else firstOf [Status.level.when (!d.service p), Status.busy.when (d.storing.isSome || d.crBusy || d.crRest ≠ []),
    Status.state.when (d.rd D.BANK_NOW 0 == 0)]

/-- The bank in force (R420, R421). -/
def Dev.bankNow (d : Dev) : Bank := match d.rd D.BANK_NOW 0 with | 1 => d.bankA | 2 => d.bankB | _ => .erased

/-- The sets of a bank. -/
def Bank.sets : Bank → SMap CalSet
  | .valid _ _ m => m
  | _ => []

/-- The factors of every channel formed anew and pending (R400, R421). -/
def Dev.renewAll (d : Dev) : Dev := (List.range 256).foldl (fun e u => e.renew u) d

/-- A write of ST_CMD (R419, R421). -/
def Dev.storeCmd (d : Dev) (p : Party) (v : Int) : Dev :=
  d.write p D.CAL_ST_CMD 0 0 v (d.storeCheck p v) fun e =>
    if v = 1 then { e with storing := some { snap := e.shadow } }.wr D.STORE_RESULT 0 1
    else { e with shadow := e.bankNow.sets }.renewAll.wr D.DIRTY 0 0

/-- CAL_STORE (R419). -/
def execCalStore (p : Party) (s : State) : Host.Outcome State Fault Refusal := .next (s.on fun d => d.storeCmd p 1)

/-- CAL_RELOAD (R421). -/
def execCalReload (p : Party) (s : State) : Host.Outcome State Fault Refusal := .next (s.on fun d => d.storeCmd p 2)

/-- The bank not in force given a content. -/
def Dev.setOther (d : Dev) (b : Bank) : Dev :=
  if d.rd D.BANK_NOW 0 = 1 then { d with bankB := b } else { d with bankA := b }

/-- A flash read compare with injection: a lasting failure under a continuous one (R431, R449, R451). -/
def Dev.flashCompare (d : Dev) : Dev × Bool :=
  if d.injArmed .flash 0 then
    let lasting : Bool := d.rd D.FI_INJ_STATE 0 = 3
    ((d.injHit false).reportInj (if lasting then 0x3731 else 0x3730) 0 0 1, lasting)
  else (d, false)

/-- SEQ of the next bank (R419). -/
def Dev.nextSeq (d : Dev) : Nat :=
  match d.rdN D.BANK_NOW 0 with
  | 0 => 1
  | _ => (d.rdN D.SEQ_NOW 0 + 1) % 2 ^ 32

/-- The store has ended: `ok` where the flash took everything; it waits while an image is erased or committed (R419,
R481). -/
def Dev.storeDone (d : Dev) (ok : Bool) : Dev :=
  match d.storing with
  | none => d
  | some x =>
    if d.rd D.IMG_STATE 0 = 1 || d.rd D.IMG_STATE 0 = 3 then d
    else
    let r := d.flashCompare
    let d1 := { r.1 with storing := none }
    if ok && !r.2 then
      let seq := d1.nextSeq
      let d2 := d1.setOther (.valid seq Config.serial x.snap)
      let d3 := (d2.wr D.BANK_NOW 0 (if d1.rd D.BANK_NOW 0 = 1 then 2 else 1)).wr D.SEQ_NOW 0 seq
      let d4 := (d3.wr D.STORE_RESULT 0 2).wr D.STORED_AT 0 (d3.tbase 3).ns
      if x.changed then d4 else d4.wr D.DIRTY 0 0
    else ((d1.setOther (.torn none)).wr D.STORE_RESULT 0 3).report 0x3734 0 0

end Sys2Proof.Machine
end

