-- ==== Sys2Proof/Machine/FaultTable.lean ====
section
/-! DEFINITION. The fault sources (R424–R428): code, name, default count N and whether it is fixed, default reaction and
whether it is fixed, and the kind of unit an event names. -/

namespace Sys2Proof.Machine

/-- The kind of unit a fault event names (R425). -/
inductive FUnit where
  | chan
  | virt
  | stove
  | none
  | port
  | half
  | tb
  | queue
  | cls
  | ports
  deriving DecidableEq, Repr

/-- A fault source (R424–R428); `react` is 0 none, 1 the unit, 2 every stove. -/
structure FSource where
  code : Nat
  name : String
  n : Nat
  nFixed : Bool
  react : Nat
  rFixed : Bool
  kind : FUnit
  deriving DecidableEq, Repr

/-- Channel sources of blocks 1 and 2 (R426). -/
def sourcesCh0 : List FSource := [
  ⟨0x1100, "DEADLINE", 3, false, 0, false, .chan⟩,
  ⟨0x1101, "IDLE_FORCED", 3, false, 1, false, .chan⟩,
  ⟨0x1102, "CHATTER", 3, false, 0, false, .chan⟩,
  ⟨0x1103, "OSCILLATION", 3, false, 0, false, .chan⟩,
  ⟨0x1104, "FB_STUCK", 1, true, 1, true, .chan⟩,
  ⟨0x1105, "FB_KELVIN", 1, true, 1, true, .chan⟩,
  ⟨0x1106, "FB_SAT", 1, true, 1, true, .chan⟩,
  ⟨0x1107, "COEF_ORDER", 0, false, 0, false, .chan⟩,
  ⟨0x1208, "V_SUBST", 1, false, 0, false, .chan⟩,
  ⟨0x1209, "I_SUBST", 1, false, 0, false, .chan⟩,
  ⟨0x120A, "V_FAILED", 1, false, 1, false, .chan⟩,
  ⟨0x120B, "I_FAILED", 1, false, 1, false, .chan⟩,
  ⟨0x120C, "V_SUSPECT", 3, false, 0, false, .chan⟩,
  ⟨0x120D, "I_SUSPECT", 3, false, 0, false, .chan⟩,
  ⟨0x120E, "ACC_SAT", 1, false, 0, false, .chan⟩,
  ⟨0x120F, "NO_LINE", 0, false, 0, false, .chan⟩]

/-- Channel sources of blocks 3 to 5 (R426). -/
def sourcesCh1 : List FSource := [
  ⟨0x1310, "OVER_TOP", 3, false, 0, false, .chan⟩,
  ⟨0x1311, "RANGE_STUCK", 1, false, 0, false, .chan⟩,
  ⟨0x1312, "BOTH_PATHS", 1, false, 1, false, .chan⟩,
  ⟨0x1313, "RESCALE_SAT", 0, false, 0, false, .chan⟩,
  ⟨0x1314, "SHARE_LATE", 3, false, 0, false, .chan⟩,
  ⟨0x1315, "LEASE_ACTION", 1, false, 0, false, .chan⟩,
  ⟨0x1316, "DISPUTED", 1, false, 0, false, .chan⟩,
  ⟨0x1317, "OFF_BY_FLUE", 0, false, 0, false, .chan⟩,
  ⟨0x1418, "MEMBER_FENCED", 0, false, 0, false, .virt⟩,
  ⟨0x1419, "DEGRADED", 1, false, 0, false, .virt⟩,
  ⟨0x141A, "LEADER_CHANGED", 0, false, 0, false, .virt⟩,
  ⟨0x141B, "HEARTH_MIN", 1, true, 0, false, .virt⟩,
  ⟨0x141C, "IL_UNLOCKED", 0, false, 0, false, .virt⟩,
  ⟨0x1520, "SEQ_ERROR", 1, false, 0, false, .chan⟩,
  ⟨0x1521, "STARVE", 3, false, 0, false, .chan⟩,
  ⟨0x1522, "JUMP_REFUSED", 0, false, 0, false, .chan⟩,
  ⟨0x1523, "AUTORUN_REFUSED", 1, false, 0, false, .chan⟩]

/-- Channel sources of blocks 6 to 8 (R426). -/
def sourcesCh2 : List FSource := [
  ⟨0x1628, "ARM_REFUSED", 0, false, 0, false, .chan⟩,
  ⟨0x1629, "TRIG_MISSED", 0, false, 0, false, .chan⟩,
  ⟨0x162A, "MASK_VIOLATION", 0, false, 0, false, .chan⟩,
  ⟨0x162B, "SAMPLES_LOST", 3, false, 0, false, .chan⟩,
  ⟨0x162C, "INJ_ABORTED", 0, false, 0, false, .chan⟩,
  ⟨0x162D, "STAGING_DROP", 3, false, 0, false, .chan⟩,
  ⟨0x1730, "TEMP_LOST", 3, false, 0, false, .chan⟩,
  ⟨0x1731, "TEMP_OUT", 0, false, 0, false, .chan⟩,
  ⟨0x1732, "CAL_RUN", 1, false, 0, false, .chan⟩,
  ⟨0x1733, "CAL_SHADOW_TRANSIENT", 3, false, 0, false, .chan⟩,
  ⟨0x1734, "CAL_SHADOW_LASTING", 1, true, 1, false, .chan⟩,
  ⟨0x1838, "MANUAL_FENCE", 1, true, 1, true, .chan⟩]

/-- Stove sources (R427). -/
def sourcesSt : List FSource := [
  ⟨0x2100, "INTERLOCK", 1, true, 0, false, .stove⟩,
  ⟨0x2101, "SE_MISMATCH", 1, false, 1, false, .stove⟩,
  ⟨0x2102, "SLOT_OVERRUN", 3, false, 0, false, .stove⟩,
  ⟨0x2103, "STOVE_DOMAIN", 1, false, 1, false, .stove⟩,
  ⟨0x2104, "MANUAL_FENCE", 1, true, 1, true, .stove⟩,
  ⟨0x2208, "RL_UPSET", 3, false, 0, false, .stove⟩,
  ⟨0x2209, "RL_TRANSIENT", 3, false, 0, false, .stove⟩,
  ⟨0x220A, "RL_LASTING", 1, true, 1, false, .stove⟩,
  ⟨0x2310, "CONV_FAILED", 1, false, 0, false, .stove⟩,
  ⟨0x2311, "CONV_MISMATCH", 3, false, 0, false, .stove⟩,
  ⟨0x2312, "SPARE_EXHAUSTED", 1, false, 0, false, .stove⟩,
  ⟨0x2313, "ROTATION_ABANDONED", 0, false, 0, false, .stove⟩,
  ⟨0x2314, "SWAP", 0, false, 0, false, .stove⟩,
  ⟨0x2315, "SUBSTITUTION", 1, false, 0, false, .stove⟩,
  ⟨0x2418, "HEARTH_BUS_PARITY", 3, false, 0, false, .stove⟩,
  ⟨0x2520, "AUX_OVERRUN", 0, false, 0, false, .stove⟩,
  ⟨0x2521, "URG_OVERRUN", 0, false, 0, false, .stove⟩,
  ⟨0x2522, "REF_OUT", 3, false, 0, false, .stove⟩,
  ⟨0x2523, "VDDA_OUT", 3, false, 1, false, .stove⟩,
  ⟨0x2524, "STOVE_HOT", 1, false, 1, false, .stove⟩]

/-- Device sources of blocks 1 to 4 (R428). -/
def sourcesDev0 : List FSource := [
  ⟨0x3100, "SUPPLY_LOW", 1, false, 2, false, .none⟩,
  ⟨0x3101, "SUPPLY_LOW", 1, false, 2, false, .none⟩,
  ⟨0x3102, "SUPPLY_LOW", 1, false, 2, false, .none⟩,
  ⟨0x3103, "SUPPLY_LOW", 1, false, 2, false, .none⟩,
  ⟨0x3104, "SUPPLY_LOW", 1, false, 2, false, .none⟩,
  ⟨0x3105, "SUPPLY_LOW", 1, false, 2, false, .none⟩,
  ⟨0x3106, "SUPPLY_LOW", 1, false, 2, false, .none⟩,
  ⟨0x3107, "SUPPLY_LOW", 1, false, 2, false, .none⟩,
  ⟨0x3208, "CORE_PLL", 1, false, 2, false, .none⟩,
  ⟨0x3209, "CV_PLL", 1, false, 2, false, .none⟩,
  ⟨0x320A, "CVCLK_LOST", 1, false, 2, false, .none⟩,
  ⟨0x320B, "SYSCLK_OUT", 1, false, 0, false, .none⟩,
  ⟨0x320C, "DIE_WARM", 1, false, 0, false, .none⟩,
  ⟨0x320D, "DIE_HOT", 1, false, 2, false, .none⟩,
  ⟨0x320E, "SERDES_REF", 1, false, 1, false, .port⟩,
  ⟨0x3310, "WATCHDOG", 1, true, 1, true, .half⟩,
  ⟨0x3311, "HALF_LINK", 3, false, 0, false, .none⟩,
  ⟨0x3312, "DICT_SHADOW_TRANSIENT", 3, false, 0, false, .half⟩,
  ⟨0x3313, "DICT_SHADOW_LASTING", 1, true, 1, false, .half⟩,
  ⟨0x3314, "CORE_TRAP", 1, false, 1, false, .half⟩,
  ⟨0x3315, "MAILBOX", 3, false, 0, false, .none⟩,
  ⟨0x3316, "HALF_FENCE", 1, true, 1, true, .half⟩,
  ⟨0x3418, "LINK_LOST", 0, false, 0, false, .port⟩,
  ⟨0x3419, "FEC_UNCORR", 3, false, 0, false, .port⟩,
  ⟨0x341A, "REQUEST_DROPPED", 0, false, 0, false, .port⟩,
  ⟨0x341B, "TSQ_OVERFLOW", 3, false, 0, false, .port⟩,
  ⟨0x341C, "LAUNCH_LATE", 0, false, 0, false, .port⟩,
  ⟨0x341D, "LEASE_EXPIRED", 1, false, 0, false, .port⟩,
  ⟨0x341E, "STREAM_STOPPED", 1, false, 0, false, .port⟩,
  ⟨0x341F, "MANUAL_FENCE", 1, true, 1, true, .port⟩]

/-- Device sources of blocks 5 to 8 (R428). -/
def sourcesDev1 : List FSource := [
  ⟨0x3520, "TIME_JUMP", 1, false, 0, false, .tb⟩,
  ⟨0x3521, "STEP_REFUSED", 0, false, 0, false, .tb⟩,
  ⟨0x3522, "RATE_CLAMP", 3, false, 0, false, .tb⟩,
  ⟨0x3523, "MASTER_LOST", 1, false, 0, false, .tb⟩,
  ⟨0x3524, "MASTER_CHANGED", 0, false, 0, false, .tb⟩,
  ⟨0x3525, "SYNC_SHIFT", 0, false, 0, false, .none⟩,
  ⟨0x3628, "FLUE_LOOP", 3, false, 0, false, .none⟩,
  ⟨0x3629, "QDESC_TRANSIENT", 3, false, 0, false, .queue⟩,
  ⟨0x362A, "QDESC_LASTING", 1, true, 0, false, .queue⟩,
  ⟨0x362B, "QUEUE_CONTENT", 1, false, 0, false, .queue⟩,
  ⟨0x362C, "QUOTA_DROP", 0, false, 0, false, .cls⟩,
  ⟨0x3730, "FLASH_TRANSIENT", 3, false, 0, false, .none⟩,
  ⟨0x3731, "FLASH_LASTING", 1, true, 0, false, .none⟩,
  ⟨0x3732, "CAL_LOAD", 1, false, 0, false, .none⟩,
  ⟨0x3733, "STORE_INTERRUPTED", 1, false, 0, false, .none⟩,
  ⟨0x3734, "STORE_FAILED", 1, false, 0, false, .none⟩,
  ⟨0x3735, "HISTORY_TRANSIENT", 3, false, 0, false, .none⟩,
  ⟨0x3736, "HISTORY_LASTING", 1, true, 0, false, .none⟩,
  ⟨0x3737, "HISTORY_LOST", 0, false, 0, false, .none⟩,
  ⟨0x3838, "OWN_SPLIT", 1, true, 0, true, .none⟩,
  ⟨0x3839, "ARBITRATED", 0, false, 0, false, .none⟩,
  ⟨0x383A, "SRV_GRANT", 0, false, 0, false, .ports⟩,
  ⟨0x383B, "IMAGE_REFUSED", 1, false, 0, false, .none⟩]

/-- Every fault source. -/
def fSources : List FSource := sourcesCh0 ++ sourcesCh1 ++ sourcesCh2 ++ sourcesSt ++ sourcesDev0 ++ sourcesDev1

/-- The source of a code. -/
def fSource (code : Nat) : Option FSource := fSources.find? fun x => x.code == code

/-- Sources the retry rule names transient (R429, R431, R449). -/
def fTransient (code : Nat) : Bool :=
  code == 0x1733 || code == 0x2209 || code == 0x3312 || code == 0x3629 || code == 0x3730 || code == 0x3735

/-- Whether a number is a unit of a kind (R425). -/
def FUnit.has (k : FUnit) (u : Nat) : Bool :=
  match k with
  | .chan => decide (u < 384)
  | .virt => decide (256 ≤ u) && decide (u < 384)
  | .stove => decide (u < 16)
  | .none => u == 0
  | .port => decide (u < 2)
  | .half => decide (u < 2)
  | .tb => decide (u < 4)
  | .queue => decide (u < 65536)
  | .cls => decide (u < 4)
  | .ports => u == 0

/-- Whether a unit of a kind can be fenced (R430). -/
def FUnit.fences (k : FUnit) : Bool :=
  match k with
  | .chan => true
  | .virt => true
  | .stove => true
  | .port => true
  | .half => true
  | _ => false

/-- The target on which an event stands (R445, R536). -/
def FUnit.target (k : FUnit) (u : Nat) : Nat :=
  match k with
  | .chan => u
  | .virt => u
  | .stove => 0x1000 + u
  | .port => 0x2000 + u
  | .half => 0x2100 + u
  | _ => 0x3000

end Sys2Proof.Machine
end

