-- ==== Sys2Proof/Machine/Control.lean ====
section
/-! DEFINITION. Meanings of the commands of the control engine (R36–R88): channel commands, samples, decisions, edges,
coefficients, detectors, injection. -/

namespace Sys2Proof.Machine

open Sys2Proof

/-! ### Channel commands (R36–R42) -/

/-- A write of CH_CMD; one that a calibration run lets through ends the run (R36–R42, R124, R125, R412, R414). -/
def Dev.chCmd (d : Dev) (p : Party) (u : Nat) (v : Int) : Dev :=
  match ChCmd.ofCode v with
  | none => d.write p C.CH_CMD u 0 v .value id
  | some x => d.write p C.CH_CMD u 0 v (d.chCheck u x) fun e =>
    ((e.chApply u x false).crFailOn u 5).ftAbortIf (x = .off && (e.active u).any e.ftHolds)

/-- CH_CMD_OFF (R38). -/
def execChCmdOff (p : Party) (u : Nat) (s : State) : Host.Outcome State Fault Refusal :=
  .next (s.on fun d => d.chCmd p u 1)

/-- CH_CMD_MONITOR (R38). -/
def execChCmdMonitor (p : Party) (u : Nat) (s : State) : Host.Outcome State Fault Refusal :=
  .next (s.on fun d => d.chCmd p u 2)

/-- CH_CMD_SOURCE (R38, R40). -/
def execChCmdSource (p : Party) (u : Nat) (s : State) : Host.Outcome State Fault Refusal :=
  .next (s.on fun d => d.chCmd p u 3)

/-- CH_CMD_HOLD (R38, R41). -/
def execChCmdHold (p : Party) (u : Nat) (s : State) : Host.Outcome State Fault Refusal :=
  .next (s.on fun d => d.chCmd p u 4)

/-- CH_CMD_RESUME (R39). -/
def execChCmdResume (p : Party) (u : Nat) (s : State) : Host.Outcome State Fault Refusal :=
  .next (s.on fun d => d.chCmd p u 5)

/-- CH_CMD_CALIBRATE (R38). -/
def execChCmdCalibrate (p : Party) (u : Nat) (s : State) : Host.Outcome State Fault Refusal :=
  .next (s.on fun d => d.chCmd p u 6)

/-! ### Samples and decisions (R49–R65, R140) -/

/-- SAMPLE_CORRECTED: a pair of raw codes of channel `u`, with the code of a spare that is being matched to one of its
roles, reaches the correction stage; for a virtual channel, its leaves' samples of one edge are summed (R130, R140). -/
def execSampleCorrected (u : Nat) (vIn iIn : BitVec 16) (spare : Option (BitVec 16)) (s : State) :
    Host.Outcome State Fault Refusal :=
  .next (s.on fun d => d.sample s.wmem u vIn.toInt iIn.toInt (spare.map BitVec.toInt))

/-- The record of a sample whose decision was missed: target and error were not formed, and are free (R88). -/
def Dev.injMissed (d : Dev) (u n : Nat) : Dev :=
  let iu := d.injUnit u
  if !d.injLive iu then d
  else
    let c := (d.ch u).ctl
    let t : Int := ofTwos 32 (d.freeBits 32)
    let e : Int := ofTwos 32 (d.drawn.freeBits 32)
    let regV : Bool := c.limit.isSome == decide (d.rd C.MODE (d.topOf u) = 1)
    let x := (if regV then c.hv else c.hi).getD 0 0
    d.drawn.drawn.injSample iu n t e x true false 0

/-- The slot of channel `u`: the decision for its newest sample, or a missed decision for the cause given
(R49, R64, R127). -/
def Dev.slotDecision (d : Dev) (u : Nat) : Dev :=
  let c := (d.ch u).ctl
  let n := c.fresh.getD (d.edgeNow u)
  let d1 := d.modCtl u fun c => { c with fresh := none, swapSlot := false }
  if c.swapSlot then (d1.missed u n 2).injMissed u n
  else if c.fresh.isNone then (d1.missed u n 0).injMissed u n
  else match d1.lawOf u n with
    | none => (d1.missed u n 1).injMissed u n
    | some w => d1.decision u n w

/-- The engine's step for channel `u` in its slot: the sequence engine's target first, on the coefficients in force in
this cv (R49, R72, R205). -/
def Dev.engineSlot (d : Dev) (u : Nat) : Dev :=
  if 256 ≤ u || !(d.ch u).ctl.regulating then d
  else (d.reachSlot u d.clk.tick).withOlds fun e =>
    let t := e.clk.tick
    let h := e.topOf u
    let e1 := e.syncTarget u t
    let e2 := if h = u then e1 else e1.syncTarget h t
    (if h ≠ u && e2.leaderOf h == some u then e2.degrade h else e2).slotDecision u

/-- ENGINE_DECISION (R49). -/
def execEngineDecision (u : Nat) (s : State) : Host.Outcome State Fault Refusal :=
  .next (s.on fun d => d.engineSlot u)

/-- The idle state of a switching stage that four missed decisions force: both gates low at the edge of the following cv;
the count of periods restarts (R61, R65, R426 IDLE_FORCED). -/
def Dev.forceIdle (d : Dev) (u : Nat) : Dev :=
  let c := (d.ch u).ctl
  if !c.regulating || c.missRun < 4 || c.idled then d
  else
    let d1 := (d.reach (d.clk.tick + 1)).modCtl u fun c => { c with idled := true }
    let d2 := if d.rd C.STAGE_KIND u ≠ 0 then d1
      else d1.modCtl u fun c =>
        { c with sw := .idle, out := .idle, prior := .idle, pend := none, highs := [], locked := false, oscSum := 0, oscN := 0 }
    d2.report 0x1101 u 0

/-- IDLE_FORCED (R65). -/
def execIdleForced (u : Nat) (s : State) : Host.Outcome State Fault Refusal :=
  .next (s.on fun d => d.forceIdle u)

/-- A pending edge lands at its time (R55). -/
def Dev.deferredEdge (d : Dev) (u : Nat) : Dev :=
  match (d.ch u).ctl.pend with
  | none => d
  | some t => (d.reach (t / 64)).land u t

/-- DEFERRED_EDGE (R55). -/
def execDeferredEdge (u : Nat) (s : State) : Host.Outcome State Fault Refusal :=
  .next (s.on fun d => d.deferredEdge u)

/-- Tick at which 16 target periods have gone by since the last edge to high at `h`, in 1/64 cv (R61). -/
def lockDue (fcv fsw h : Nat) : Nat := (h * fsw + 16 * 64 * fcv + (64 * fsw - 1)) / (64 * max 1 fsw)

/-- BAND_LOCKED cleared because no edge to high has come for 16 × Tt (R61). -/
def Dev.lockTimeout (d : Dev) (u : Nat) : Dev :=
  let c := (d.ch u).ctl
  match c.highs with
  | [] => d
  | h :: _ =>
    if !c.locked then d
    else (d.reach (lockDue d.clk.fcv (d.rdN C.FSW_TARGET u) h)).modCtl u fun c => { c with locked := false }

/-- BAND_LOCK_TIMEOUT (R61). -/
def execBandLockTimeout (u : Nat) (s : State) : Host.Outcome State Fault Refusal :=
  .next (s.on fun d => d.lockTimeout u)

/-! ### Coefficients and the feed-forward window (R58, R59, R62, R72, R133) -/

/-- Unit `u`, and its leaves where it is a hearth. -/
def Dev.withLeaves (d : Dev) (u : Nat) : List Nat := if u < 256 then [u] else u :: d.leaves u

/-- What a coefficient's write does beside the object's value: the target, the band, and the lock (R41, R61, R62, R133,
R205). -/
def Dev.coefEffect (d : Dev) (o : Obj) (u : Nat) (v : Int) : Dev :=
  if o = C.SETPOINT then
    let d1 := if (d.sq u).st.active then d.modSq u fun q => { q with setAt := max q.setAt (d.lastSlot u) } else d
    d1.modCtl u fun c => { c with tgt := if c.st = .hold then c.tgt else v }
  else if o = C.BAND then (d.withLeaves u).foldl (fun e l => e.modCtl l fun c => { c with band := v }) d
  else if o = C.LOCK_EN && v = 0 then (d.withLeaves u).foldl (fun e l => e.modCtl l fun c => { c with locked := false }) d
  else d

/-- A coefficient stored, to be used from the slots of the next cv (R72, R133). -/
def Dev.coefStore (d : Dev) (o : Obj) (u i : Nat) (v : Int) : Dev :=
  let d1 := (d.withLeaves u).foldl (fun e l => e.noteOld o l i) d
  (d1.storeCh o u i v).coefEffect o u v

/-- Table and entry a unit's FF_SEL selects, as a place in its tables (R58). -/
def Dev.ffPlace (d : Dev) (u : Nat) : Nat := d.rdN C.FF_SEL u / 4096 * 256 + d.rdN C.FF_SEL u % 256

/-- FF_SEL with its entry advanced (R59). -/
def ffNext (sel : Nat) : Nat :=
  let t := sel / 4096
  let last := if t = 12 then 63 else 255
  t * 4096 + (if last ≤ sel % 256 then 0 else sel % 256 + 1)

/-- ENTRY of a unit advanced where FF_AUTOINC is set; a hearth's window is its leaves' as well (R59, R133). -/
def Dev.ffAdvance (d : Dev) (u : Nat) : Dev :=
  if d.flag C.FF_AUTOINC u then d.storeCh C.FF_SEL u 0 (ffNext (d.rdN C.FF_SEL u) : Nat) else d

/-- A write of FF_SEL: tables 13 to 15 and entries above 63 of the phase table are refused (R58). -/
def Dev.ffSelWrite (d : Dev) (p : Party) (u : Nat) (v : Int) : Dev :=
  let n := v.toNat
  let bad := decide (12 < n / 4096) || (n / 4096 == 12 && decide (63 < n % 256))
  d.write p C.FF_SEL u 0 v (Status.value.when bad) fun e => e.storeCh C.FF_SEL u 0 (n / 4096 * 4096 + n % 256 : Nat)

/-- A write of FF_DATA: the selected entry, of a hearth and of every leaf, and ENTRY (R59, R72, R133, R388). -/
def Dev.ffWrite (d : Dev) (p : Party) (u : Nat) (v : Int) : Dev :=
  d.write p C.FF_DATA u 0 v .ok fun e =>
    let k := e.ffPlace u
    ((e.withLeaves u).foldl (fun a l =>
      (a.noteOld C.FF_DATA l 0).modCtl l fun c => { c with ff := SMap.set 0 c.ff k v.toNat }) e).ffAdvance u

/-- A read of FF_DATA (R59, R388). -/
def Dev.ffRead (d : Dev) (p : Party) (u : Nat) : Dev :=
  d.read p C.FF_DATA u 0 .ok (.num (SMap.get 0 (d.ch u).ctl.ff (d.ffPlace u) : Nat)) fun e => e.ffAdvance u

/-! ### Injection (R86, R87) -/

/-- Why a write of a non-zero INJ_MODE does not start a run: outside Source, during a run of another mode, without a
queue on a virtual channel, with the queue in an acquisition unit's use; a period of 1 is no period of a square or a
sine (R86, R87, R231). -/
def Dev.injCheck (d : Dev) (u : Nat) (v : Int) : Status :=
  let c := (d.ch u).ctl
  let q := d.rdN C.INJ_QUEUE u
  if v = 0 then .ok
  else if c.inj.on then Status.state.when (d.rd C.INJ_MODE u ≠ v)
  else firstOf [Status.value.when ((v = 1 || v = 2) && decide (d.rdN C.INJ_PERIOD u < 2)),
    Status.state.when (c.st ≠ .source || (decide (256 ≤ u) && decide (65535 < q)) ||
      d.acqs.any fun e => e.2.st != .idle && d.rd C.ACQ_QUEUE e.1 == (q : Int))]

/-- A run started at the next cv (R87). -/
def Dev.injStart (d : Dev) (u : Nat) (v : Int) : Dev :=
  let order := d.rdN C.INJ_PRBS u
  let d1 := (d.wr C.INJ_MODE u v).wr C.INJ_STATUS u 1
  d1.modCtl u fun c =>
    { c with inj := { on := true, from_ := d.clk.tick + 1, prbs := 2 ^ order - 1 } }

/-- A write of INJ_MODE (R87). -/
def Dev.injWrite (d : Dev) (p : Party) (u : Nat) (v : Int) : Dev :=
  d.write p C.INJ_MODE u 0 v (d.injCheck u v) fun e =>
    if v = 0 then e.injEnd u 2 else if (e.ch u).ctl.inj.on then e else e.injStart u v

/-- A write of a coefficient by its offset and subindex (R72). -/
def Dev.coefWrite (d : Dev) (p : Party) (o : Obj) (u i : Nat) (v : Int) : Dev :=
  if o = C.FF_DATA then d.ffWrite p u v
  else if o = C.INJ_MODE then d.injWrite p u v
  else d.write p o u i v .ok fun e => e.coefStore o u i v

/-- COEFFICIENT_WRITE (R72): `code` is 256 × offset + subindex; a code that names no coefficient names no object. -/
def execCoefficientWrite (p : Party) (u code : Nat) (v : Int) (s : State) : Host.Outcome State Fault Refusal :=
  .next (s.on fun d =>
    match findObj objectsC (code / 256) (code % 256) with
    | some o => if isCoef o then d.coefWrite p o u (code % 256 - o.sub) v else d.say .noObject
    | none => d.say .noObject)

/-- FF_DATA_WRITE (R59). -/
def execFfDataWrite (p : Party) (u : Nat) (v : Int) (s : State) : Host.Outcome State Fault Refusal :=
  .next (s.on fun d => d.ffWrite p u v)

/-- FF_DATA_READ (R59). -/
def execFfDataRead (p : Party) (u : Nat) (s : State) : Host.Outcome State Fault Refusal :=
  .next (s.on fun d => d.ffRead p u)

/-! ### Detectors (R76–R82) -/

/-- The detection of an oscillation and its reaction (R76). -/
def Dev.oscDetect (d : Dev) (u : Nat) : Dev :=
  let c := (d.ch u).ctl
  if !c.regulating || !d.flag C.OSC_EN u || c.oscRun < d.rdN C.OSC_CYCLES u then d
  else
    let d1 := (((d.modCtl u fun c => { c.flagIf fOscDetect true with oscRun := 0 }).bump C.OSC_COUNT u 16 1).raise
      (srcCh u 10)).report 0x1103 u 0
    match d1.rdN C.OSC_REACT u with
    | 1 => d1.wr C.LOCK_SHIFT u (min 15 (d1.rd C.LOCK_SHIFT u + 1))
    | 2 => d1.fenceCh u
    | _ => d1

/-- OSC_DETECTION (R76). -/
def execOscDetection (u : Nat) (s : State) : Host.Outcome State Fault Refusal := .next (s.on fun d => d.oscDetect u)

/-- A lost-feedback detection: the damper shut, its flag set, its source reported (R82). -/
def Dev.lostFeedback (d : Dev) (u flag code detail : Nat) : Dev :=
  ((d.fenceCh u).modCtl u fun c => c.flagIf flag true).report code u detail

/-- The stuck converter of one variable of a regulating channel, if there is one (R79). -/
def Dev.stuck (d : Dev) (u : Nat) (volt : Bool) : Bool :=
  let c := (d.ch u).ctl
  let x := if volt then c.stuckV else c.stuckI
  c.regulating && x.edge && decide (d.rdN C.STUCK_COUNT u ≤ x.run)

/-- The detection of a stuck converter, which is found failed; its role waits for a spare (R79, R82, R171, R426). -/
def Dev.stuckDetect (d : Dev) (u : Nat) : Dev :=
  if !d.stuck u true && !d.stuck u false then d
  else
    let volt := d.stuck u true
    let k := stoveOf u
    let r := roleOf u volt
    (d.lostFeedback u fFbStuck 0x1104 (d.holder k r)).needSpare k r

/-- FB_STUCK_DETECT (R79). -/
def execFbStuckDetect (u : Nat) (s : State) : Host.Outcome State Fault Refusal := .next (s.on fun d => d.stuckDetect u)

/-- A half-period of the Kelvin sense check at its end: the current reverses, and after each full period its two averages
are compared (R80). -/
def Dev.kelvinHalf (d : Dev) (u : Nat) : Dev :=
  let c := (d.ch u).ctl
  if !c.regulating || !d.flag C.KELVIN_EN u || c.kelN < 8192 then d
  else match c.kelHalf with
    | none => d.modCtl u fun c => { c with kelN := 0, kelSum := 0, kelHalf := some c.kelSum, kelRev := !c.kelRev }
    | some h =>
      let bad := decide (d.rd C.KELVIN_WINDOW u * 8192 < ((c.kelSum - h).natAbs : Int))
      let n := if bad then c.kelBad + 1 else 0
      let d1 := d.modCtl u fun c => { c with kelN := 0, kelSum := 0, kelHalf := none, kelRev := !c.kelRev, kelBad := n }
      if 2 ≤ n then d1.lostFeedback u fFbKelvin 0x1105 0 else d1

/-- KELVIN_HALF_PERIOD (R80). -/
def execKelvinHalfPeriod (u : Nat) (s : State) : Host.Outcome State Fault Refusal :=
  .next (s.on fun d => d.kelvinHalf u)

/-- The detection of persistent saturation (R81). -/
def Dev.satDetect (d : Dev) (u : Nat) : Dev :=
  let c := (d.ch u).ctl
  if !c.regulating || c.satRun < d.rdN C.SAT_COUNT u then d else d.lostFeedback u fFbSat 0x1106 0

/-- FB_SAT_DETECT (R81). -/
def execFbSatDetect (u : Nat) (s : State) : Host.Outcome State Fault Refusal := .next (s.on fun d => d.satDetect u)

/-! ### Injection (R87) -/

/-- INJ_MODE_START (R87). -/
def execInjModeStart (p : Party) (u : Nat) (mode : Int) (s : State) : Host.Outcome State Fault Refusal :=
  .next (s.on fun d => d.injWrite p u mode)

/-- INJ_MODE_STOP (R87). -/
def execInjModeStop (p : Party) (u : Nat) (s : State) : Host.Outcome State Fault Refusal :=
  .next (s.on fun d => d.injWrite p u 0)

/-- The end of a run that has had its INJ_COUNT samples (R87). -/
def Dev.injCountEnd (d : Dev) (u : Nat) : Dev :=
  let n := d.rdN C.INJ_COUNT u
  if (d.ch u).ctl.inj.on && decide (0 < n) && decide (n ≤ (d.ch u).ctl.inj.k) then d.injEnd u 2 else d

/-- INJ_COUNT_END (R87). -/
def execInjCountEnd (u : Nat) (s : State) : Host.Outcome State Fault Refusal := .next (s.on fun d => d.injCountEnd u)

end Sys2Proof.Machine
end

