-- ==== Sys2Proof/Machine/Own.lean ====
section
/-! DEFINITION. Ownership, leases, arbitration and Service grants (R352–R354, R369–R377). -/

namespace Sys2Proof.Machine

open Sys2Proof

/-! ### Claims (R370) -/

/-- The owner of a unit as its record stands, its own and not its hearth's. -/
def Dev.ownOf (d : Dev) (u : Nat) : Nat := (d.ownRec u).west.owner

/-- Whether port `n` (0 A, 1 B) may lose a unit to a claim: it is fenced or its lease has expired (R370, R373). -/
def Dev.lostPort (d : Dev) (n : Nat) : Bool := bit d.portFenced n || decide ((d.port n).lease = 2)

/-- The answer to an OWN_CLAIM of `action` on unit `u` (R370, R375). -/
def Dev.claimCheck (d : Dev) (p : Party) (u expect action : Nat) : Status :=
  let o := d.ownOf u
  let me := ownerCode p
  if action = 0 then .value
  else if d.isMember u then .state
  else if (d.ownRec u).split then .split
  else if d.epoch u ≠ expect then .staleEpoch
  else if me = 0 then .notOwner
  else if action = 1 then (if o = 0 || o = me || d.lostPort (o - 1) then .ok else .notOwner)
  else if o = me then .ok else .notOwner

/-- The new owner of an accepted claim (R370). -/
def claimOwner (p : Party) (action : Nat) : Nat :=
  match action with
  | 1 => ownerCode p
  | 2 => 0
  | _ => 3 - ownerCode p

/-- Unit `u` given to an owner with its epoch one higher, committed in both halves and notified (R368, R370). -/
def Dev.passTo (d : Dev) (u owner : Nat) : Dev :=
  let e := (d.epoch u + 1) % 2 ^ 16
  (d.setOwn u owner e).notifyAll 3 u owner e

/-- A write of OWN_CLAIM (R369, R370). -/
def Dev.ownClaim (d : Dev) (p : Party) (v : Int) : Dev :=
  let u := d.rdpN p D.OWN_SEL 0
  let act := v.toNat % 4
  match d.writeStatus p D.OWN_CLAIM 0 0 v .ok with
  | .ok => d.attempt (d.claimCheck p u (v.toNat / 2 ^ 16) act) fun e => e.passTo u (claimOwner p act)
  | x => d.say x

/-- OWN_CLAIM_CLAIM (R370). -/
def execOwnClaimClaim (p : Party) (expect : Nat) (s : State) : Host.Outcome State Fault Refusal :=
  .next (s.on fun d => d.ownClaim p (expect * 2 ^ 16 + 1 : Nat))

/-- OWN_CLAIM_RELEASE (R370). -/
def execOwnClaimRelease (p : Party) (expect : Nat) (s : State) : Host.Outcome State Fault Refusal :=
  .next (s.on fun d => d.ownClaim p (expect * 2 ^ 16 + 2 : Nat))

/-- OWN_CLAIM_HAND_OVER (R370). -/
def execOwnClaimHandOver (p : Party) (expect : Nat) (s : State) : Host.Outcome State Fault Refusal :=
  .next (s.on fun d => d.ownClaim p (expect * 2 ^ 16 + 3 : Nat))

/-! ### Leases (R373) -/

/-- The units a port owns, members aside. -/
def Dev.unitsOf (d : Dev) (n : Nat) : List Nat :=
  (d.own.map Prod.fst).filter fun u => d.ownOf u == n + 1 && !d.isMember u

/-- LOSS_ACTION given to one unit: HOLD in Source, or OFF in Source or Hold (R373, R426). -/
def Dev.lossOn (d : Dev) (act u : Nat) : Dev :=
  let s := (d.ch u).ctl.st
  match act with
  | 1 => if s = .source then ((d.chApply u .hold false).crFailOn u 5).report 0x1315 u 0 else d
  | 2 => if s = .source || s = .hold then ((d.chApply u .off false).crFailOn u 5).report 0x1315 u 0 else d
  | _ => d

/-- LOSS_ACTION given to every unit port `n` owns (R373, R437). -/
def Dev.lossAction (d : Dev) (n : Nat) : Dev :=
  let a := d.rdN D.LOSS_ACTION n
  (d.unitsOf n).foldl (fun e u => e.lossOn a u) d

/-- A write of LEASE_MS: 0 turns the lease off, another value starts it (R341, R373). -/
def Dev.setLease (d : Dev) (n : Nat) (v : Int) : Dev :=
  let now := d.clk.cc
  (d.wr D.LEASE_MS n v).modPort n fun x => { x with lease := if v = 0 then 0 else 1, leaseAt := now }

/-- An accepted, executed and answered request renews the lease (R373). -/
def Dev.renewLease (d : Dev) (n : Nat) : Dev :=
  let now := d.clk.cc
  if d.rd D.LEASE_MS n = 0 then d else d.modPort n fun x => { x with lease := 1, leaseAt := now }

/-- LEASE_EXPIRY: no such request has come for LEASE_MS (R373). -/
def execLeaseExpiry (port : Nat) (s : State) : Host.Outcome State Fault Refusal :=
  .next (s.on fun d =>
    let x := d.port port
    if 2 ≤ port || x.lease ≠ 1 then d
    else
      let d1 := d.reachCc (x.leaseAt + d.rdN D.LEASE_MS port * (d.clk.fcore / 1000))
      let d2 := (d1.modPort port fun x => { x with lease := 2 }).wr D.PORT_FLAGS port (d1.rdN D.PORT_FLAGS port ||| 2 : Nat)
      (d2.report 0x341D port 0).lossAction port)

/-! ### Cross-checks and disputes (R374–R377) -/

/-- Units whose two copies differ and that are not yet in dispute. -/
def Dev.newSplits (d : Dev) : List Nat :=
  (d.own.filter fun e => !e.2.split && decide (e.2.west ≠ e.2.east)).map Prod.fst

/-- Units in dispute. -/
def Dev.splits (d : Dev) : List Nat := (d.own.filter fun e => e.2.split).map Prod.fst

/-- A unit put in dispute; from Source it goes to Hold (R375, R426). -/
def Dev.dispute (d : Dev) (u : Nat) : Dev :=
  let d1 := { d with own := SMap.ins d.own u { d.ownRec u with split := true } }
  if (d.ch u).ctl.st = .source && !d.isMember u then
    ((d1.chApply u .hold false).crFailOn u 5).report 0x1316 u 0
  else d1

/-- The halves' copies compared: units newly in dispute go to Hold and are told of (R374, R375, R377). -/
def Dev.compareCopies (d : Dev) : Dev :=
  match d.newSplits with
  | [] => d
  | us =>
    let d1 := us.foldl (fun e u => e.dispute u) d
    ((d1.raise (srcDev 4)).report 0x3838 0 d1.splits.length).notifyAll 5 0xFFFF d1.splits.length 0

/-- One comparison of the halves' copies, at the next millisecond of core cycles (R374, R375, R377). -/
def Dev.ownCheck (d : Dev) : Dev :=
  if d.halfFenced ≠ 0 then d
  else
    let d0 := d.reachCc ((d.ownChecked / 1000000 + 1) * 1000000)
    (({ d0 with ownChecked := d0.clk.cc }).wrap D.OWN_CHECKS 0 32 1).compareCopies

/-- OWNERSHIP_CHECK (R374). -/
def execOwnershipCheck (s : State) : Host.Outcome State Fault Refusal := .next (s.on Dev.ownCheck)

/-- OWN_CHECK (R369, R377). -/
def Dev.ownCheckState (d : Dev) : Nat := if d.halfFenced ≠ 0 then 2 else if d.splits = [] then 0 else 1

/-- OWN_PORT of unit `u` (R369). -/
def Dev.ownPort (d : Dev) (u : Nat) : Nat :=
  if d.isMember u then 4 else if (d.ownRec u).split then 3 else d.ownOf u

/-- OWN_WEST or OWN_EAST (R369). -/
def OwnCopy.word (c : OwnCopy) : Nat := c.owner * 2 ^ 16 + c.epoch

/-- The units ARB_SEL names: one, or every unit in dispute (R376). -/
def Dev.arbUnits (d : Dev) : List Nat :=
  let u := d.rdN D.ARB_SEL 0
  if u = 0xFFFF then d.splits else [u]

/-- Both copies of a unit set as ARB_RESOLVE chooses (R376). -/
def Dev.resolve (d : Dev) (v u : Nat) : Dev :=
  let r := d.ownRec u
  let o := match v with
    | 3 => r.west.owner
    | 4 => r.east.owner
    | _ => v
  let e := (1 + max r.west.epoch r.east.epoch) % 2 ^ 16
  (d.setOwn u o e).notifyAll 3 u o e

/-- A write of ARB_RESOLVE (R376). -/
def Dev.arbResolve (d : Dev) (p : Party) (v : Int) : Dev :=
  d.write p D.ARB_RESOLVE 0 0 v (Status.state.when (d.arbUnits.any d.isMember)) fun e =>
    ((e.arbUnits).foldl (fun x u => x.resolve v.toNat u) e).report 0x3839 0 0

/-- ARB_RESOLVE (R376). -/
def execArbResolve (p : Party) (v : Int) (s : State) : Host.Outcome State Fault Refusal :=
  .next (s.on fun d => d.arbResolve p v)

/-! ### Service grants (R354) -/

/-- A write of GRANT_PORTS (R354). -/
def Dev.grantWrite (d : Dev) (p : Party) (v : Int) : Dev :=
  d.write p D.GRANT_PORTS 0 0 v .ok fun e =>
    { (e.store D.GRANT_PORTS 0 0 v).report 0x383A 0 (v.toNat % 4) with
      grantDue := e.clk.cc + e.rdN D.GRANT_TIME 0 * e.clk.fcore }

/-- GRANT_PORTS_WRITE (R354). -/
def execGrantPortsWrite (p : Party) (v : Int) (s : State) : Host.Outcome State Fault Refusal :=
  .next (s.on fun d => d.grantWrite p v)

/-- GRANT_LEFT in whole seconds (R354). -/
def Dev.grantLeft (d : Dev) : Nat :=
  if d.rd D.GRANT_PORTS 0 = 0 then 0 else (d.grantDue - d.clk.cc + (d.clk.fcore - 1)) / max 1 d.clk.fcore

/-- GRANT_EXPIRY (R354). -/
def execGrantExpiry (s : State) : Host.Outcome State Fault Refusal :=
  .next (s.on fun d => if d.rd D.GRANT_PORTS 0 = 0 then d else (d.reachCc d.grantDue).wr D.GRANT_PORTS 0 0)

end Sys2Proof.Machine
end

