-- ==== Sys2Proof/Machine/Queues.lean ====
section
/-! DEFINITION. Meanings of the commands of queues: producers, readers, descriptors and quotas (R260–R287). -/

namespace Sys2Proof.Machine

open Sys2Proof

/-! ### Producers (R268–R271) -/

/-- QUEUE_APPEND: a packet of an item's class and body (R268). -/
def execQueueAppend (q : Nat) (item : Item) (s : State) : Host.Outcome State Fault Refusal :=
  .next (s.on fun d => d.append q (some (item.cls % 4)) (lengthWord (item.cls % 4) item.body.length :: item.body))

/-- RESERVATION_REQUEST: `words` words of a class (R269). -/
def execReservationRequest (q cls words : Nat) (s : State) : Host.Outcome State Fault Refusal :=
  .next (s.on fun d => if words = 0 then d else d.reserve q (cls % 4) words)

/-- RESERVATION_CLOSE: the open reservation closes with a body of `used` words (R271). -/
def execReservationClose (q used : Nat) (s : State) : Host.Outcome State Fault Refusal :=
  .next (s.on fun d =>
    match (d.qu q).resv with
    | none => d
    | some r => d.close q r.id (min used (r.n - 1)))

/-! ### Readers (R277, R286) -/

/-- The queue a party has selected (R284). -/
def Dev.qSel (d : Dev) (p : Party) : Nat := d.rdpN p D.Q_SEL 0

/-- The answer of QUEUE_READ beyond the object's row: refused on a queue bound to a stream (R277). -/
def Dev.qBound (d : Dev) (p : Party) : Status := Status.state.when ((d.qu (d.qSel p)).consumer ≠ 0)

/-- A read of Q_WORD (R277, R286). -/
def Dev.qWord (d : Dev) (p : Party) : Dev :=
  let q := d.qSel p
  d.read p D.Q_WORD 0 0 (d.qBound p) (.num (d.readVal q)) fun e => e.readWord q

/-- QUEUE_READ_WORD (R277). -/
def execQueueReadWord (p : Party) (s : State) : Host.Outcome State Fault Refusal := .next (s.on fun d => d.qWord p)

/-- Words a read of Q_BLOCK of at most `len` bytes returns (R286). -/
def Dev.blockWords (d : Dev) (q len : Nat) : Nat :=
  let x := d.qu q
  let a := if x.live then x.avail else 0
  if a = 0 then min 1 (len / 4) else min a (min len 4096 / 4)

/-- The device and the bytes after a read of Q_BLOCK (R277, R286). -/
def Dev.blockRead (d : Dev) (q len : Nat) : Dev × List Byte :=
  let r := d.readWords q (d.blockWords q len)
  (r.1, r.2.flatMap (natLe 4))

/-- A read of Q_BLOCK of at most `len` bytes (R286). -/
def Dev.qBlock (d : Dev) (p : Party) (len : Nat) : Dev :=
  let r := d.blockRead (d.qSel p) len
  d.read p D.Q_BLOCK 0 0 (d.qBound p) (.bytes r.2) fun _ => r.1

/-- QUEUE_READ_BLOCK (R286). -/
def execQueueReadBlock (p : Party) (bytes : Nat) (s : State) : Host.Outcome State Fault Refusal :=
  .next (s.on fun d => d.qBlock p bytes)

/-! ### QUEUE_CMD (R278, R286) -/

/-- The level of a write to a queue's descriptor: of the channel for a fixed queue (R283). -/
def Dev.qLevel (d : Dev) (p : Party) (q : Nat) : Status := if q < 512 then d.unitLevel p (q / 2) else .ok

/-- A write of QC_CMD (R286). -/
def Dev.qcCmd (d : Dev) (p : Party) (v : Int) : Dev :=
  let q := d.qSel p
  let x := d.qu q
  let bad := !x.live || (v ≠ 3 && decide (x.consumer ≠ 0))
  d.write p D.QC_CMD 0 0 v (firstOf [d.qLevel p q, Status.state.when bad]) fun e =>
    match v with
    | 1 => e.flush q
    | 2 => let before := x.avail; (e.skip q).wmark q before
    | _ => e.mark q 1 0 (e.rdN D.QC_ARG 0)

/-- QC_CMD_FLUSH (R278). -/
def execQcCmdFlush (p : Party) (s : State) : Host.Outcome State Fault Refusal := .next (s.on fun d => d.qcCmd p 1)

/-- QC_CMD_SKIP (R277). -/
def execQcCmdSkip (p : Party) (s : State) : Host.Outcome State Fault Refusal := .next (s.on fun d => d.qcCmd p 2)

/-- QC_CMD_MARK (R266, R286). -/
def execQcCmdMark (p : Party) (s : State) : Host.Outcome State Fault Refusal := .next (s.on fun d => d.qcCmd p 3)

/-! ### Descriptors (R263, R285) -/

/-- The object of a subindex of QUEUE_DESC that is written. -/
def qObj (sub : Nat) : Option Obj :=
  match sub with
  | 1 => some D.BASE
  | 2 => some D.SIZE_LOG2
  | 3 => some D.ENABLE
  | 4 => some D.WATERMARK
  | 5 => some D.WM_FLUE
  | 6 => some D.MARK_FLUE
  | 13 => some D.Q_STATUS
  | 14 => some D.DROPPED
  | 15 => some D.GAPS
  | 16 => some D.WM_CROSSINGS
  | _ => none

/-- The refusals of a write of a subindex of QUEUE_DESC by its own rules (R263, R285). -/
def Dev.qWriteCheck (d : Dev) (q sub : Nat) (v : Int) : Status :=
  let x := d.qu q
  match sub with
  | 1 => firstOf [Status.value.when (decide (v % 1024 ≠ 0) || decide (0x03FFFC00 < v)), Status.state.when x.enable]
  | 2 => Status.state.when x.enable
  | 3 => if v = 0 then Status.state.when (x.resv.isSome || decide (x.consumer ≠ 0)) else d.enableCheck q
  | 4 => Status.value.when (decide ((x.cap : Int) ≤ v))
  | _ => .ok

/-- The effect of a write of a subindex of QUEUE_DESC (R263, R285). -/
def Dev.qPut (d : Dev) (q sub : Nat) (v : Int) : Dev :=
  let n := v.toNat
  match sub with
  | 1 => d.modQu q fun x => { x with base := n }
  | 2 => d.modQu q fun x => { x with sizeLog2 := n }
  | 3 => if v = 0 then d.disableQ q else d.enableQ q
  | 4 => d.modQu q fun x => { x with watermark := n }
  | 5 => d.modQu q fun x => { x with wmFlue := n }
  | 6 => d.modQu q fun x => { x with markFlue := n }
  | 13 => d.modQu q fun x => { x with sticky := x.sticky - (x.sticky &&& n &&& 0x138) }
  | 14 => d.modQu q fun x => { x with dropped := 0 }
  | 15 => d.modQu q fun x => { x with gaps := 0 }
  | _ => d.modQu q fun x => { x with crossings := 0 }

/-- A write of a subindex of QUEUE_DESC on the queue a party has selected (R283–R285). -/
def Dev.qWrite (d : Dev) (p : Party) (sub : Nat) (v : Int) : Dev :=
  let q := d.qSel p
  match qObj sub with
  | none => d.say (firstOf [d.gate p 0x2501 true, if 19 < sub then .noObject else .access])
  | some o => d.write p o 0 0 v (firstOf [d.qLevel p q, d.qWriteCheck q sub v]) fun e => e.qPut q sub v

/-- QUEUE_ENABLE_WRITE (R263, R285). -/
def execQueueEnableWrite (p : Party) (v : Int) (s : State) : Host.Outcome State Fault Refusal :=
  .next (s.on fun d => d.qWrite p 3 v)

/-- A subindex of QUEUE_DESC as a party reads it (R285). -/
def Queue.field (x : Queue) (sub : Nat) : Nat :=
  match sub with
  | 1 => x.base
  | 2 => x.sizeLog2
  | 3 => b2n x.enable
  | 4 => x.watermark
  | 5 => x.wmFlue
  | 6 => x.markFlue
  | 7 => x.rd
  | 8 => x.cm
  | 9 => x.wr
  | 10 => x.level
  | 11 => x.avail
  | 12 => x.remain
  | 13 => x.status
  | 14 => x.dropped
  | 15 => x.gaps
  | 16 => x.crossings
  | 17 => x.lastRead
  | 18 => x.consumer
  | _ => x.gapWord

/-- QUOTA_WRITE: the quota of class `cls` (R275, R276). -/
def execQuotaWrite (p : Party) (cls : Nat) (v : Int) (s : State) : Host.Outcome State Fault Refusal :=
  .next (s.on fun d => d.write p D.QUOTA 0 cls v .ok fun e => e.wri D.QUOTA 0 cls v)

end Sys2Proof.Machine
end

