-- ==== Sys2Proof/Machine/TimeOps.lean ====
section
/-! DEFINITION. Time bases and their servos (R312–R322), and the clocks behind SYNC_IN and SYNC_OUT (R333–R336). -/

namespace Sys2Proof.Machine

open Sys2Proof

/-! ### Who writes a time base (R312) -/

/-- The answer to a party's write to an object of time base `t`: TB0 is port A's, TB1 port B's, TB2 nobody's (R312,
R315). -/
def tbLevel (p : Party) (t : Nat) : Status :=
  match t, p with
  | 2, _ => .access
  | 0, .b => .level
  | 1, .a => .level
  | _, _ => .ok

/-- Whether the servo of time base `t` is on. -/
def Dev.servoOn (d : Dev) (t : Nat) : Bool := (d.tbase t).servo ≠ .off

/-- TB_FLAGS (R316). -/
def TimeBase.flags (b : TimeBase) : Nat :=
  b.sticky + 16 * b2n b.masterLost + 8 * b2n b.timeJump +
    4 * b2n (b.servo == .holdover || b.servo == .refused) + 2 * b2n b.locked + b2n b.stepAvail

/-- A sticky bit of TB_FLAGS set (R316). -/
def Dev.tbSticky (d : Dev) (t n : Nat) : Dev := d.modTb t fun b => { b with sticky := setBit b.sticky n true }

/-! ### Steps (R317, R318) -/

/-- Times a base can show, in 2^-44 ns (R313). -/
def tbSpan : Nat := 2 ^ 64 * 1000000000 * 2 ^ 44

/-- Waiting launch frames of the port of time base `t` whose time lies before `acc` become late (R329). -/
def Dev.lateFrames (d : Dev) (t : Nat) : Dev :=
  let now := (d.tbase t).acc
  if 2 ≤ t then d
  else d.modPort t fun x =>
    { x with launch := x.launch.map fun f => { f with late := decide (f.time * 2 ^ 44 < now) } }

/-- A step of time base `t` by `amt` in 2^-44 ns, in force one cc after it lands (R317). -/
def Dev.stepTb (d : Dev) (t : Nat) (amt : Int) : Dev :=
  let d1 := d.advCc 1
  (d1.modTb t fun b =>
    { b with
      acc := (((b.acc : Int) + amt) % (tbSpan : Int)).toNat, stepAvail := false, grant := false,
      locked := b.locked || t == 3, steps := (b.steps + 1) % 2 ^ 32, lastStep := some (d1.clk.cc, amt) }).lateFrames t

/-- A refusal for size: TIME_JUMP set, the offset or step recorded, event and report (R318, R322, R368). -/
def Dev.jumpRefused (d : Dev) (t : Nat) (size : Int) : Dev :=
  let d1 := d.modTb t fun b => { b with timeJump := true, refusedOfs := size }
  ((d1.raise (srcDev 0)).report 0x3520 t (toU 32 size)).notifyAll 4 0xFFFF t (toU 32 size)

/-- Whether a written step of size `amt` (in 2^-44 ns) is refused for its size (R318). -/
def Dev.tooFar (d : Dev) (t : Nat) (amt : Int) : Bool :=
  (d.tbase t).locked && decide (d.rd D.JUMP_THRESHOLD t * 2 ^ 44 < amt.natAbs)

/-- A step written by a host, of a size against the value in force and an amount at the cc after, both in 2^-44 ns: taken,
or refused with STEP_REFUSED set (R317, R318). -/
def Dev.hostStep (d : Dev) (p : Party) (o : Obj) (t : Nat) (v size amt : Int) : Dev :=
  let b := d.tbase t
  match d.writeStatus p o t 0 v (firstOf [tbLevel p t, Status.state.when (d.servoOn t)]) with
  | .ok =>
    if b.grant then (d.stepTb t amt).say .ok
    else if !b.stepAvail then ((d.tbSticky t 7).report 0x3521 t 0).say .state
    else if d.tooFar t size then
      (((d.tbSticky t 7).report 0x3521 t 0).jumpRefused t (size / 2 ^ 44)).say .state
    else (d.stepTb t amt).say .ok
  | x => d.say x

/-- A write of STEP_REL: by `v` ns with the fraction kept (R315). -/
def Dev.stepRel (d : Dev) (p : Party) (t : Nat) (v : Int) : Dev :=
  d.hostStep p D.STEP_REL t v (v * 2 ^ 44) (v * 2 ^ 44)

/-- A write of STEP_ABS: to `v` ns with the fraction cleared, one cc after it lands (R315, R317). -/
def Dev.stepAbs (d : Dev) (p : Party) (t : Nat) (v : Int) : Dev :=
  let b := d.tbase t
  d.hostStep p D.STEP_ABS t v (v * 2 ^ 44 - b.acc) (v * 2 ^ 44 - b.acc - b.inc)

/-- A write of TB_INC; bits 63:48 are ignored (R315, R319). -/
def Dev.tbInc (d : Dev) (p : Party) (t : Nat) (v : Int) : Dev :=
  let w := if v < 0 || decide (2 ^ 64 ≤ v) then v else v % 2 ^ 48
  d.write p D.TB_INC t 0 w (firstOf [tbLevel p t, Status.state.when (d.servoOn t)]) fun e =>
    e.modTb t fun b => { b with inc := w.toNat }

/-- A write of STEP_UNLOCK (R317). -/
def Dev.stepUnlock (d : Dev) (p : Party) (t : Nat) (v : Int) : Dev :=
  d.write p D.STEP_UNLOCK t 0 v (tbLevel p t) fun e => e.modTb t fun b => { b with stepAvail := true }

/-- A write of TIME_ACCEPT: 1 grants the next step, 2 slews; refused while TIME_JUMP is clear (R315, R318, R321). -/
def Dev.timeAccept (d : Dev) (p : Party) (t : Nat) (v : Int) : Dev :=
  let b := d.tbase t
  d.write p D.TIME_ACCEPT t 0 v
    (firstOf [tbLevel p t, Status.value.when (v == 2 && decide (2 ≤ t)), Status.state.when (!b.timeJump)]) fun e =>
    e.modTb t fun b =>
      if v = 1 then
        { b with
          timeJump := false, grant := true, servo := if b.servo = .refused then .acquire else b.servo,
          oPrev := if b.servo = .refused then none else b.oPrev }
      else if b.servo = .refused then
        { b with timeJump := false, servo := .tracking, suspend := true, good := 0, oPrev := none }
      else { b with timeJump := false }

/-- A write of TB_FLAGS clears stickies (R316). -/
def Dev.tbFlags (d : Dev) (p : Party) (t : Nat) (v : Int) : Dev :=
  d.write p D.TB_FLAGS t 0 v (tbLevel p t) fun e =>
    e.modTb t fun b => { b with sticky := b.sticky - (b.sticky &&& v.toNat) }

/-! ### The servo (R320–R322) -/

/-- TB_INC for a frequency `f` in 2^-6 ns/s and a phase term `num/den` in ns/s, before it is held in its range (R320). -/
def incFor (f num : Int) (den : Nat) : Int :=
  2 ^ 44 - odiv 320 (2 ^ 44 * (f * den + 64 * num)) (64 * den * 1000000000)

/-- TB_INC held in the range of R315, RATE_CLAMP set where it fell outside (R320). -/
def Dev.setInc (d : Dev) (t : Nat) (x : Int) : Dev :=
  let y := clampI 0x0FFBE76C8B44 0x1004189374BC x
  let d1 := d.modTb t fun b => { b with inc := y.toNat }
  if y = x then d1 else (d1.tbSticky t 6).report 0x3522 t 0

/-- The servo's answer to an offset `o` (ns) with the Sync interval `n`/128 s: frequency estimate and TB_INC (R320). -/
def Dev.slew (d : Dev) (t : Nat) (o : Int) (n : Nat) : Dev :=
  let b := d.tbase t
  let f := match b.oPrev with
    | none => b.freq
    | some o0 => b.freq + (o - o0) * 2048 / (max 1 n : Nat)
  let d1 := d.modTb t fun b => { b with freq := f, oPrev := some o }
  let tc := max 1 (d.rdN D.SERVO_TC t)
  let sm := d.rdN D.SLEW_MAX t
  if sm * tc < o.natAbs then d1.setInc t (incFor f (if o < 0 then -(sm : Int) else sm) 1)
  else d1.setInc t (incFor f o tc)

/-- A refusal by the servo: no step, the last frequency held with no phase term (R322). -/
def Dev.servoRefuse (d : Dev) (t : Nat) (o : Int) : Dev :=
  let d1 := d.modTb t fun b => { b with servo := .refused }
  (d1.setInc t (incFor (d.tbase t).freq 0 1)).jumpRefused t o

/-- The servo steps by −o and goes on from an offset of 0 (R321). -/
def Dev.servoStep (d : Dev) (t : Nat) (o : Int) (n : Nat) : Dev :=
  let d1 := (d.stepTb t (-o * 2 ^ 44)).modTb t fun b => { b with servo := .tracking, good := 0, oPrev := none }
  d1.slew t 0 n

/-- An offset measurement in the servo's present state (R320–R322). -/
def Dev.servoOffset (d : Dev) (t : Nat) (o : Int) (n : Nat) : Dev :=
  let b := d.tbase t
  let far := decide (d.rdN D.JUMP_THRESHOLD t < o.natAbs)
  match b.servo with
  | .acquire =>
    if b.grant then d.servoStep t o n
    else if !far then (d.modTb t fun b => { b with servo := .tracking, good := 0 }).slew t o n
    else if b.stepAvail && !b.locked then d.servoStep t o n
    else d.servoRefuse t o
  | .off => d
  | .holdover => d
  | .refused => d
  | s =>
    if far && !b.suspend then d.servoRefuse t o
    else
      let good := if o.natAbs ≤ 100 then b.good + 1 else 0
      let lock := decide (16 ≤ good)
      (d.modTb t fun b =>
        { b with
          suspend := b.suspend && far, good := min 16 good, locked := b.locked || lock,
          servo := if lock then .locked else s }).slew t o n

/-- The servo loses its master: Holdover from Tracking or Locked (R321). -/
def Dev.masterLost (d : Dev) (t : Nat) : Dev :=
  match (d.tbase t).servo with
  | .tracking => (d.modTb t fun b => { b with servo := .holdover, masterLost := true }).report 0x3523 t 0
  | .locked => (d.modTb t fun b => { b with servo := .holdover, masterLost := true }).report 0x3523 t 0
  | _ => d

/-- The servo goes Off, its time base unchanged (R321, R324). -/
def Dev.servoOff (d : Dev) (t : Nat) : Dev :=
  d.modTb t fun b => { b with servo := .off, masterLost := false, suspend := false, good := 0 }

/-- A master of identity `id` is qualified (R321). -/
def Dev.masterFound (d : Dev) (t id : Nat) : Dev :=
  let b := d.tbase t
  let other := b.master.isSome && b.master ≠ some id
  let acq := fun (x : TimeBase) =>
    { x with servo := .acquire, masterLost := false, suspend := false, good := 0, oPrev := none, master := some id }
  let d1 := match b.servo with
    | .off => d.modTb t fun x => { acq x with freq := 0 }
    | .holdover => d.modTb t acq
    | .refused => if other then d.modTb t acq else d
    | _ => d.modTb t fun x => { x with master := some id }
  if other && b.servo ≠ .off then (d1.tbSticky t 5).report 0x3524 t 0 else d1

/-! ### CVCLK edges (R333–R336) -/

/-- The tick at or after which a rising CVCLK edge coincides with a converter edge (R334, R461). -/
def Dev.cvclkTick (d : Dev) : Nat :=
  let t := if d.clk.phase = 0 then d.clk.tick else d.clk.tick + 1
  if d.rdN D.CV_DIV 0 = 1 then
    let m := max 1 (d.rdN D.CV_MUL 0)
    (t + (m - 1)) / m * m
  else t

/-- Core cycles of `n` CVCLK periods. -/
def Dev.cvclkCc (d : Dev) (n : Nat) : Nat := (n * d.clk.fcore + (d.clk.cvclk - 1)) / max 1 d.clk.cvclk

end Sys2Proof.Machine
end

