-- ==== Sys2Proof/Machine/Ptp.lean ====
section
/-! DEFINITION. The PTP engines and the transmit time-stamp queues (R323–R327). What the spec leaves to IEEE 1588-2019 is
PRESUMED from that standard: the qualification of a clock by two Announce messages, the comparison of data sets, the two
delay mechanisms and the port states (log 20). -/

namespace Sys2Proof.Machine

open Sys2Proof

/-! ### Time stamps (R325, R327) -/

/-- The time of port `n`'s time base now, in ns and 2^-16 ns. -/
def Dev.stampNow (d : Dev) (n tag seq : Nat) : Stamp := ⟨tag, (d.tbase n).ns, (d.tbase n).frac, seq⟩

/-- A stamped frame leaves port `n` with a tag: its entry is on its way to TX_TSQ (R327). -/
def Dev.stampFrame (d : Dev) (n tag seq : Nat) : Dev :=
  let x := d.stampNow n tag seq
  d.modPort n fun q => { q with tsIn := q.tsIn ++ [x] }

/-- Port `n` sends `x`. -/
def Dev.send (d : Dev) (n : Nat) (x : Sent) : Dev :=
  (d.modPort n fun q => { q with sent := x :: q.sent }).wrap D.TX_FRAMES n 64 1

/-- The PTP engine of port `n` changed by `f`. -/
def Dev.modPtp (d : Dev) (n : Nat) (f : Ptp → Ptp) : Dev := d.modPort n fun q => { q with ptp := f q.ptp }

/-- The tag of a two-step event message of a kind, in the engine's own range (R327). -/
def ptpTag (kind : Nat) : Nat := 0xF000 + kind

/-- The engine has the send time of its event message of `kind`: a delay request's is kept, a Sync or a peer-delay response
is followed up (R323, R327). -/
def Ptp.stamped (x : Ptp) (kind seq : Nat) (time : Int) : Ptp :=
  match kind with
  | 0 => { x with owed := x.owed ++ [(8, seq)] }
  | 3 => { x with owed := x.owed ++ [(10, seq)] }
  | _ => { x with req := some (seq, time) }

/-- The oldest stamp on its way to TX_TSQ with a tag reaches it: the engine takes its own, a full queue discards it and
the exchange of a lost PTP stamp is dropped (R327). -/
def Dev.tsqEntry (d : Dev) (n tag : Nat) : Dev :=
  match (d.port n).tsIn.find? fun x => x.tag == tag with
  | none => d
  | some x =>
    let d1 := d.modPort n fun q => { q with tsIn := q.tsIn.erase x }
    if 32 ≤ (d.port n).tsq.length then
      let d2 := ((d1.wr D.TSQ_FLAGS n 1).bump D.TSQ_LOST n 32 1).report 0x341B n 0
      if tag < 0xF000 then d2 else d2.modPtp n fun y => { y with req := if tag = ptpTag 0 then y.req else none }
    else if tag < 0xF000 then d1.modPort n fun q => { q with tsq := q.tsq ++ [x] }
    else d1.modPtp n fun y => y.stamped (tag - 0xF000) x.seq x.ns

/-- The 16 bytes of an entry (R327). -/
def Stamp.bytes (x : Stamp) : List Byte :=
  natLe 2 x.tag ++ natLe 2 x.frac ++ natLe 8 (x.ns / 1000000000) ++ natLe 4 (x.ns % 1000000000)

/-- What TSQ_HEAD reads: the oldest entry, or tag 0xFFFF and zeros (R327). -/
def Dev.tsqHead (d : Dev) (n : Nat) : List Byte :=
  match (d.port n).tsq with
  | [] => natLe 2 0xFFFF ++ natLe 14 0
  | x :: _ => x.bytes

/-! ### Port states (R321, R324) -/

/-- 2^n s in core cycles (n from −7). -/
def Dev.logCc (d : Dev) (n : Int) : Nat := d.clk.fcore * 2 ^ (n + 7).toNat / 128

/-- PORT_STATE set; MASTER, PASSIVE, DISABLED and FAULTY turn the servo Off (R321). -/
def Dev.ptpState (d : Dev) (n x : Nat) : Dev :=
  let d1 := d.wr D.PORT_STATE n x
  if x = 2 || x = 3 || x = 6 || x = 7 then d1.servoOff n else d1

/-- INITIALIZING ends with the link up: LISTENING, or DISABLED with ROLE 0 (R324). -/
def Dev.ptpReady (d : Dev) (n : Nat) : Dev :=
  if d.rd D.PORT_STATE n ≠ 1 then d
  else if d.rd D.ROLE n = 0 then d.ptpState n 3
  else if (d.port n).link = 3 then (d.ptpState n 4).modPtp n fun x => { x with annAt := d.clk.cc, syncAt := d.clk.cc }
  else d

/-- The engine starts again from INITIALIZING, its servo Off and the time base unchanged (R314, R324). -/
def Dev.ptpInit (d : Dev) (n : Nat) : Dev :=
  ((((d.wr D.PORT_STATE n 1).wr D.MASTER_ID n 0).modPtp n fun _ => {}).servoOff n)

/-! ### Masters -/

/-- Order of data sets: lower first. -/
def lexLt : List Nat → List Nat → Bool
  | [], [] => false
  | [], _ :: _ => true
  | _ :: _, [] => false
  | a :: as, b :: bs => if a < b then true else if b < a then false else lexLt as bs

/-- The data set of port `n`'s own clock: priority 1, class, accuracy and variance unknown, priority 2, identity. -/
def Dev.ownData (d : Dev) (n : Nat) : List Nat :=
  let m := d.rdN D.MAC_ADDR n % 2 ^ 48
  [d.rdN D.PRIORITY1 n, d.rdN D.CLOCK_CLASS n, 0xFE, 0xFFFF, d.rdN D.PRIORITY2 n,
    m / 2 ^ 24 * 2 ^ 40 + 0xFFFE * 2 ^ 24 + m % 2 ^ 24]

/-- A clock qualifies with two Announce messages within four Announce intervals. -/
def Foreign.qualified (f : Foreign) : Bool := decide (2 ≤ f.seen)

/-- Whether clock `id` is the best qualified master port `n` has heard, and is taken in the port's role. -/
def Dev.masterFits (d : Dev) (n id : Nat) : Bool :=
  let fs := (d.port n).ptp.foreign.filter Foreign.qualified
  match fs.find? fun f => f.id == id with
  | none => false
  | some f =>
    (fs.all fun g => g.id == id || !lexLt (g.data ++ [g.id]) (f.data ++ [f.id])) &&
      (d.rd D.ROLE n == 1 || lexLt (f.data ++ [f.id]) (d.ownData n))

/-- An Announce of clock `id` noted. -/
def Dev.announced (d : Dev) (n id : Nat) (data : List Nat) : Dev :=
  let x := (d.port n).ptp
  let span := 4 * d.logCc (d.rd D.LOG_ANNOUNCE n)
  let f := match x.foreign.find? fun g => g.id == id with
    | some g => { g with seen := if d.clk.cc ≤ g.last + span then min 255 (g.seen + 1) else 1, last := d.clk.cc, data := data }
    | none => ⟨id, 1, d.clk.cc, data⟩
  let d1 := d.modPtp n fun y => { y with foreign := f :: y.foreign.filter fun g => g.id != id }
  if (d.tbase n).servo = .off || (d.tbase n).master = some id then d1.modPtp n fun y => { y with annAt := d.clk.cc } else d1

/-! ### Measurements -/

/-- A delay measured: MEAN_DELAY, and the offset of the last Sync with it (R320, R324, R325). -/
def Dev.delayed (d : Dev) (n : Nat) (mean : Int) : Dev := d.wr D.MEAN_DELAY n (ofTwos 64 (toU 64 mean))

/-- The offset a Sync gives: receive less send time, less the mean delay and the board's asymmetry (R320, R324). -/
def Dev.synced (d : Dev) (n : Nat) (down : Int) : Dev :=
  let o := down - d.rd D.MEAN_DELAY n - d.rd D.DELAY_ASYM n
  (d.wr D.OFFSET n (ofTwos 64 (toU 64 o))).modPtp n fun x => { x with down := some down, syncAt := d.clk.cc, sync := none }

/-- Whether a message comes from the port's master. -/
def Dev.fromMaster (d : Dev) (n : Nat) (m : PtpMsg) : Bool :=
  (d.rd D.PORT_STATE n == 8 || d.rd D.PORT_STATE n == 9) && d.rd D.MASTER_ID n == m.master

/-- A received message of a kind and domain the port's clock supports (R323). -/
def Dev.ptpTake (d : Dev) (n : Nat) (m : PtpMsg) : Dev :=
  let x := (d.port n).ptp
  match m.kind with
  | 0 =>
    if !d.fromMaster n m then d
    else if m.twoStep then d.modPtp n fun y => { y with sync := some (m.seq, m.rxTime, m.corr), syncAt := d.clk.cc }
    else d.synced n (m.rxTime - m.time - m.corr)
  | 8 =>
    match x.sync with
    | some (s, t2, c) => if d.fromMaster n m && s = m.seq then d.synced n (t2 - m.time - m.corr - c) else d
    | none => d
  | 9 =>
    match x.req, x.down with
    | some (s, t3), some a =>
      if d.fromMaster n m && s = m.seq && d.rd D.DELAY_MECH n = 1 then
        (d.delayed n ((a + (m.time - m.corr - t3)) / 2)).modPtp n fun y => { y with req := none }
      else d
    | _, _ => d
  | 1 => if d.rd D.PORT_STATE n = 6 then d.modPtp n fun y => { y with owed := y.owed ++ [(9, m.seq)] } else d
  | 2 => if d.rd D.DELAY_MECH n = 2 then d.modPtp n fun y => { y with owed := y.owed ++ [(3, m.seq)] } else d
  | 3 =>
    match x.req with
    | some (s, t1) =>
      if s = m.seq && d.rd D.DELAY_MECH n = 2 then
        if m.twoStep then d.modPtp n fun y => { y with presp := some (m.seq, m.rxTime - t1, m.time, m.corr), req := none }
        else (d.delayed n ((m.rxTime - t1 - m.corr) / 2)).modPtp n fun y => { y with req := none }
      else d
    | none => d
  | 10 =>
    match x.presp with
    | some (s, turn, t2, c) =>
      if s = m.seq then (d.delayed n ((turn - (m.time - t2) - c - m.corr) / 2)).modPtp n fun y => { y with presp := none }
      else d
    | none => d
  | _ => d.announced n m.master m.dataset

/-- Message kinds the engine takes: Sync, Delay_Req, Pdelay_Req, Pdelay_Resp, Follow_Up, Delay_Resp, Pdelay_Resp_Follow_Up,
Announce (R323). -/
def ptpKinds : List Nat := [0, 1, 2, 3, 8, 9, 10, 11]

/-- A received message taken or ignored (R323). -/
def Dev.ptpRx (d : Dev) (n : Nat) (m : PtpMsg) : Dev :=
  let d1 := d.ptpReady n
  if (d.port n).link ≠ 3 || d1.rd D.PORT_STATE n = 3 then d
  else if !ptpKinds.contains m.kind || (m.domain : Int) ≠ d1.rd D.PTP_DOMAIN n then d1.bump D.RX_IGNORED n 32 1
  else d1.ptpTake n m

/-! ### Sending -/

/-- Whether the port's state and configuration let it send a message of `kind` of its own accord (R323). -/
def Dev.ptpMay (d : Dev) (n kind : Nat) : Bool :=
  let st := d.rd D.PORT_STATE n
  match kind with
  | 0 => st == 6
  | 11 => st == 6
  | 1 => d.rd D.DELAY_MECH n == 1 && (st == 8 || st == 9)
  | 2 => d.rd D.DELAY_MECH n == 2 && decide (4 ≤ st)
  | _ => false

/-- The interval of a message of `kind`, in core cycles (R324). -/
def Dev.ptpEvery (d : Dev) (n kind : Nat) : Nat :=
  match kind with
  | 0 => d.logCc (d.rd D.LOG_SYNC n)
  | 11 => d.logCc (d.rd D.LOG_ANNOUNCE n)
  | _ => d.logCc (d.rd D.LOG_DELAY n)

/-- A message of `kind` and number `seq` leaves the port; a two-step event message is stamped, a one-step one carries its
time (R326, R327). -/
def Dev.ptpSend (d : Dev) (n kind seq : Nat) : Dev :=
  let now := (d.tbase n).ns
  let d1 := d.send n (.ptp kind seq now)
  if 3 < kind then d1
  else if d.flag D.TWO_STEP n then d1.stampFrame n (ptpTag kind) seq
  else if kind = 1 || kind = 2 then d1.modPtp n fun x => { x with req := some (seq, now) }
  else d1

/-- The engine sends a message of `kind`: one it owes at once, another at its interval (R323, R324). -/
def Dev.ptpTx (d : Dev) (n kind : Nat) : Dev :=
  let d0 := d.ptpReady n
  if (d.port n).link ≠ 3 then d
  else match (d0.port n).ptp.owed.find? fun x => x.1 == kind with
  | some x => (d0.modPtp n fun y => { y with owed := y.owed.erase x }).ptpSend n kind x.2
  | none =>
    if !d0.ptpMay n kind then d0
    else
      let x := (d0.port n).ptp
      let d1 := match SMap.look x.sentAt kind with
        | some t => d0.reachCc (t + d0.ptpEvery n kind)
        | none => d0
      (d1.modPtp n fun y =>
        { y with sentAt := SMap.ins y.sentAt kind d1.clk.cc, seq := (y.seq + 1) % 2 ^ 16 }).ptpSend n kind x.seq

end Sys2Proof.Machine
end

