-- ==== Sys2Proof/Machine/Time.lean ====
section
/-! DEFINITION. Meanings of the commands of time bases, PTP, launch queues, compare and capture units and the SYNC pins
(R312–R337). -/

namespace Sys2Proof.Machine

open Sys2Proof

/-! ### Time bases (R315–R319) -/

/-- STEP_ABS (R317, R318). -/
def execStepAbs (p : Party) (t : Nat) (v : Int) (s : State) : Host.Outcome State Fault Refusal :=
  .next (s.on fun d => d.stepAbs p t v)

/-- STEP_REL (R317, R318). -/
def execStepRel (p : Party) (t : Nat) (v : Int) (s : State) : Host.Outcome State Fault Refusal :=
  .next (s.on fun d => d.stepRel p t v)

/-- STEP_UNLOCK 1 (R317). -/
def execStepUnlock (p : Party) (t : Nat) (s : State) : Host.Outcome State Fault Refusal :=
  .next (s.on fun d => d.stepUnlock p t 1)

/-- TB_INC_WRITE (R319). -/
def execTbIncWrite (p : Party) (t : Nat) (v : Int) (s : State) : Host.Outcome State Fault Refusal :=
  .next (s.on fun d => d.tbInc p t v)

/-- TIME_ACCEPT_STEP: TIME_ACCEPT 1 (R318, R321). -/
def execTimeAcceptStep (p : Party) (t : Nat) (s : State) : Host.Outcome State Fault Refusal :=
  .next (s.on fun d => d.timeAccept p t 1)

/-- TIME_ACCEPT_SLEW: TIME_ACCEPT 2 (R321). -/
def execTimeAcceptSlew (p : Party) (t : Nat) (s : State) : Host.Outcome State Fault Refusal :=
  .next (s.on fun d => d.timeAccept p t 2)

/-- A read of TB_NOW; its fraction is kept for the party's TB_FRAC (R315). -/
def Dev.tbNow (d : Dev) (p : Party) (t : Nat) : Dev :=
  let b := d.tbase t
  d.read p D.TB_NOW t 0 .ok (.num (b.ns % (2 ^ 64 * 1000000000) : Nat)) fun e => e.wrp p D.TB_FRAC t (b.frac : Nat)

/-- TB_NOW_READ (R315). -/
def execTbNowRead (p : Party) (t : Nat) (s : State) : Host.Outcome State Fault Refusal :=
  .next (s.on fun d => d.tbNow p t)

/-! ### Servo and PTP (R320–R327) -/

/-- SERVO_OFFSET: an offset measured with a Sync interval of `interval`/128 s (R320, R321); once the servo tracks, the port
is a SLAVE. -/
def execServoOffset (t : Nat) (offset : Int) (interval : Nat) (s : State) : Host.Outcome State Fault Refusal :=
  .next (s.on fun d =>
    if 2 ≤ t then d
    else
      let d1 := (d.wr D.OFFSET t (ofTwos 64 (toU 64 offset))).servoOffset t offset interval
      if (d1.tbase t).servo = .tracking && d1.rd D.PORT_STATE t = 8 then d1.wr D.PORT_STATE t 9 else d1)

/-- ANNOUNCE_TIMEOUT: no Announce for ANNOUNCE_TIMEOUT intervals; a slave listens again in Holdover, a master-capable port
becomes MASTER (R321, R323). -/
def execAnnounceTimeout (t : Nat) (s : State) : Host.Outcome State Fault Refusal :=
  .next (s.on fun d =>
    let d0 := d.ptpReady t
    let st := d0.rd D.PORT_STATE t
    if 2 ≤ t || !(st = 4 || st = 8 || st = 9) then d
    else
      let due := (d0.port t).ptp.annAt + d0.rdN D.ANNOUNCE_TIMEOUT t * d0.logCc (d0.rd D.LOG_ANNOUNCE t)
      ((d0.reachCc due).masterLost t).ptpState t (if d0.rd D.ROLE t = 2 then 6 else 4))

/-- SYNC_TIMEOUT: no Sync for 4 Sync intervals (R321). -/
def execSyncTimeout (t : Nat) (s : State) : Host.Outcome State Fault Refusal :=
  .next (s.on fun d =>
    let b := d.tbase t
    if 2 ≤ t || !(b.servo = .tracking || b.servo = .locked) then d
    else (d.reachCc ((d.port t).ptp.syncAt + 4 * d.logCc (d.rd D.LOG_SYNC t))).masterLost t)

/-- MASTER_QUALIFIED: the best clock heard becomes the port's master; a port of class up to 127 is PASSIVE beside a better
one (R321, R323). -/
def execMasterQualified (t master : Nat) (s : State) : Host.Outcome State Fault Refusal :=
  .next (s.on fun d =>
    let d0 := d.ptpReady t
    if 2 ≤ t || (d0.port t).link ≠ 3 || !(4 ≤ d0.rd D.PORT_STATE t) || !d0.masterFits t master then d
    else if d0.rd D.ROLE t = 2 && d0.rd D.CLOCK_CLASS t < 128 then d0.ptpState t 7
    else
      let again := (d0.rd D.PORT_STATE t = 8 || d0.rd D.PORT_STATE t = 9) && d0.rd D.MASTER_ID t = (master : Int)
      let d1 := (d0.wr D.MASTER_ID t (master : Nat)).modPtp t fun x =>
        if again then x else { x with annAt := d.clk.cc, syncAt := d.clk.cc, sync := none, down := none, req := none }
      let d2 := d1.masterFound t master
      if again then d2 else d2.wr D.PORT_STATE t 8)

/-- PTP_MESSAGE_RX (R323). -/
def execPtpMessageRx (port : Nat) (msg : PtpMsg) (s : State) : Host.Outcome State Fault Refusal :=
  .next (s.on fun d => d.ptpRx port msg)

/-- PTP_MESSAGE_TX (R323, R326). -/
def execPtpMessageTx (port kind : Nat) (s : State) : Host.Outcome State Fault Refusal :=
  .next (s.on fun d => d.ptpTx port kind)

/-- The object of a subindex of PTP_CFG whose write starts the engine again (R324). -/
def ptpObj (sub : Nat) : Option Obj :=
  match sub with
  | 1 => some D.ROLE
  | 2 => some D.DELAY_MECH
  | 3 => some D.TRANSPORT
  | 4 => some D.PTP_DOMAIN
  | 5 => some D.TWO_STEP
  | 6 => some D.PRIORITY1
  | 7 => some D.PRIORITY2
  | 8 => some D.CLOCK_CLASS
  | 9 => some D.LOG_SYNC
  | 10 => some D.LOG_ANNOUNCE
  | 11 => some D.ANNOUNCE_TIMEOUT
  | 12 => some D.LOG_DELAY
  | 13 => some D.DELAY_ASYM
  | _ => none

/-- A write of subindex 1 to 13 of PTP_CFG (R324). -/
def Dev.ptpCfg (d : Dev) (p : Party) (n sub : Nat) (v : Int) : Dev :=
  match ptpObj sub with
  | some o => d.write p o n 0 v .ok fun e => (e.store o n 0 v).ptpInit n
  | none => d.say (firstOf [d.gate p (0x2110 + n) true, if 14 ≤ sub && decide (sub ≤ 17) then .access else .noObject])

/-- PTP_CFG_WRITE (R324). -/
def execPtpCfgWrite (p : Party) (port sub : Nat) (v : Int) (s : State) : Host.Outcome State Fault Refusal :=
  .next (s.on fun d => d.ptpCfg p port sub v)

/-- TX_TSQ_ENTRY (R327). -/
def execTxTsqEntry (port tag : Nat) (s : State) : Host.Outcome State Fault Refusal :=
  .next (s.on fun d => d.tsqEntry port tag)

/-- A read of TSQ_HEAD (R327). -/
def Dev.readTsq (d : Dev) (p : Party) (n : Nat) : Dev :=
  d.read p D.TSQ_HEAD n 0 .ok (.bytes (d.tsqHead n)) fun e => e.modPort n fun q => { q with tsq := q.tsq.drop 1 }

/-- TSQ_HEAD_READ (R327). -/
def execTsqHeadRead (p : Party) (port : Nat) (s : State) : Host.Outcome State Fault Refusal :=
  .next (s.on fun d => d.readTsq p port)

/-! ### Launch queues (R328, R329) -/

/-- Bytes of port `n`'s largest frame without the frame check sequence (R328, R340). -/
def Dev.maxFrame (d : Dev) (n : Nat) : Nat := d.rdN D.MTU n + 14 + (if d.rd D.VLAN n = 0xFFFF then 0 else 4)

/-- Lane rate of port `n` in Gbit/s by its mode (R338); 0 for a port that is off. -/
def Dev.lineRate (d : Dev) (n : Nat) : Nat :=
  match d.rdN D.MODE_NOW n with
  | 1 => 10
  | 2 => 25
  | 3 => 50
  | 4 => 100
  | 5 => 100
  | 6 => 200
  | 7 => 400
  | _ => 0

/-- Core cycles for which a frame of `n` bytes and its check sequence hold the line at `rate` Gbit/s. -/
def Dev.lineCc (d : Dev) (n rate : Nat) : Nat := if rate = 0 then 0 else ((n + 4) * 8 * d.clk.fcore + (rate * 10 ^ 9 - 1)) / (rate * 10 ^ 9)

/-- A frame put among the waiting ones: by launch time, equal times in the order written (R329). -/
def queueFrame (f : Launch) : List Launch → List Launch
  | [] => [f]
  | g :: gs => if f.time < g.time then f :: g :: gs else g :: queueFrame f gs

/-- A write of LQ_FRAME (R328). -/
def Dev.launchFrame (d : Dev) (p : Party) (n : Nat) (bs : List Byte) : Dev :=
  let t := d.rdp p D.LQ_TIME n
  d.attempt
    (match d.gate p (0x2120 + n) true with
     | .ok =>
       if 2 ≤ n then .noObject
       else firstOf [d.levelOk p D.LQ_FRAME n, Status.length.when (decide (bs.length < 60) || decide (d.maxFrame n < bs.length)),
         Status.busy.when (decide (64 ≤ (d.port n).launch.length))]
     | x => x) fun e =>
    let f : Launch :=
      ⟨t.toNat, d.rdpN p D.LQ_FLAGS n, d.rdpN p D.LQ_TAG n, bs, decide (t.toNat * 2 ^ 44 < (d.tbase n).acc)⟩
    e.modPort n fun q => { q with launch := queueFrame f q.launch }

/-- LQ_FRAME_WRITE (R328). -/
def execLqFrameWrite (p : Party) (port : Nat) (bytes : List Byte) (s : State) : Host.Outcome State Fault Refusal :=
  .next (s.on fun d => d.launchFrame p port bytes)

/-- The core cycle in which time base `t` reaches `ns`, the present one where it has. -/
def Dev.ccOfTime (d : Dev) (t ns : Nat) : Nat :=
  let b := d.tbase t
  d.clk.cc + (ns * 2 ^ 44 - b.acc + (b.inc - 1)) / max 1 b.inc

/-- The first waiting frame is done with: LQ_LAST and its counter (R328, R329). -/
def Dev.launchDone (d : Dev) (n tag status : Nat) : Dev :=
  let d1 := d.wr D.LQ_LAST n (tag * 2 ^ 16 + status : Nat)
  match status with
  | 0 => d1.wrap D.LQ_SENT n 32 1
  | 1 => (d1.bump D.LQ_LATE n 32 1).report 0x341C n 0
  | _ => (d1.bump D.LQ_DROPPED n 32 1).report 0x341C n 0

/-- The first waiting frame meets its time: sent on time, sent late, or dropped late with DROP_LATE (R329). -/
def Dev.launchNext (d : Dev) (n : Nat) : Dev :=
  let q := d.port n
  match q.launch with
  | [] => d
  | f :: rest =>
    if q.link ≠ 3 then d
    else
      let due := d.ccOfTime n f.time
      let late := f.late || decide (due < q.busyTo)
      let d1 := (d.reachCc (if late then (if bit f.flags 1 then d.clk.cc else q.busyTo) else due)).modPort n fun x => { x with launch := rest }
      if late && bit f.flags 1 then d1.launchDone n f.tag 2
      else
        let cc := d1.lineCc f.bytes.length (d1.lineRate n)
        let d2 := (d1.send n (.launch f.bytes)).modPort n fun x => { x with busyTo := d1.clk.cc + cc }
        let d3 := if bit f.flags 0 then d2.stampFrame n f.tag 0 else d2
        d3.launchDone n f.tag (b2n late)

/-- LAUNCH_TIME (R329). -/
def execLaunchTime (port : Nat) (s : State) : Host.Outcome State Fault Refusal :=
  .next (s.on fun d => d.launchNext port)

/-- A write of LQ_FLUSH (R328). -/
def Dev.launchFlush (d : Dev) (p : Party) (n : Nat) (v : Int) : Dev :=
  d.write p D.LQ_FLUSH n 0 v .ok fun e => e.modPort n fun q => { q with launch := [] }

/-- LQ_FLUSH (R328). -/
def execLqFlush (p : Party) (port : Nat) (s : State) : Host.Outcome State Fault Refusal :=
  .next (s.on fun d => d.launchFlush p port 1)

/-! ### Compare and capture units (R330, R331) -/

/-- Compare unit `j` meets its time: the event at generation 0, then off or to the next time not yet passed (R330). -/
def Dev.compare (d : Dev) (j : Nat) : Dev :=
  if !d.flag D.CMP_EN j then d
  else
    let t := d.rdN D.CMP_TB j
    let at_ := d.rdN D.CMP_TIME j
    let d1 := ((((d.reachCc (d.ccOfTime t at_)).raise (srcCmp j)).wrap D.CMP_HITS j 32 1).ftToggle j)
    let per := d.rdN D.CMP_PERIOD j
    if per = 0 then d1.wr D.CMP_EN j 0
    else
      let k := ((d1.tbase t).ns - at_) / per + 1
      (d1.wr D.CMP_TIME j (at_ + k * per : Nat)).bump D.CMP_SKIPPED j 32 (k - 1)

/-- COMPARE_MATCH (R330). -/
def execCompareMatch (j : Nat) (s : State) : Host.Outcome State Fault Refusal :=
  .next (s.on fun d => if j < 16 then d.compare j else d)

/-- Capture unit `j` takes the time of an event raised in core cycle `cc` at its source; an EVI pin's is taken back by
FILTER + 3 cc to the ball's edge (R331). -/
def Dev.capture (d : Dev) (j cc : Nat) : Dev :=
  if d.flag D.CAP_VALID j && !d.flag D.CAP_OVERWRITE j then d
  else
    let b := d.tbase (d.rdN D.CAP_TB j)
    let step : Int := match b.lastStep with
      | some (c, amt) => if cc < c then amt else 0
      | none => 0
    let acc := ((b.acc : Int) - b.inc * (d.clk.cc - cc : Nat) - step).toNat
    let d1 := ((d.wr D.CAP_TIME j (acc / 2 ^ 44 : Nat)).wr D.CAP_VALID j 1).wrap D.CAP_COUNT j 32 1
    { d1 with capFrac := SMap.set 0 d1.capFrac j (acc / 2 ^ 28 % 2 ^ 16) }

/-- A read of CAP_TIME: the capture is no longer unread, its fraction is kept for the party's CAP_FRAC (R331). -/
def Dev.readCap (d : Dev) (p : Party) (j : Nat) : Dev :=
  d.read p D.CAP_TIME j 0 .ok (.num (d.rd D.CAP_TIME j)) fun e =>
    (e.wr D.CAP_VALID j 0).wrp p D.CAP_FRAC j (SMap.get 0 e.capFrac j : Nat)

/-- CAP_TIME_READ (R331). -/
def execCapTimeRead (p : Party) (j : Nat) (s : State) : Host.Outcome State Fault Refusal :=
  .next (s.on fun d => d.readCap p j)

/-! ### The device cv count (R333–R336) -/

/-- Whether every acquisition unit is Idle and every sequence engine Idle, Done or Error (R334, R461). -/
def Dev.enginesRest (d : Dev) : Bool :=
  (d.acqs.all fun e => e.2.st == .idle) &&
    d.seqs.all fun e => e.2.st == .idle || e.2.st == .done || e.2.st == .error

/-- A write of SYNC_ARM: 1 arms a load, 2 disarms (R333, R334). -/
def Dev.syncArm (d : Dev) (p : Party) (v : Int) : Dev :=
  d.write p D.SYNC_ARM 0 0 v (Status.state.when (v == 1 && !d.enginesRest)) fun e =>
    { e with cvs := { e.cvs with status := if v = 1 then 1 else 0, due := none } }

/-- SYNC_ARM 1 (R334). -/
def execSyncArm (p : Party) (s : State) : Host.Outcome State Fault Refusal := .next (s.on fun d => d.syncArm p 1)

/-- SYNC_ARM 2 (R333). -/
def execSyncDisarm (p : Party) (s : State) : Host.Outcome State Fault Refusal := .next (s.on fun d => d.syncArm p 2)

/-- SYNC_IN_EDGE: the sampling CVCLK edge finds SYNC_IN high after low; the load falls on the 8th edge after it (R334). -/
def execSyncInEdge (s : State) : Host.Outcome State Fault Refusal :=
  .next (s.on fun d =>
    if d.cvs.status ≠ 1 || d.cvs.due.isSome then d
    else
      let d1 := d.reach d.cvclkTick
      let dv := max 1 (d.rdN D.CV_DIV 0)
      let m := max 1 (d.rdN D.CV_MUL 0)
      { d1 with cvs := { d1.cvs with due := some (d1.clk.tick + (8 * m + (dv - 1)) / dv) } })

/-- Results of the low-power channels are stale until their next sample (R335). -/
def Dev.lpRealign (d : Dev) : Dev :=
  (d.chans.map Prod.fst).foldl (fun e u => if e.flag C.LP_MODE u then e.modMeas u fun m => { m with stale := true } else e) d

/-- SYNC_LOAD: the count takes SYNC_LOAD (R334, R335). -/
def execSyncLoad (s : State) : Host.Outcome State Fault Refusal :=
  .next (s.on fun d =>
    match d.cvs.due with
    | none => d
    | some t =>
      let d1 := d.reach t
      let new := d1.rdN D.SYNC_LOAD 0
      let delta := ofTwos 64 (toU 64 ((d1.clk.cv : Int) - new))
      let d2 :=
        { d1 with
          clk := { d1.clk with cv := new, loadTick := d1.clk.tick, loadDelta := (d1.clk.cv : Int) - new },
          cvs := { d1.cvs with status := 2, due := none, delta := delta, last := d1.now2 } }
      let d3 := d2.lpRealign
      if delta = 0 then d3 else d3.report 0x3525 0 0)

/-- SYNC_OUT_PULSE: the count equals SYNC_OUT_AT, and at that CVCLK edge or the next a pulse of 4 periods starts (R336). -/
def execSyncOutPulse (s : State) : Host.Outcome State Fault Refusal :=
  .next (s.on fun d =>
    let at_ := d.rdN D.SYNC_OUT_AT 0
    if at_ = 2 ^ 64 - 1 || at_ < d.clk.cv || d.cvs.outEnds.isSome then d
    else
      let t := d.clk.tick + (at_ - d.clk.cv)
      if d.cvs.outTick = some t then d
      else
        let d1 := d.reach t
        let d2 := d1.reach d1.cvclkTick
        { d2 with cvs := { d2.cvs with outEnds := some (d2.clk.cc + d2.cvclkCc 4), outTick := some t } })

/-- SYNC_OUT_PULSE_END (R336). -/
def execSyncOutPulseEnd (s : State) : Host.Outcome State Fault Refusal :=
  .next (s.on fun d =>
    match d.cvs.outEnds with
    | none => d
    | some c => let d1 := d.reachCc c; { d1 with cvs := { d1.cvs with outEnds := none } })

end Sys2Proof.Machine
end

