-- ==== Sys2Proof/Machine/Ports.lean ====
section
/-! DEFINITION. Host ports: modes and links, PORT_CFG, streams (R338–R342, R364–R367). -/

namespace Sys2Proof.Machine

open Sys2Proof

/-! ### Modes and configuration (R338, R341) -/

/-- FEC values permitted in a mode, coded as FEC_MODE; the one under FEC_MODE 0 comes last (R338). -/
def fecOf (mode : Nat) : List Nat :=
  match mode with
  | 0 => []
  | 1 => [2, 1]
  | 2 => [1, 2, 3]
  | _ => [4]

/-- Lanes a mode uses, one bit each (R338). -/
def lanesOf (mode : Nat) : Nat :=
  match mode with
  | 0 => 0
  | 6 => 3
  | 7 => 15
  | _ => 1

/-- FEC in force with a mode and FEC_MODE (R338). -/
def fecNow (mode fec : Nat) : Nat := if (fecOf mode).contains fec then fec else ((fecOf mode).getLast?).getD 1

/-- The object of a subindex of PORT_CFG. -/
def portObj (sub : Nat) : Option Obj :=
  match sub with
  | 1 => some D.PORT_MODE
  | 2 => some D.AN_EN
  | 3 => some D.FEC_MODE
  | 4 => some D.LANE_POL
  | 5 => some D.MAC_ADDR
  | 6 => some D.MTU
  | 7 => some D.VLAN
  | 8 => some D.IP4_ADDR
  | 9 => some D.IP4_MASK
  | 10 => some D.IP6_ADDR
  | 11 => some D.ETHERTYPE
  | 12 => some D.UDP_PORT
  | 13 => some D.V1_EN
  | 14 => some D.V1_AUTOCLAIM
  | 15 => some D.LEASE_MS
  | 16 => some D.LOSS_ACTION
  | _ => none

/-- Values of PORT_CFG refused beyond their ranges (R341). -/
def Dev.portValueBad (d : Dev) (n sub : Nat) (v : Int) : Bool :=
  match sub with
  | 3 => v ≠ 0 && !(fecOf (d.rdN D.PORT_MODE n)).contains v.toNat
  | 7 => !((1 ≤ v && decide (v ≤ 4094)) || v == 0xFFFF)
  | 11 => decide (v < 0x0600) || [0x0800, 0x0806, 0x86DD, 0x8100, 0x8808, 0x88F7].contains v.toNat
  | _ => false

/-- The replay cache of port `n` emptied (R341, R355). -/
def Dev.emptyCache (d : Dev) (n : Nat) : Dev := d.modPort n fun x => { x with cache := [] }

/-- The link of port `n` at `x`; a change is notified to the other port (R368 kind 7). -/
def Dev.setLink (d : Dev) (n x : Nat) : Dev :=
  if (d.port n).link = x then d
  else (d.modPort n fun q => { q with link := x }).notifyPort (1 - n) 7 0xFFFF x 0

/-- The link of port `n` leaves up: LINK_LOST, its report; running streams pause by themselves (R342, R367, R428). -/
def Dev.linkLost (d : Dev) (n : Nat) : Dev :=
  if (d.port n).link ≠ 3 then d
  else
    ((((d.setLink n 0).wr D.PORT_FLAGS n (d.rdN D.PORT_FLAGS n ||| 4 : Nat)).wr D.LANE_LOCK n 0).wr D.MODE_NOW n 0).report
      0x3418 n 0

/-- The link of port `n` restarted: down, then negotiating or training; cache and Limtur snapshots go (R339, R341, R355,
R363). -/
def Dev.restartLink (d : Dev) (n : Nat) : Dev :=
  let d1 := (d.linkLost n).modPort n fun x => { x with cache := [], snaps := [], highs := [] }
  d1.setLink n (if d.rd D.PORT_MODE n = 0 then 0 else if d.flag D.AN_EN n then 1 else 2)

/-- A MAC address as it is kept: marked as written, so that another reads as the factory's (R341). -/
def macMark : Nat := 2 ^ 48

/-- MAC_ADDR of port `n`: the factory address, one higher for port B, until another is written (R341, R384). -/
def Dev.mac (d : Dev) (n : Nat) : Nat :=
  let v := d.rdN D.MAC_ADDR n
  if macMark ≤ v then v - macMark else (Config.macBase + n) % macMark

/-- The value a write of PORT_CFG keeps. -/
def portKept (sub : Nat) (v : Int) : Int := if sub = 5 then (v.toNat % macMark + macMark : Nat) else v

/-- What a write of PORT_CFG does beside keeping its value (R341, R355, R373). -/
def Dev.portEffect (d : Dev) (n sub : Nat) (v : Int) : Dev :=
  let d1 := if sub = 15 then d.setLease n v else d
  let first := !(d.port n).wrote
  let d2 := d1.modPort n fun x => { x with wrote := true }
  if first || decide (sub ≤ 4) || sub = 6 then d2.restartLink n
  else if 8 ≤ sub then d2.emptyCache n
  else d2

/-- A write of a number to PORT_CFG. -/
def Dev.portNum (d : Dev) (p : Party) (n sub : Nat) (v : Int) : Dev :=
  match portObj sub with
  | some o =>
    d.write p o n 0 v (firstOf [Status.length.when (sub == 10), Status.value.when (d.portValueBad n sub v)]) fun e =>
      (e.wr o n (portKept sub v)).portEffect n sub v
  | none => d.say (firstOf [d.gate p (0x1100 + n) true, if sub = 0 then .access else .noObject])

/-- A write of the 16 bytes of IP6_ADDR. -/
def Dev.ip6Write (d : Dev) (p : Party) (n : Nat) (bs : List Byte) : Dev :=
  d.attempt
    (match d.gate p (0x1100 + n) true with
     | .ok => if 2 ≤ n then .noObject else firstOf [d.levelOk p D.IP6_ADDR n, Status.length.when (bs.length ≠ 16)]
     | x => x) fun e => (e.wr D.IP6_ADDR n (leNat bs)).portEffect n 10 0

/-- A write to subindex `sub` of port `n`'s PORT_CFG (R341). -/
def Dev.portWrite (d : Dev) (p : Party) (n sub : Nat) (v : Val) : Dev :=
  match v with
  | .num x => d.portNum p n sub x
  | .bytes bs => if sub = 10 then d.ip6Write p n bs else d.portNum p n 10 0

/-- PORT_CFG_WRITE (R341). -/
def execPortCfgWrite (p : Party) (port sub : Nat) (v : Val) (s : State) : Host.Outcome State Fault Refusal :=
  .next (s.on fun d => d.portWrite p port sub v)

/-! ### Links (R339, R342) -/

/-- Whether the lanes and logic of port `n` are powered for its mode, and its reference is there (R339, R462, R464). -/
def Dev.lanesReady (d : Dev) (n : Nat) : Bool :=
  let m := lanesOf (d.rdN D.PORT_MODE n)
  m ≠ 0 && d.pdOn (280 + n) && !bit (d.rdN D.REF_LOST 0) n &&
    (List.range 4).all fun i => !bit m i || d.pdOn (272 + 4 * n + i)

/-- The link of port `n` comes up in PORT_MODE (R339, R342, R355). -/
def Dev.portUp (d : Dev) (n : Nat) : Dev :=
  if 2 ≤ n || d.rd D.DS_STATE 0 ≠ 1 || (d.port n).link = 3 || !d.lanesReady n then d
  else
    let m := d.rdN D.PORT_MODE n
    let d1 := (((d.wr D.MODE_NOW n m).wr D.FEC_NOW n (fecNow m (d.rdN D.FEC_MODE n))).wr D.LANE_LOCK n (lanesOf m)).modPort n
      fun x => { x with cache := [], snaps := [], highs := [], launch := x.launch.map fun f => { f with late := f.late || decide (f.time * 2 ^ 44 < (d.tbase n).acc) } }
    d1.setLink n 3

/-- LINK_UP (R339). -/
def execLinkUp (port : Nat) (s : State) : Host.Outcome State Fault Refusal := .next (s.on fun d => d.portUp port)

/-- LINK_DOWN (R342, R367). -/
def execLinkDown (port : Nat) (s : State) : Host.Outcome State Fault Refusal :=
  .next (s.on fun d => if 2 ≤ port then d else d.linkLost port)

/-! ### Streams (R364–R367) -/

/-- Stream `i` of port `n`. -/
def Dev.stream (d : Dev) (n i : Nat) : Stream := SMap.get {} (d.port n).streams i

/-- Stream `i` of port `n` changed by `f`. -/
def Dev.modStream (d : Dev) (n i : Nat) (f : Stream → Stream) : Dev :=
  d.modPort n fun x => { x with streams := SMap.upd {} x.streams i f }

/-- Largest Samovar payload of a stream's frames (R366). -/
def Dev.streamMax (d : Dev) (n : Nat) (x : Stream) : Nat := if x.maxFrame = 0 then d.rdN D.MTU n else x.maxFrame

/-- Payload words that fill a frame: behind the header of 16, the TLV header of 4 and the 8 bytes before the words (R343,
R344, R365). -/
def Dev.streamWords (d : Dev) (n : Nat) (x : Stream) : Nat := (d.streamMax n x - 28) / 4

/-- ST_STATE (R366). -/
def Dev.streamState (d : Dev) (n : Nat) (x : Stream) : Nat :=
  if !x.enable then 0
  else if (d.qu x.queue).bad then 3
  else if (d.port n).link ≠ 3 || bit d.portFenced n then 2
  else 1

/-- Whether ST_HOLDOFF has passed since the oldest visible unsent word became visible (R364). -/
def Dev.heldOff (d : Dev) (x : Stream) : Bool :=
  match (d.qu x.queue).vis with
  | [] => false
  | v :: _ => decide (v.2 + x.holdoff * (d.clk.fcore / 1000000) ≤ d.clk.cc)

/-- Whether stream `i` of port `n` is ready: running, a frame's words visible or the hold-off passed, and within ST_RATE
(R364). -/
def Dev.streamReady (d : Dev) (n i : Nat) : Bool :=
  let x := d.stream n i
  let q := d.qu x.queue
  d.streamState n x == 1 && decide (x.next ≤ d.clk.cc) && decide (0 < q.avail) && q.live &&
    (decide (d.streamWords n x ≤ q.avail) || x.due || d.heldOff x)

/-- Whether a launch frame is too near for another frame to start (R329, R364). -/
def Dev.launchGuard (d : Dev) (n : Nat) : Bool :=
  let g := d.lineCc (d.maxFrame n) (d.lineRate n) + 64
  (d.port n).launch.any fun f => decide (d.ccOfTime n f.time ≤ d.clk.cc + g)

/-- Up to `k` words taken from queue `q` for a frame, pads skipped, up to a corrupt item (R267, R279, R365): the device, the
pointer of the first word and whether it begins an item, and the words. -/
def Dev.takeWords (d : Dev) (q : Nat) : Nat → Nat → Option (Nat × Bool) → List Nat → Dev × Option (Nat × Bool) × List Nat
  | 0, _, f, ws => (d, f, ws.reverse)
  | fuel + 1, k, f, ws =>
    let x := d.qu q
    if k = 0 || x.avail = 0 then (d, f, ws.reverse)
    else
      let start : Bool := x.remain = 0
      let d1 := if start then d.startItem q else d
      let y := d1.qu q
      if y.bad then (d1, f, ws.reverse)
      else
        let w := d1.getWord y y.rd
        if start && w / 2 ^ 30 % 4 = 0 then Dev.takeWords (d1.advanceRd q y.remain) q fuel k f ws
        else
          let f1 := match f with
            | some a => some a
            | none => some (y.rd, start)
          Dev.takeWords ((d1.advanceRd q 1).modQu q fun z => { z with lastRead := w }) q fuel (k - 1) f1 (w :: ws)

/-- Words no longer unsent dropped from the list of visible ones. -/
def dropVis : Nat → List (Nat × Nat) → List (Nat × Nat)
  | _, [] => []
  | n, (k, t) :: vs => if n = 0 then (k, t) :: vs else if n < k then (k - n, t) :: vs else dropVis (n - k) vs

/-- The list of visible words cut to what the queue still holds. -/
def Queue.trimVis (q : Queue) : Queue :=
  let n := (q.vis.map Prod.fst).foldl (· + ·) 0
  { q with vis := dropVis (n - q.avail) q.vis }

/-- The Samovar payload of a stream frame (R343, R344, R365). -/
def streamBytes (i seq ptr : Nat) (start stopped : Bool) (ws : List Nat) : List Byte :=
  [2, 0, 3, 0] ++ natLe 4 seq ++ natLe 2 0 ++ natLe 2 0xFFFF ++ natLe 2 1 ++ natLe 2 0 ++
    [0x10, 0] ++ natLe 2 (8 + 4 * ws.length) ++ natLe 2 i ++ natLe 2 (b2n start + 2 * b2n stopped) ++ natLe 4 ptr ++
    ws.flatMap (natLe 4)

/-- A Samovar payload sent to a stream's destination (R366). -/
def Dev.streamSent (d : Dev) (n : Nat) (x : Stream) (bs : List Byte) : Sent :=
  match x.transport with
  | 0 =>
    .frame x.mac (if d.rd D.VLAN n = 0xFFFF then none else some (d.rdN D.VLAN n)) (d.rdN D.ETHERTYPE n) bs
  | 1 => .udp false x.ip4 x.udp bs
  | _ => .udp true x.ip6 x.udp bs

/-- One frame of stream `i` of port `n` (R364, R365, R367). -/
def Dev.streamFrame (d : Dev) (n i : Nat) : Dev :=
  let x := d.stream n i
  let k := d.streamWords n x
  let r := d.takeWords x.queue (k + (d.qu x.queue).avail) k none []
  let ws := r.2.2
  let bad := (r.1.qu x.queue).bad
  let f := r.2.1.getD ((d.qu x.queue).rd, false)
  let bs := streamBytes i x.seq f.1 f.2 bad ws
  let d1 := (r.1.modQu x.queue Queue.trimVis).send n (d.streamSent n x bs)
  let gap := if x.rate = 0 then 0 else (bs.length * 8 * (d.clk.fcore / 1000000) + (x.rate - 1)) / x.rate
  let d2 := (d1.modStream n i fun y =>
    { y with
      frames := (y.frames + 1) % 2 ^ 32, words := (y.words + ws.length) % 2 ^ 64, seq := (y.seq + 1) % 2 ^ 32, due := false,
      next := d.clk.cc + gap }).modPort n fun y => { y with turn := i }
  let d3 := if bit x.flags 0 then d2.stampFrame n (0xE000 + i) 0 else d2
  if bad then d3.report 0x341E n i else d3

/-- STREAM_FRAME_SEND: one frame of the next ready stream in turn (R364). -/
def execStreamFrameSend (port : Nat) (s : State) : Host.Outcome State Fault Refusal :=
  .next (s.on fun d =>
    if 2 ≤ port || d.launchGuard port then d
    else
      let t := (d.port port).turn + 1
      match (List.range 256).find? fun j => d.streamReady port ((t + j) % 256) with
      | none => d
      | some j => d.streamFrame port ((t + j) % 256))

/-- STREAM_HOLDOFF_EXPIRY: ST_HOLDOFF after the oldest unsent word became visible the stream is ready (R364). -/
def execStreamHoldoffExpiry (port n : Nat) (s : State) : Host.Outcome State Fault Refusal :=
  .next (s.on fun d =>
    let x := d.stream port n
    match (d.qu x.queue).vis with
    | [] => d
    | v :: _ =>
      if 2 ≤ port || 256 ≤ n || !x.enable then d
      else (d.reachCc (v.2 + x.holdoff * (d.clk.fcore / 1000000))).modStream port n fun y => { y with due := true })

/-- The stream a party has selected in port `n`'s window (R366). -/
def Dev.stSel (d : Dev) (p : Party) (n : Nat) : Nat := d.rdpN p D.ST_SEL n

/-- Whether queue `q` is bound to a stream other than none (R367). -/
def Dev.bound (d : Dev) (q : Nat) : Bool := (d.qu q).consumer ≠ 0

/-- The refusals of ST_ENABLE 1 (R367). -/
def Dev.bindCheck (d : Dev) (p : Party) (q : Nat) : Status :=
  if 65535 < q then .state
  else firstOf [d.qLevel p q, Status.state.when (!(d.qu q).live), Status.busy.when (d.bound q)]

/-- ST_ENABLE 1: the queue bound, RD where it stands (R367). -/
def Dev.bindStream (d : Dev) (n i : Nat) : Dev :=
  let q := (d.stream n i).queue
  let now := d.clk.cc
  (d.modQu q fun x => { x with consumer := n + 1, vis := if x.avail = 0 then [] else [(x.avail, now)] }).modStream n i
    fun x => { x with enable := true, seq := 0, due := false, next := 0 }

/-- ST_ENABLE 0: the stream ends and its queue is unbound (R367). -/
def Dev.unbindStream (d : Dev) (n i : Nat) : Dev :=
  let x := d.stream n i
  if !x.enable then d
  else (d.modQu x.queue fun y => { y with consumer := 0, vis := [] }).modStream n i fun y => { y with enable := false }

/-- A write of ST_ENABLE (R366, R367). -/
def Dev.stEnable (d : Dev) (p : Party) (n : Nat) (v : Int) : Dev :=
  let i := d.stSel p n
  let x := d.stream n i
  d.write p D.ST_ENABLE n 0 v (if v = 1 then (if x.enable then .busy else d.bindCheck p x.queue) else .ok) fun e =>
    if v = 1 then e.bindStream n i else e.unbindStream n i

/-- ST_ENABLE_WRITE (R367). -/
def execStEnableWrite (p : Party) (port : Nat) (v : Int) (s : State) : Host.Outcome State Fault Refusal :=
  .next (s.on fun d => d.stEnable p port v)

/-- A write of ST_CMD: FLUSH or SKIP of the queue the stream is bound to (R366). -/
def Dev.stCmd (d : Dev) (p : Party) (n : Nat) (v : Int) : Dev :=
  let x := d.stream n (d.stSel p n)
  d.write p D.STM_CMD n 0 v (Status.state.when (!x.enable || !(d.qu x.queue).live)) fun e =>
    if v = 1 then e.flush x.queue
    else
      let before := (e.qu x.queue).avail
      ((e.skip x.queue).wmark x.queue before).modQu x.queue Queue.trimVis

/-- ST_CMD_FLUSH (R278, R366). -/
def execStCmdFlush (p : Party) (port : Nat) (s : State) : Host.Outcome State Fault Refusal :=
  .next (s.on fun d => d.stCmd p port 1)

/-- ST_CMD_SKIP (R277, R366). -/
def execStCmdSkip (p : Party) (port : Nat) (s : State) : Host.Outcome State Fault Refusal :=
  .next (s.on fun d => d.stCmd p port 2)

/-- The object of a subindex of STREAM that is written only while the stream is off. -/
def streamObj (sub : Nat) : Option Obj :=
  match sub with
  | 2 => some D.ST_QUEUE
  | 3 => some D.ST_TRANSPORT
  | 4 => some D.ST_DST_MAC
  | 5 => some D.ST_DST_IP4
  | 7 => some D.ST_DST_UDP
  | 8 => some D.ST_MAX_FRAME
  | 9 => some D.ST_HOLDOFF
  | 10 => some D.ST_RATE
  | 11 => some D.ST_FLAGS
  | _ => none

/-- A stream with a field of its window written. -/
def Stream.put (x : Stream) (sub n : Nat) : Stream :=
  match sub with
  | 2 => { x with queue := n }
  | 3 => { x with transport := n }
  | 4 => { x with mac := n % 2 ^ 48 }
  | 5 => { x with ip4 := n }
  | 6 => { x with ip6 := n }
  | 7 => { x with udp := n }
  | 8 => { x with maxFrame := n }
  | 9 => { x with holdoff := n }
  | 10 => { x with rate := n }
  | _ => { x with flags := n % 2 }

/-- A write of a field of the selected stream (R366). -/
def Dev.streamWrite (d : Dev) (p : Party) (n sub : Nat) (v : Int) : Dev :=
  let i := d.stSel p n
  let x := d.stream n i
  let big := sub = 8 && !(v == 0 || (decide (128 ≤ v) && decide (v ≤ d.rd D.MTU n)))
  match streamObj sub with
  | some o =>
    d.write p o n 0 v (firstOf [Status.value.when big, Status.state.when x.enable]) fun e =>
      e.modStream n i fun y => y.put sub v.toNat
  | none => d.say .access

/-- A write of the 16 bytes of ST_DST_IP6. -/
def Dev.streamIp6 (d : Dev) (p : Party) (n : Nat) (bs : List Byte) : Dev :=
  let i := d.stSel p n
  d.attempt
    (match d.gate p (0x1300 + n) true with
     | .ok =>
       firstOf [d.levelOk p D.ST_DST_IP6 n, Status.length.when (bs.length ≠ 16), Status.state.when (d.stream n i).enable]
     | x => x) fun e => e.modStream n i fun y => y.put 6 (leNat bs)

/-- What a read of a number in port `n`'s stream window gives (R366). -/
def Dev.streamRead (d : Dev) (p : Party) (n sub : Nat) : Int :=
  let i := d.stSel p n
  let x := d.stream n i
  match sub with
  | 1 => i
  | 2 => x.queue
  | 3 => x.transport
  | 4 => x.mac
  | 5 => x.ip4
  | 7 => x.udp
  | 8 => x.maxFrame
  | 9 => x.holdoff
  | 10 => x.rate
  | 11 => x.flags
  | 12 => b2i x.enable
  | 14 => x.frames
  | 15 => x.words
  | _ => d.streamState n x

end Sys2Proof.Machine
end

