-- ==== Sys2Proof/Machine/FaultOps.lean ====
section
/-! DEFINITION. The fault collector: classification, latches, dampers, FLT_N and pending history records (R429–R443,
R536). -/

namespace Sys2Proof.Machine

open Sys2Proof

/-! ### Standing events and FLT_N (R440, R536) -/

/-- STANDING of a target (R433, R536). -/
def Dev.standing (d : Dev) (t : Nat) : Nat := SMap.get 0 d.flt.stand t

/-- WORST: the highest STANDING of any target (R435). -/
def Dev.worst (d : Dev) : Nat := d.flt.stand.foldl (fun m x => max m x.2) 0

/-- FLT_N driven as STANDING and the boot have it; a fall is counted and raises device event 2 (R440, R473). -/
def Dev.fltEval (d : Dev) : Dev :=
  let low := decide (d.rd D.DS_STATE 0 ≠ 1) || decide (d.rdN D.FLT_SEVERITY 0 ≤ d.worst)
  if low && !d.fltLow then (({ d with fltLow := true }).bump D.FLT_FALLS 0 32 1).raise (srcDev 2)
  else { d with fltLow := low }

/-! ### Configuration of sources (R429, R430) -/

/-- N, W, reaction and history of a source (R430). -/
def Dev.srcCfg (d : Dev) (s : FSource) : SrcCfg := SMap.get ⟨s.n, 1000, s.react, true⟩ d.flt.cfg s.code

/-! ### Pending records (R441, R443) -/

/-- An event that finds the retention RAM full is counted in H_LOST, which raises HISTORY_LOST (R443). -/
def Dev.histLost (d : Dev) (code : Nat) : Dev :=
  let d1 := d.bump D.H_LOST 0 32 1
  if code = 0x3737 then d1 else d1.report 0x3737 0 0

/-- The first record of the same code and unit with one event more. -/
def coalesce (code unit : Nat) : List FRec → List FRec
  | [] => []
  | r :: rs => if r.code = code ∧ r.unit = unit then { r with count := min 255 (r.count + 1) } :: rs else r :: coalesce code unit rs

/-- A record in the retention RAM: an event joins one of its code and unit; one slot is held for HISTORY_LOST (R443). -/
def Dev.remember (d : Dev) (r : FRec) : Dev :=
  let ps := d.flt.pending
  if !d.pwr.vsrv then d.histLost r.code
  else if r.code ≠ 0 && ps.any fun x => x.code == r.code && x.unit == r.unit then
    { d with flt := { d.flt with pending := coalesce r.code r.unit ps } }
  else if r.code ≠ 0x3737 && decide (63 ≤ (ps.filter fun x => x.code ≠ 0x3737).length) then d.histLost r.code
  else { d with flt := { d.flt with pending := ps ++ [r] } }

/-- A clear or boot record of this moment (R441, R443). -/
def Dev.markRec (d : Dev) (unit flags : Nat) : FRec := ⟨0, unit, flags, 1, d.rdN D.H_BOOTS 0 % 2 ^ 16, d.now2, 0⟩

/-! ### Dampers (R437) -/

/-- Stove `k` fenced: SE_CMD cleared, its regulating channels Off and regulating leaves fenced (R38, R110, R126, R437). -/
def Dev.fenceStove (d : Dev) (k : Nat) : Dev :=
  if (d.st k).fenced then d
  else (((d.modSt k fun s => { s with fenced := true }).wr S.SE_CMD k 0).dropStove k).ftAbortIf (d.ftOnStove k)

/-- Port `n` fenced: it answers nothing and its streams pause, its PTP engine is FAULTY, the units it owns take
LOSS_ACTION (R373, R437). -/
def Dev.fencePort (d : Dev) (n : Nat) : Dev :=
  if bit d.portFenced n then d
  else
    let d1 := ({ d with portFenced := setBit d.portFenced n true }.ptpState n 2).lossAction n
    if d.ftOnPort n then (d1.ftEnd 5).restartLink n else d1

/-- Half `n` fenced with its port: 0 West with port A, 1 East with port B (R437). -/
def Dev.fenceHalf (d : Dev) (n : Nat) : Dev :=
  if bit d.halfFenced n then d else { d with halfFenced := setBit d.halfFenced n true }.fencePort n

/-- A port's fence of its own, which outlasts that of its half (R448). -/
def Dev.markPort (d : Dev) (n : Nat) : Dev := { d with flt := { d.flt with portMarks := setBit d.flt.portMarks n true } }

/-- Whether the damper of a reaction on a unit has anything to close (R437). -/
def Dev.damperOpen (d : Dev) (react : Nat) (k : FUnit) (u : Nat) : Bool :=
  match react with
  | 0 => false
  | 1 => match k with
    | .chan => decide ((d.ch u).ctl.st ≠ .fenced)
    | .virt => decide ((d.ch u).ctl.st ≠ .fenced)
    | .stove => !(d.st u).fenced
    | .port => !bit d.portFenced u
    | .half => !bit d.halfFenced u
    | _ => false
  | _ => (List.range 16).any fun s => !(d.st s).fenced

/-- The damper closed on a unit, or on every stove (R437). -/
def Dev.closeDamper (d : Dev) (react : Nat) (k : FUnit) (u : Nat) : Dev :=
  match react with
  | 0 => d
  | 1 => match k with
    | .chan => d.fenceUnit u
    | .virt => d.fenceUnit u
    | .stove => d.fenceStove u
    | .port => (d.fencePort u).markPort u
    | .half => d.fenceHalf u
    | _ => d
  | _ => (List.range 16).foldl (fun e s => e.fenceStove s) d

/-! ### Latches (R432–R436) -/

/-- The latch of an event: FF_ and FS_ of its channel or stove, DF_ of the device (R432, R433, R435). -/
def Dev.latchFault (d : Dev) (k : FUnit) (code u time flags detail sev : Nat) : Dev :=
  let go := fun (oCode oTime oFlags oDetail oSev oSevT oLater oOvf : Obj) =>
    let d1 :=
      if d.rd oCode u = 0 then
        (((d.wr oCode u code).wr oTime u time).wr oFlags u flags).wr oDetail u detail
      else (d.bump oLater u 32 1).wr oOvf u 1
    if sev = 3 && d.rd oSev u = 0 then (d1.wr oSev u code).wr oSevT u time else d1
  match k with
  | .chan => go C.FF_CODE C.FF_TIME C.FF_FLAGS C.FF_DETAIL C.FS_CODE C.FS_TIME C.FF_LATER C.FF_OVF
  | .virt => go C.FF_CODE C.FF_TIME C.FF_FLAGS C.FF_DETAIL C.FS_CODE C.FS_TIME C.FF_LATER C.FF_OVF
  | .stove => go S.FF_CODE S.FF_TIME S.FF_FLAGS S.FF_DETAIL S.FS_CODE S.FS_TIME S.FF_LATER S.FF_OVF
  | _ =>
    if d.rd D.DF_CODE 0 = 0 then ((d.wr D.DF_CODE 0 code).wr D.DF_UNIT 0 u).wr D.DF_TIME 0 time
    else d.wr D.DF_OVF 0 1

/-- Whether a bit of one of the masks of FAULT_CFG stands for a source of a unit (R434). -/
def Dev.fcBit (d : Dev) (s : FSource) (u : Nat) (oC oS : Obj) : Bool :=
  !s.nFixed && (match s.kind with
    | .chan => bit (d.rdN oC u) (s.code % 256)
    | .virt => bit (d.rdN oC u) (s.code % 256)
    | .stove => bit (d.rdN oS u) (s.code % 256)
    | _ => false)

/-- A bit of the sticky record set (R436). -/
def Dev.stick (d : Dev) (code : Nat) (severe : Bool) : Dev :=
  let put := fun (e : Dev) (o : Obj) => e.wr o 0 (setBit (e.rdN o 0) (code % 256) true : Nat)
  let x : Obj × Obj := match code / 0x1000 with
    | 1 => (D.CH_ANY, D.CH_SEVERE)
    | 2 => (D.ST_ANY, D.ST_SEVERE)
    | _ => (D.DEV_ANY, D.DEV_SEVERE)
  if severe then put (put d x.1) x.2 else put d x.1

/-- The counters of the device record and of the unit (R434, R435). -/
def Dev.countFault (d : Dev) (s : FSource) (u : Nat) (severe : Bool) : Dev :=
  let d1 := (((d.wrap D.EVENTS 0 32 1).wr D.LAST_CODE 0 s.code).wr D.LAST_UNIT 0 u)
  let d2 := if severe then d1.wrap D.SEVERE 0 32 1 else d1
  match s.kind with
  | .chan => d2.bump C.FC_EVENTS u 32 1
  | .virt => d2.bump C.FC_EVENTS u 32 1
  | .stove => d2.bump S.FC_EVENTS u 32 1
  | _ => d2

/-! ### Classification (R429) -/

/-- Place of a pair of code and unit among the event times. -/
def pairKey (code u : Nat) : Nat := code * 65536 + u

/-- Whether an event of a source now is severe: N is 1, or the N − 1 events of the pair before it all lie within W
(R429). -/
def Dev.severeNow (d : Dev) (c : SrcCfg) (code u : Nat) : Bool :=
  let ts := (SMap.get [] d.flt.times (pairKey code u)).take (c.n - 1)
  c.n == 1 || (decide (1 < c.n) && ts.length == c.n - 1 &&
    ts.all fun t => decide (d.clk.cc - t ≤ c.win * (d.clk.fcore / 1000)))

/-- Severity: 3 severe, 1 transient, 2 minor (R429). -/
def severity (code : Nat) (severe : Bool) : Nat := if severe then 3 else if fTransient code then 1 else 2

/-- The event's time kept for the count (R429). -/
def Dev.keepTime (d : Dev) (code u : Nat) : Dev :=
  let now := d.clk.cc
  { d with flt := { d.flt with times := SMap.upd [] d.flt.times (pairKey code u) fun ts => (now :: ts).take 14 } }

/-- An event that only goes on record: a pure injected detection with INJ_CLASSIFY clear (R451). -/
def Dev.recordOnly (d : Dev) (s : FSource) (c : SrcCfg) (r : Report) (time : Nat) : Dev :=
  let x : FRec := ⟨r.code, r.unit, severity r.code (c.n == 1) + 4 * r.inj, 1, d.rdN D.H_BOOTS 0 % 2 ^ 16, time, r.detail⟩
  let d1 := { d with flt := { d.flt with last := some x } }
  if c.hist && s.code == r.code then d1.remember x else d1

/-- An event that counts: severity, damper, counters, sticky record, latches, STANDING, record, and what a severe event
raises (R429, R432–R437, R443, R451, R536). `damp`: whether a damper may close (R438). -/
def Dev.countEvent (d : Dev) (s : FSource) (c : SrcCfg) (r : Report) (time : Nat) (damp : Bool) : Dev :=
  let u := r.unit
  let severe := d.severeNow c r.code u
  let sev := severity r.code severe
  let react := if severe && damp && !d.fcBit s u C.FC_NOREACT S.FC_NOREACT then c.react else 0
  let flags := sev + 4 * r.inj + 16 * b2n (d.damperOpen react s.kind u)
  let x : FRec := ⟨r.code, u, flags, 1, d.rdN D.H_BOOTS 0 % 2 ^ 16, time, r.detail⟩
  let t := s.kind.target u
  let d1 := (((d.keepTime r.code u).countFault s u severe).stick r.code severe).latchFault s.kind r.code u time flags r.detail sev
  let d2 := { d1 with flt := { d1.flt with
    stand := SMap.upd 0 d1.flt.stand t (max sev),
    sevAt := if severe then SMap.ins d1.flt.sevAt t (d.clk.cc + 1) else d1.flt.sevAt,
    last := if r.inj ≠ 0 then some x else d1.flt.last } }
  let d3 := if c.hist then d2.remember x else d2
  let d4 := d3.closeDamper react s.kind u
  let d5 := if severe then (d4.raise (srcDev 1)).notifyAll 2 0xFFFF r.code (if s.kind = .none then 0xFFFF else u) else d4
  d5.fltEval

/-- A report at the collector: unknown codes and units are nothing; a masked source is discarded (R424, R425, R434,
R451). -/
def Dev.fault (d : Dev) (r : Report) (time : Nat) (damp : Bool) : Dev :=
  match fSource r.code with
  | none => d
  | some s =>
    if !s.kind.has r.unit || d.fcBit s r.unit C.FC_MASK S.FC_MASK then d
    else
      let c := d.srcCfg s
      if r.inj = 1 && !d.flag D.FI_INJ_CLASSIFY 0 then d.recordOnly s c r time else d.countEvent s c r time damp

/-- An event that its command carries to the collector at once, its latency apart (R453, log 11). -/
def Dev.faultNow (d : Dev) (code unit detail : Nat) : Dev := d.fault ⟨code, unit, detail, 0⟩ d.now2 true

/-- The oldest report equal to `r` taken out of those on their way, with the time of its detection. -/
def takeReport (r : Report) : List (Report × Nat) → Option (Nat × List (Report × Nat))
  | [] => none
  | (x, t) :: xs => if x = r then some (t, xs) else (takeReport r xs).map fun y => (y.1, (x, t) :: y.2)

/-- A report arrives: one on its way is taken with the time of its detection; another is one of a checker the model
leaves to the command (log 10). -/
def Dev.faultReport (d : Dev) (r : Report) : Dev :=
  match takeReport r d.reports with
  | some (t, rest) => { d with reports := rest }.fault r t true
  | none => d.fault r d.now2 true

/-! ### Clearing (R445–R448) -/

/-- Whether a number is a target of FAULT_CLEAR (R445). -/
def targetOk (t : Nat) : Bool :=
  decide (t < 384) || (decide (0x1000 ≤ t) && decide (t < 0x1010)) || t == 0x2000 || t == 0x2001 || t == 0x2100 ||
    t == 0x2101 || t == 0x3000

/-- The level CLR_CMD `v` needs on a target (R446). -/
def Dev.clrLevel (d : Dev) (p : Party) (t v : Nat) : Status :=
  match v with
  | 1 =>
    if t < 384 then d.unitLevel p t
    else if t = 0x2100 ∨ t = 0x2101 then Status.level.when (!d.service p)
    else .ok
  | 2 => Status.level.when (!d.service p)
  | 4 => Status.level.when (!d.service p)
  | _ => .ok

/-- Whether a die reads above a temperature in °C. -/
def Dev.dieAbove (d : Dev) (c : Int) : Bool :=
  let hot := fun (v : Int) => !f32Bad v && (Rat2.ofInt c).lt (f32Val v)
  hot (d.rd D.DT_LOGIC 0) || (List.range 4).any fun i => hot (d.rdi D.DT_MS 0 i)

/-- Whether a cause stands that refuses CLEAR of a target, or a severe event of it has come in this cycle (R447). -/
def Dev.clrBlocked (d : Dev) (t : Nat) : Bool :=
  SMap.get 0 d.flt.sevAt t == d.clk.cc + 1 ||
  if t < 384 then (d.leaves t).any fun u => !d.pdOn u || !d.pdOn (256 + stoveOf u)
  else if t < 0x1010 then !(d.st (t - 0x1000)).ilk || !d.pdOn (256 + (t - 0x1000))
  else if t < 0x2100 then bit d.halfFenced (t - 0x2000) || bit (d.rdN D.REF_LOST 0) (t - 0x2000)
  else if t < 0x3000 then bit d.halfFenced (1 - (t - 0x2100))
  else
    decide (d.rd D.SM_LOW 0 ≠ 0) || d.pwr.coreOut || d.pwr.cvOut || d.pwr.cvLost || d.dieAbove maxJunction ||
      decide (d.splits ≠ [])

/-- The answer to CLR_CMD `v` on a target (R445–R447). -/
def Dev.clrCheck (d : Dev) (p : Party) (t v : Nat) : Status :=
  firstOf [d.clrLevel p t v, Status.value.when (v = 2 && t = 0x3000), Status.state.when (v = 1 && d.clrBlocked t)]

/-- The latches of a unit emptied (R448). -/
def Dev.emptyLatch (d : Dev) (t : Nat) : Dev :=
  let zero := fun (os : List Obj) (u : Nat) => os.foldl (fun (e : Dev) o => e.wr o u 0) d
  if t < 384 then zero [C.FF_CODE, C.FF_TIME, C.FF_FLAGS, C.FF_DETAIL, C.FS_CODE, C.FS_TIME, C.FF_LATER, C.FF_OVF] t
  else if t < 0x2000 then
    zero [S.FF_CODE, S.FF_TIME, S.FF_FLAGS, S.FF_DETAIL, S.FS_CODE, S.FS_TIME, S.FF_LATER, S.FF_OVF] (t - 0x1000)
  else if t = 0x3000 then zero [D.DF_CODE, D.DF_UNIT, D.DF_TIME, D.DF_OVF] 0
  else d

/-- Whether a pair of code and unit stands on a target. -/
def pairOn (t key : Nat) : Bool :=
  match fSource (key / 65536) with
  | some s => s.kind.target (key % 65536) == t
  | none => false

/-- A channel's fence ended: Off, and a leaf rejoins when its hearth allows (R38, R126, R132). -/
def Dev.unfence (d : Dev) (u : Nat) : Dev :=
  if (d.ch u).ctl.st ≠ .fenced then d
  else if u < 256 then (d.enter u .off).rejoin u
  else
    let us := (d.he u).fencedWith
    let d1 := us.foldl (fun e l => if (e.ch l).ctl.st = .fenced then (e.enter l .off).rejoin l else e)
      ((d.enter u .off).modHe u fun x => { x with fencedWith := [] })
    d1.hearthOff u

/-- Port `n` resumes, its PTP engine in INITIALIZING (R448). -/
def Dev.resumePort (d : Dev) (n : Nat) : Dev :=
  let d1 := { d with flt := { d.flt with portMarks := setBit d.flt.portMarks n false } }
  if bit d.portFenced n then { d1 with portFenced := setBit d1.portFenced n false }.ptpInit n else d1

/-- Half `n` runs again with the other half's copies of the ownership; its port resumes unless it is fenced on its own
(R377, R448). -/
def Dev.resumeHalf (d : Dev) (n : Nat) : Dev :=
  if !bit d.halfFenced n then d
  else
    let d1 := { d with
      halfFenced := setBit d.halfFenced n false,
      own := d.own.map fun e => (e.1, if n = 0 then { e.2 with west := e.2.east } else { e.2 with east := e.2.west }) }
    if bit d1.flt.portMarks n then d1 else d1.resumePort n

/-- What an accepted CLEAR does to the target itself (R448). -/
def Dev.clearTarget (d : Dev) (t : Nat) : Dev :=
  if t < 384 then d.unfence t
  else if t < 0x1010 then d.modSt (t - 0x1000) fun s => { s with fenced := false, link := { s.link with fault := false, initDue := true } }
  else if t < 0x2100 then d.resumePort (t - 0x2000)
  else if t < 0x3000 then d.resumeHalf (t - 0x2100)
  else { d with queues := d.queues.map fun e => (e.1, if e.2.fault then { e.2 with faultCleared := true } else e.2) }

/-- CLEAR of a target: STANDING 0, latches empty, counts restarted, a clear record, and the unit back in service
(R448). -/
def Dev.clear (d : Dev) (t : Nat) : Dev :=
  let d1 := { d with flt := { d.flt with stand := SMap.del d.flt.stand t, times := d.flt.times.filter fun e => !pairOn t e.1 } }
  (((d1.emptyLatch t).remember (d1.markRec t 0x20)).clearTarget t).fltEval

/-- FENCE of a target, as a severe event of its manual-fence source (R448). -/
def Dev.fenceTarget (d : Dev) (t : Nat) : Dev :=
  if t < 384 then d.faultNow 0x1838 t 0
  else if t < 0x1010 then d.faultNow 0x2104 (t - 0x1000) 0
  else if t < 0x2100 then d.faultNow 0x341F (t - 0x2000) 0
  else d.faultNow 0x3316 (t - 0x2100) 0

/-- STICKY: FAULT_STICKY cleared and STICKY_SINCE stamped (R436, R448). -/
def Dev.clearSticky (d : Dev) : Dev :=
  let d1 := [D.CH_ANY, D.ST_ANY, D.DEV_ANY, D.CH_SEVERE, D.ST_SEVERE, D.DEV_SEVERE].foldl (fun (e : Dev) o => e.wr o 0 0) d
  d1.wr D.STICKY_SINCE 0 d.now2

/-- ERASE_HISTORY: the ring erased, with one boot record in it (R448). -/
def Dev.eraseHistory (d : Dev) : Dev :=
  let h := d.hist
  { d with hist := { h with ring := [(0, ⟨h.seq, true, d.markRec 0 0x40⟩)], next := 1, seq := (h.seq + 1) % 2 ^ 32 } }

/-- A write of CLR_CMD: carried out or refused, the status kept in the party's CLR_RESULT (R445–R448). -/
def Dev.clrCmd (d : Dev) (p : Party) (v : Int) : Dev :=
  let t := d.rdpN p D.CLR_TARGET 0
  let x := d.writeStatus p D.CLR_CMD 0 0 v (d.clrCheck p t v.toNat)
  let d1 := d.attempt x fun e =>
    match v.toNat with
    | 1 => e.clear t
    | 2 => e.fenceTarget t
    | 3 => e.clearSticky
    | _ => e.eraseHistory
  if x = .noAnswer then d1 else d1.wrp p D.CLR_RESULT 0 x.code

end Sys2Proof.Machine
end

