-- ==== Sys2Proof/Machine/Faults.lean ====
section
/-! DEFINITION. Meanings of the commands of the fault collector, its history and fault injection (R424–R453, R536). -/

namespace Sys2Proof.Machine

open Sys2Proof

/-- FAULT_REPORT (R429). -/
def execFaultReport (r : Report) (s : State) : Host.Outcome State Fault Refusal := .next (s.on fun d => d.faultReport r)

/-- FAULT_CLEAR_CMD (R448). -/
def execFaultClearCmd (p : Party) (s : State) : Host.Outcome State Fault Refusal := .next (s.on fun d => d.clrCmd p 1)

/-- FAULT_FENCE_CMD (R448). -/
def execFaultFenceCmd (p : Party) (s : State) : Host.Outcome State Fault Refusal := .next (s.on fun d => d.clrCmd p 2)

/-- FAULT_STICKY_CMD (R448). -/
def execFaultStickyCmd (p : Party) (s : State) : Host.Outcome State Fault Refusal := .next (s.on fun d => d.clrCmd p 3)

/-- ERASE_HISTORY_CMD (R448). -/
def execEraseHistoryCmd (p : Party) (s : State) : Host.Outcome State Fault Refusal := .next (s.on fun d => d.clrCmd p 4)

/-! ### The persistent history (R442, R443) -/

/-- The bytes of a record (R441). -/
def recBytes (rseq : Nat) (r : FRec) : List Byte :=
  let b := natLe 4 rseq ++ natLe 2 r.code ++ natLe 2 r.unit ++ natLe 1 r.flags ++ natLe 1 r.count ++ natLe 2 r.boot ++
    natLe 8 (r.time / 1000000000) ++ natLe 4 (r.time % 1000000000) ++ natLe 4 r.detail
  b ++ natLe 4 (crc32 b)

/-- Slots of the ring, and of one of its sectors (R442). -/
def ringSlots : Nat := 4224

/-- A record programmed into the next slot; a sector is erased before the ring enters it (R442). -/
def History.put (h : History) (good : Bool) (r : FRec) : History :=
  let ring := if h.next % 128 = 0 then h.ring.filter fun e => e.1 / 128 ≠ h.next / 128 else h.ring
  { h with ring := SMap.ins ring h.next ⟨h.seq, good, r⟩, next := (h.next + 1) % ringSlots }

/-- The oldest pending record has been programmed and read back: `ok` where the read-back matched; a failed one is
programmed again once (R431, R443, R449, R451). -/
def Dev.program (d : Dev) (ok : Bool) : Dev :=
  match d.flt.pending with
  | [] => d
  | r :: rest =>
    let h := d.hist
    if h.stopped || !d.pwr.flash || d.rd D.DS_STATE 0 ≠ 1 || d.halfFenced = 3 then d
    else
      let sec := d.clk.fcore
      let d0 := d.reachCc (h.used - 63 * sec)
      let inj := d0.injArmed .history 0
      let d1 := if inj then d0.injHit (!ok) else d0
      let good := ok && !inj
      let done := fun (e : Dev) (g : History) =>
        { e with
          flt := { e.flt with pending := rest },
          hist := { g with seq := (g.seq + 1) % 2 ^ 32, tried := none, used := max g.used e.clk.cc + sec } }
      match h.tried with
      | none =>
        if good then done d1 (h.put true r)
        else { d1 with hist := { h.put false r with tried := some (inj, !ok) } }
      | some (i0, r0) =>
        let code := injCode (inj || i0) (r0 || !ok)
        if good then (done d1 (h.put true r)).reportInj 0x3735 0 0 code
        else
          { d1 with hist := { h.put false r with tried := none, stopped := true } }.reportInj 0x3736 0 0 code

/-- HISTORY_PROGRAM (R443). -/
def execHistoryProgram (ok : Bool) (s : State) : Host.Outcome State Fault Refusal := .next (s.on fun d => d.program ok)

/-- Good slots of the ring. -/
def History.records (h : History) : List HSlot := (h.ring.map Prod.snd).filter fun x => x.good

/-- H_NEWEST (R444). -/
def History.newest (h : History) : Nat := if h.records = [] then 0 else (h.seq + 2 ^ 32 - 1) % 2 ^ 32

/-- The record of a sequence number, if it is held (R444). -/
def History.find (h : History) (n : Nat) : Option HSlot := h.records.find? fun x => x.rseq == n

/-- H_STATE (R444, R476). -/
def Dev.histState (d : Dev) : Nat := if !d.pwr.flash then 3 else if d.hist.stopped then 2 else 0

/-! ### Fault injection (R450) -/

/-- A write of INJ_MODE arms the selected checker and instance, or none (R450). -/
def Dev.injArm (d : Dev) (p : Party) (v : Int) : Dev :=
  d.write p D.FI_INJ_MODE 0 0 v .ok fun e =>
    let e1 := { e with flt := { e.flt with armed := (e.rdN D.FI_INJ_CHECKER 0, e.rdN D.FI_INJ_INSTANCE 0) } }
    (e1.wr D.FI_INJ_MODE 0 v).wr D.FI_INJ_STATE 0 (if v = 1 then 1 else if v = 2 then 3 else 0)

/-- FAULT_INJECT_ARM (R450). -/
def execFaultInjectArm (p : Party) (v : Int) (s : State) : Host.Outcome State Fault Refusal :=
  .next (s.on fun d => d.injArm p v)

/-! ### FAULT_CLASS_CFG (R430) -/

/-- The source the party's FC_SEL names. -/
def Dev.fcSource (d : Dev) (p : Party) : Option FSource := fSource (d.rdpN p D.FC_SEL 0)

/-- A field of FAULT_CLASS_CFG as it reads (R430). -/
def Dev.fcRead (d : Dev) (p : Party) (sub : Nat) : Int :=
  match d.fcSource p with
  | none => 0
  | some s =>
    let c := d.srcCfg s
    match sub with
    | 1 => d.rdp p D.FC_SEL 0
    | 2 => c.n
    | 3 => c.win
    | 4 => c.react
    | 5 => b2n c.hist
    | _ => b2n s.nFixed

/-- Whether a field takes a value (R430). -/
def FSource.takes (s : FSource) (sub : Nat) (v : Int) : Bool :=
  match sub with
  | 2 => !s.nFixed && decide (v ≤ 15)
  | 4 => !s.rFixed && decide (v ≤ 2) && !(v == 1 && !s.kind.fences)
  | _ => true

/-- A field with a value. -/
def SrcCfg.put (c : SrcCfg) (sub : Nat) (v : Int) : SrcCfg :=
  match sub with
  | 2 => { c with n := v.toNat }
  | 3 => { c with win := v.toNat }
  | 4 => { c with react := v.toNat }
  | 5 => { c with hist := v ≠ 0 }
  | _ => c

/-- A write of FAULT_CLASS_CFG subindex 1 to 5; `o` is its row (R430). -/
def Dev.fcWrite (d : Dev) (p : Party) (o : Obj) (v : Int) : Dev :=
  if o.sub = 1 then
    d.write p o 0 0 v (Status.value.when (fSource v.toNat).isNone) fun e => e.wrp p D.FC_SEL 0 v
  else
    match d.fcSource p with
    | none => d.write p o 0 0 v .value id
    | some s =>
      d.write p o 0 0 v (Status.value.when (!s.takes o.sub v)) fun e =>
        { e with flt := { e.flt with cfg := SMap.ins e.flt.cfg s.code ((e.srcCfg s).put o.sub v) } }

end Sys2Proof.Machine
end

