-- ==== Sys2Proof/Machine/Ranges.lean ====
section
/-! DEFINITION. Meanings of the commands of ranges, range links, STAGE_EN, ILK_N and hearths (R89–R134). -/

namespace Sys2Proof.Machine

open Sys2Proof

/-! ### Requests (R93–R97, R122) -/

/-- The answer to a write of I_RANGE or V_RANGE (R93, R122). -/
def Dev.rangeCheck (d : Dev) (u : Nat) (volt : Bool) (j : Int) : Status :=
  let s := (d.ch u).ctl.st
  firstOf [Status.value.when (decide (j < 0) || decide ((d.ranges u volt : Int) ≤ j)),
    Status.state.when (s == .calibrating || s == .fenced),
    Status.state.when (decide ((((d.ch u).rng volt).now : Int) ≠ j) && d.linkFault u)]

/-- A write of I_RANGE or V_RANGE (R93, R122). -/
def Dev.rangeWrite (d : Dev) (p : Party) (u : Nat) (volt : Bool) (j : Int) : Dev :=
  d.write p (oRange volt) u 0 j (d.rangeCheck u volt j) fun e => (e.rangeAsk u volt j.toNat false false).followLeader u

/-- RANGE_WRITE (R93, R122). -/
def execRangeWrite (p : Party) (u : Nat) (volt : Bool) (r : Int) (s : State) : Host.Outcome State Fault Refusal :=
  .next (s.on fun d => d.rangeWrite p u volt r)

/-- Whether autorange of one variable may make a request (R95, R122). -/
def Dev.arFree (d : Dev) (u : Nat) (volt : Bool) : Bool :=
  let r := (d.ch u).rng volt
  d.arRuns u volt && r.ph == .steady && r.deferred.isNone && r.held.isNone && !d.linkFault u &&
    (u < 256 || (d.active u).all fun l => ((d.ch l).rng volt).ph == .steady)

/-- AUTORANGE_UP: the up-condition of one variable is met (R95). -/
def Dev.autoUp (d : Dev) (u : Nat) (volt : Bool) : Dev :=
  let r := (d.ch u).rng volt
  if !d.arFree u volt || r.up < d.rdN C.AR_UP_COUNT u then d
  else if r.now + 1 < d.ranges u volt then (d.rangeAsk u volt (r.now + 1) true true).followLeader u
  else
    let d1 := d.modRng u volt fun r => { r with overTop := true }
    if r.overTop then d1 else d1.report 0x1310 u 0

/-- AUTORANGE_UP (R95, R97, R122). -/
def execAutorangeUp (u : Nat) (volt : Bool) (s : State) : Host.Outcome State Fault Refusal :=
  .next (s.on fun d => d.autoUp u volt)

/-- Whether a down-request of one variable to range `j` may be made: the reading stays below 0.90 of the new full scale,
and in Source and Hold nothing would saturate (R95). -/
def Dev.downOk (d : Dev) (u : Nat) (volt : Bool) (j : Nat) : Bool :=
  let c := d.ch u
  let y : Int := if volt then c.meas.yV else c.meas.yI
  let fits := ((Rat2.mk y.natAbs (2 ^ 31)).mul (d.fsNow u volt)).lt ((Rat2.mk 9 10).mul (d.fs u volt j))
  fits && (!c.ctl.st.reg || !d.wouldSaturate u volt j)

/-- AUTORANGE_DOWN: the reading has stayed below AR_DOWN for AR_DWELL (R95). -/
def Dev.autoDown (d : Dev) (u : Nat) (volt : Bool) : Dev :=
  match ((d.ch u).rng volt).below with
  | none => d
  | some t =>
    if !d.arFree u volt then d
    else
      let d1 := d.reach (t + d.rdN C.AR_DWELL u)
      let r := (d1.ch u).rng volt
      if 0 < r.now && d1.downOk u volt (r.now - 1) then (d1.rangeAsk u volt (r.now - 1) true false).followLeader u
      else d1.modRng u volt fun r => { r with below := some d1.clk.tick }

/-- AUTORANGE_DOWN (R95, R97, R122). -/
def execAutorangeDown (u : Nat) (volt : Bool) (s : State) : Host.Outcome State Fault Refusal :=
  .next (s.on fun d => d.autoDown u volt)

/-! ### Transfers (R98–R107) -/

/-- RANGE_LINK_TRANSFER_START: LOAD starts, with INIT where one is wanted (R99, R100, R102, R104). -/
def Dev.transferStart (d : Dev) (k : Nat) : Dev :=
  let l := (d.st k).link
  if !d.linkUp k || l.xfer.isSome || !(l.initDue || d.wantsTransfer k) then d
  else (d.reachCc l.lastCc).startTransfer k l.initDue

/-- RANGE_LINK_TRANSFER_START (R99). -/
def execRangeLinkTransferStart (k : Nat) (s : State) : Host.Outcome State Fault Refusal :=
  .next (s.on fun d => d.transferStart k)

/-- REFRESH_TRANSFER: REFRESH cv have gone by without a transfer (R102). -/
def Dev.refresh (d : Dev) (k : Nat) : Dev :=
  let l := (d.st k).link
  let n := d.rdN S.REFRESH k
  if !d.linkUp k || l.xfer.isSome || n = 0 then d
  else ((d.reach (l.lastTick + n)).reachCc l.lastCc).startTransfer k l.initDue

/-- REFRESH_TRANSFER (R102). -/
def execRefreshTransfer (k : Nat) (s : State) : Host.Outcome State Fault Refusal :=
  .next (s.on fun d => d.refresh k)

/-- T_MAKE has elapsed: the change waits for its BREAK transfer (R104). -/
def Dev.makeElapsed (d : Dev) (u : Nat) (volt : Bool) : Dev :=
  match ((d.ch u).rng volt).ph with
  | .made old since => (d.reach (since + d.rdN C.T_MAKE u)).modRng u volt fun r => { r with ph := .breakDue old }
  | _ => d

/-- T_MAKE_ELAPSED (R104). -/
def execTMakeElapsed (u : Nat) (volt : Bool) (s : State) : Host.Outcome State Fault Refusal :=
  .next (s.on fun d => d.makeElapsed u volt)

/-- The channels of stove `k`. -/
def stoveChannels (k : Nat) : List Nat := (List.range 16).map fun p => 16 * k + p

/-- The top-level hearths that hold a channel of stove `k`, each once. -/
def Dev.topsOf (d : Dev) (k : Nat) : List Nat := (((stoveChannels k).map d.topOf).filter fun h => decide (256 ≤ h)).eraseDups

/-- One variable of a channel at a transfer that has latched: MAKE, BREAK, or the range in force alone (R104–R106, R168,
R257). -/
def Dev.latchVar (d : Dev) (u : Nat) (volt init : Bool) : Dev :=
  match ((d.ch u).rng volt).ph with
  | .making _ => if init then d else ((d.makeLatch u volt).rotRestart u volt).maskCut u volt
  | .breaking _ => if init then d else d.modRng u volt Rng.breakLatch
  | .steady => d.modRng u volt fun r => { r with both := false }
  | _ => d

/-- Engines of the channels of stove `k` and of their hearths that waited for a MAKE latch go on in the next slot
(R97, R203). -/
def Dev.enginesGo (d : Dev) (k : Nat) : Dev :=
  (stoveChannels k ++ d.topsOf k).foldl (fun e u => (e.forceGo u (e.clk.tick + 1)).pointGo u (e.clk.tick + 1)) d

/-- RL_LAT of a transfer: patterns, counts and every change at its point (R99, R103–R106, R122, R123, R408, R414). -/
def Dev.latch (d : Dev) (k : Nat) (x : Transfer) : Dev :=
  let d1 := d.modSt k fun s => { s with link := { s.link with
    xfer := none, lastCc := x.due + 80, lastTick := d.clk.tick,
    latched := (List.range 16).foldl (fun m p => SMap.set 0 m p (x.pats.getD p 0)) s.link.latched } }
  let d2 := d1.wrap S.TRANSFERS k 32 1
  let d3 := if x.again then
      (d2.raise (srcSt k 16)).reportInj 0x2209 k x.bad (injCode x.wasInj x.wasReal)
    else d2
  let us := stoveChannels k
  let d4 := us.foldl (fun e u => (e.latchVar u false x.init).latchVar u true x.init) d3
  let making := fun (r : Rng) => match r.ph with | .making _ => true | _ => false
  let made := if x.init then [] else us.filter fun u => making (d.ch u).rngI || making (d.ch u).rngV
  let d5 := (d4.topsOf k).foldl (fun e h => e.followMade made h) d4
  us.foldl (fun e u => (e.crRanged u).crSettled u) (d5.enginesGo k)

/-- One variable at a lasting failure: a change in Making or Breaking returns to Steady, reported (R104, R426). -/
def Dev.failVar (d : Dev) (u : Nat) (volt : Bool) : Dev :=
  match ((d.ch u).rng volt).ph with
  | .making _ => (d.modRng u volt fun r => { r with ph := .steady, held := none }).report 0x1311 u 0
  | .breaking _ => (d.modRng u volt fun r => { r with ph := .steady, held := none, both := true }).report 0x1312 u 0
  | _ => d

/-- Whether a change of channel `u` is in Making. -/
def Dev.isMaking (d : Dev) (u : Nat) : Bool :=
  let f := fun (r : Rng) => match r.ph with | .making _ => true | _ => false
  f (d.ch u).rngI || f (d.ch u).rngV

/-- Whether leaf `l` has latched or may still latch range `j` of one variable (R203). -/
def Dev.mayReach (d : Dev) (l : Nat) (volt : Bool) (j : Nat) : Bool :=
  let r := (d.ch l).rng volt
  decide ((d.ch l).ctl.st ≠ .fenced) &&
  (r.now == j || match r.ph with | .pending i => i == j | .making i => i == j | _ => false)

/-- An engine that waits for a range that no active leaf reaches any more stops with error 14 (R203). -/
def Dev.engineLost (d : Dev) (u : Nat) : Dev :=
  let q := d.sq u
  let ws := q.words
  let rs := match q.step with
    | .force => d.wantRanges u (bits (wd ws 1) 15 8) (bits (wd ws 1) 23 16)
    | .pointMake => d.wantRanges u (bits (wd ws 3) 7 0) (bits (wd ws 3) 15 8)
    | _ => []
  if q.st.active && rs.any fun r => !(d.active u).any fun l => d.mayReach l r.1 r.2 then d.seqError u 14 else d

/-- The second mismatch of a transfer: no latch, LINK_FAULT, changes returned to Steady, leaves fenced whose change
failed before its MAKE latch, engines and a calibration run that waited for it stopped (R99, R104, R123, R203, R412). -/
def Dev.linkLasting (d : Dev) (k : Nat) (x : Transfer) : Dev :=
  let us := stoveChannels k
  let out := if x.init then [] else us.filter fun u => d.isMaking u && d.isMember u && (d.active (d.topOf u)).contains u
  let d1 := d.modSt k fun s => { s with link := { s.link with xfer := none, fault := true, lastCc := x.due } }
  let d2 := (d1.raise (srcSt k 17)).reportInj 0x220A k x.bad (injCode x.wasInj x.wasReal)
  let d3 := if x.init then d2 else us.foldl (fun e u => (e.failVar u false).failVar u true) d2
  let d4 := out.foldl (fun e u => e.fenceCh u) d3
  let d5 := (us ++ d4.topsOf k).foldl (fun e u => e.engineLost u) d4
  let d6 := us.foldl (fun e u => if e.rd D.CR_STATE 0 = 1 then e.crFailOn u 7 else e) d5
  us.foldl (fun e u => e.crSettled u) d6

/-- The LOAD comparison of the first attempt (R99). -/
def Dev.loadCheck (d : Dev) (k load : Nat) (x : Transfer) : Dev :=
  let was := frameBits ((List.range 16).map fun p => SMap.get 0 (d.st k).link.latched p)
  if x.again || x.init || load = was then d else (d.bump S.UPSETS k 32 1).report 0x2208 k 0

/-- A CHECK that does not match: the repeat, or a lasting failure (R99, R103, R431, R451, R452). -/
def Dev.checkFailed (d : Dev) (k : Nat) (x : Transfer) (bad : Nat) (inj real : Bool) : Dev :=
  let d1 := d.wr S.FIRST_BAD_BIT k bad
  let y := { x with bad := bad, wasInj := x.wasInj || inj, wasReal := x.wasReal || real }
  if x.again then d1.linkLasting k y
  else (d1.bump S.RETRIES k 32 1).modSt k fun s =>
    { s with link := { s.link with xfer := some { y with again := true, due := x.due + 10240 } } }

/-- The end of CHECK: bit `s − 1` of `load` and `ret` is what came back for stage `s` (R98, R99). -/
def Dev.checkDone (d : Dev) (k load ret : Nat) : Dev :=
  match (d.st k).link.xfer with
  | none => d
  | some x =>
    let d1 := (d.reachCc x.due).loadCheck k load x
    let want := frameBits x.pats
    let real : Bool := ret ≠ want
    let inj := d1.injArmed .rangeLink k
    let d2 := if inj then d1.injHit real else d1
    if inj || real then d2.checkFailed k x (firstBadBit want ret) inj real else d2.latch k x

/-- RANGE_LINK_CHECK_DONE (R99, R104, R105). -/
def execRangeLinkCheckDone (k : Nat) (load ret : BitVec 128) (s : State) : Host.Outcome State Fault Refusal :=
  .next (s.on fun d => d.checkDone k load.toNat ret.toNat)

/-! ### STAGE_EN and ILK_N (R109–R114) -/

/-- The answer to a write of SE_CMD (R110, R501). -/
def Dev.seCheck (d : Dev) (k : Nat) (v : Int) : Status :=
  if v = 0 then .ok
  else firstOf [Status.state.when (!(d.st k).ilk || (d.st k).fenced),
    Status.busy.when ((stoveChannels k).any d.ftHolds)]

/-- A write of SE_CMD; where it drops the pin, regulating channels go Off or, as members, are fenced (R38, R109, R110,
R126). -/
def Dev.seWrite (d : Dev) (p : Party) (k : Nat) (v : Int) : Dev :=
  d.write p S.SE_CMD k 0 v (d.seCheck k v) fun e =>
    let e1 := e.wr S.SE_CMD k v
    if e.sePin k && !e1.sePin k then e1.dropStove k else e1

/-- SE_CMD_WRITE (R109, R110). -/
def execSeCmdWrite (p : Party) (k : Nat) (v : Int) (s : State) : Host.Outcome State Fault Refusal :=
  .next (s.on fun d => d.seWrite p k v)

/-- The pin has been low from outside for 1 µs while the device drove it high (R111). -/
def Dev.seMismatch (d : Dev) (k : Nat) : Dev :=
  if !d.sePin k then d
  else
    let d1 := (d.modSt k fun s => { s with extLow := true }).dropStove k
    (d1.raise (srcSt k 15)).report 0x2101 k 0

/-- STAGE_EN_MISMATCH (R111). -/
def execStageEnMismatch (k : Nat) (s : State) : Host.Outcome State Fault Refusal :=
  .next (s.on fun d => d.seMismatch k)

/-- ILK_N of stove `k` has been low for 200 ns (R110, R112–R114). -/
def Dev.ilkLow (d : Dev) (k : Nat) : Dev :=
  if !(d.st k).ilk then d
  else
    let d1 := (((d.modSt k fun s => { s with ilk := false }).wr S.SE_CMD k 0).bump S.ILK_EVENTS k 32 1).wr S.ILK_LAST k d.now2
    (((d1.dropStove k).raise (srcSt k 14)).report 0x2100 k 0).ftAbortIf (d.ftOnStove k)

/-- ILK_N_LOW (R112, R113). -/
def execIlkNLow (k : Nat) (s : State) : Host.Outcome State Fault Refusal := .next (s.on fun d => d.ilkLow k)

/-- ILK_N_HIGH: nothing restarts by itself (R113). -/
def execIlkNHigh (k : Nat) (s : State) : Host.Outcome State Fault Refusal :=
  .next (s.on fun d => d.modSt k fun s => { s with ilk := true })

/-! ### Members (R116–R118, R133, R371, R388) -/

/-- The hearths that contain unit `u`, the nearest first (R117). -/
def Dev.containers (d : Dev) (u : Nat) : List Nat :=
  let p1 := d.parentOf u
  let p2 := if p1 = 0 then 0 else d.parentOf p1
  let p3 := if p2 = 0 then 0 else d.parentOf p2
  [p1, p2, p3].filter (· ≠ 0)

/-- The device with entry `e` of hearth `h` as it would stand after the edit. -/
def Dev.edited (d : Dev) (h e : Nat) (v : Int) : Dev :=
  { d.wri C.MEMBER h e v with parent := if v = 0xFFFF then d.parent else SMap.set 0 d.parent v.toNat h }

/-- The answer to a write of a MEMBER entry (R117, R371). -/
def Dev.memberCheck (d : Dev) (p : Party) (h e : Nat) (v : Int) : Status :=
  let n := v.toNat
  let add := decide (v ≠ 0xFFFF)
  let tops := h :: d.containers h
  let range := decide (v < 0) || (add && decide (383 < v))
  let d1 := d.edited h e v
  let same : Bool := d.rdi C.MEMBER h e = v
  let bad := add && !range && (tops.contains n || (decide (256 ≤ n) && decide (d.levelOf n = 0)) ||
    (!same && (tops.any fun t => decide (4 < d1.levelOf t) || decide (64 < (d1.leaves t).length))))
  let held := add && !range && !same && (d.isMember n || decide ((d.ch n).ctl.st ≠ .off))
  let notMine := add && !range && !same && p ≠ .console && d.owner n ≠ 0 && decide (d.owner n ≠ ownerCode p)
  firstOf [Status.value.when (range || bad), Status.state.when (held || tops.tail.any fun t => decide ((d.ch t).ctl.st ≠ .off)),
    Status.notOwner.when notMine]

/-- What a hearth copies to a leaf that joins it: the coefficients of R133. -/
def hearthCoefs : List Obj := objectsC.filter leafCopied

/-- The hearth's copies of coefficients and feed-forward entries written to leaf `l` (R133, R388). -/
def Dev.copyCoefs (d : Dev) (h l : Nat) : Dev :=
  (hearthCoefs.foldl (fun e o => (List.range o.nsubs).foldl (fun e i => e.wri o l i (d.rdi o h i)) e) d).modCtl l
    fun c => { c with ff := (d.ch h).ctl.ff }

/-- A unit released from its hearth, without an owner and with a new epoch (R118, R371). -/
def Dev.leaveHearth (d : Dev) (m : Nat) : Dev :=
  { d with parent := SMap.set 0 d.parent m 0 }.setOwn m 0 (d.epoch m + 1)

/-- The active set of a hearth after an edit while it is Off: every leaf that is not fenced (R119, R126). -/
def Dev.freshSet (d : Dev) (h : Nat) : Dev :=
  d.modHe h fun x =>
    { x with out := (d.leaves h).filter fun u => (d.ch u).ctl.st == .fenced, leaving := [], joining := [], due := none }

/-- The unit in entry `e` of hearth `h`, if any, leaves the hearth (R118). -/
def Dev.emptyEntry (d : Dev) (h e : Nat) : Dev :=
  match d.member h e with
  | some m => d.leaveHearth m
  | none => d

/-- Unit `n` a member of hearth `h`, without an owner of its own (R118, R371). -/
def Dev.joinHearth (d : Dev) (h n : Nat) : Dev :=
  { d with parent := SMap.set 0 d.parent n h }.setOwn n 0 (d.epoch n + 1)

/-- An entry written: the unit there leaves; the named one joins without an owner of its own, its engine stopped and its
leaves taking the hearth's coefficients (R118, R197, R371, R388). -/
def Dev.setMember (d : Dev) (h e : Nat) (v : Int) : Dev :=
  let d1 := (d.emptyEntry h e).wri C.MEMBER h e v
  let d2 := if v = 0xFFFF then d1
    else
      let d3 := d1.joinHearth h v.toNat
      (d3.leaves v.toNat).foldl (fun e l => e.copyCoefs (d3.topOf h) l) (d3.seqStop v.toNat)
  d2.freshSet (d2.topOf h)

/-- A write of a MEMBER entry (R116–R118). -/
def Dev.memberWrite (d : Dev) (p : Party) (h e : Nat) (v : Int) : Dev :=
  d.write p C.MEMBER h e v (d.memberCheck p h e v) fun x => if x.rdi C.MEMBER h e = v then x else x.setMember h e v

/-- MEMBER_WRITE (R116, R117). -/
def execMemberWrite (p : Party) (h e : Nat) (v : Int) (s : State) : Host.Outcome State Fault Refusal :=
  .next (s.on fun d => d.memberWrite p h e v)

/-- HEARTH_RESHARE: the slots of cv f+3 come (R128). -/
def execHearthReshare (h : Nat) (s : State) : Host.Outcome State Fault Refusal :=
  .next (s.on fun d =>
    match (d.he h).due with
    | none => d
    | some t => ((d.reach t).reshare h).followLeader h)

end Sys2Proof.Machine
end

