-- ==== Sys2Proof/Machine/Measure.lean ====
section
/-! DEFINITION. Meanings of the commands of apertures, accumulators, lock-in, the auxiliary scan, comparators and the test
DAC (R138–R158, R175–R186). -/

namespace Sys2Proof.Machine

open Sys2Proof

/-! ### Converters' low-power mode (R138) -/

/-- A write of LP_MODE: the converters settle for 4,096 cv; a hearth has none (R138, R150, R154, R387). -/
def Dev.lpWrite (d : Dev) (p : Party) (u : Nat) (v : Int) : Dev :=
  d.write p C.LP_MODE u 0 v (Status.state.when (decide (256 ≤ u))) fun e =>
    (e.wr C.LP_MODE u v).modMeas u fun m => { m.missing with settle := some (e.clk.tick + 4096), stale := true }

/-- LP_MODE_WRITE (R138). -/
def execLpModeWrite (p : Party) (u : Nat) (v : Int) (s : State) : Host.Outcome State Fault Refusal :=
  .next (s.on fun d => d.lpWrite p u v)

/-- LP_SETTLE_END: 4,096 cv have gone by; STALE stays until the first sample (R138, R150). -/
def execLpSettleEnd (u : Nat) (s : State) : Host.Outcome State Fault Refusal :=
  .next (s.on fun d =>
    match (d.ch u).meas.settle with
    | none => d
    | some t => (d.reach t).modMeas u fun m => { m with settle := none })

/-! ### Apertures (R145–R149) -/

/-- APERTURE_END: a complete aperture is published (R149). -/
def execApertureEnd (u : Nat) (s : State) : Host.Outcome State Fault Refusal :=
  .next (s.on fun d =>
    match (d.ch u).meas.ap with
    | some a => if a.full then d.endAperture u else d
    | none => d)

/-- An event of LINE_FLUE reaches the integrator of unit `u`: it counts in the running aperture, whose last one ends it
and starts the next; with none running it lets one start (R147). -/
def Dev.lineEvent (d : Dev) (u : Nat) : Dev :=
  d.modMeas u fun m =>
    match m.ap with
    | some a =>
      if a.mode ≠ 1 then m
      else if a.ended then { m with lineSeen := true }
      else if a.len ≤ 1 then { m with ap := some { a with ended := true, len := 0 }, lineSeen := true }
      else { m with ap := some { a with len := a.len - 1, lineDue := d.clk.tick + d.rdN C.LINE_TIMEOUT u } }
    | none => { m with lineSeen := true }

/-- An aperture closed at LINE_TIMEOUT with NO_LINE; the next one waits for the next event (R147, R426). -/
def Dev.closeNoLine (d : Dev) (u : Nat) (a : Ap) : Dev :=
  let b := { a with flagV := a.flagV ||| 2 ^ mNoLine, flagI := a.flagI ||| 2 ^ mNoLine, ended := true }
  ((d.modMeas u fun m => { m with ap := some b, lineSeen := false, lineWait := none, stepNext := none }).endAperture u).report
    0x120F u 0

/-- LINE_TIMEOUT: no event has come for LINE_TIMEOUT cv, in the running aperture or in the wait of a step's for its first
event (R147, R209). -/
def Dev.lineTimeout (d : Dev) (u : Nat) : Dev :=
  let m := (d.ch u).meas
  match m.ap with
  | some a => if a.mode = 1 && !a.ended then (d.reach a.lineDue).closeNoLine u a else d
  | none =>
    match m.lineWait, m.stepNext with
    | some t, some (1, len, _) =>
      let d1 := d.reach (t + d.rdN C.LINE_TIMEOUT u)
      d1.closeNoLine u (d1.newAp u d1.clk.tick .step 1 len)
    | _, _ => d

/-- LINE_TIMEOUT (R147). -/
def execLineTimeout (u : Nat) (s : State) : Host.Outcome State Fault Refusal := .next (s.on fun d => d.lineTimeout u)

/-- AP_RUN_WRITE (R145, R146, R148). -/
def execApRunWrite (p : Party) (u : Nat) (v : Int) (s : State) : Host.Outcome State Fault Refusal :=
  .next (s.on fun d => d.write p C.AP_RUN u 0 v .ok fun e => e.setApRun u v)

/-! ### Accumulators (R152–R154) -/

/-- The accumulator of charge or of energy of unit `u` changed by `f`. -/
def Dev.modAcc (d : Dev) (u : Nat) (energy : Bool) (f : Accu → Accu) : Dev :=
  d.modMeas u fun m => if energy then { m with e := f m.e } else { m with q := f m.q }

/-- A write of ACC_CMD: it takes effect at the next sample edge (R152, R154). -/
def Dev.accCmd (d : Dev) (p : Party) (u : Nat) (energy : Bool) (v : Int) : Dev :=
  d.write p (if energy then C.E_ACC_CMD else C.Q_ACC_CMD) u 0 v .ok fun e =>
    let n := e.clk.tick + 1
    e.modAcc u energy fun a => { a with cmds := a.cmds ++ [(n, v.toNat, e.stamp 2 n)] }

/-- ACC_RUN (R152). -/
def execAccRun (p : Party) (u : Nat) (energy : Bool) (s : State) : Host.Outcome State Fault Refusal :=
  .next (s.on fun d => d.accCmd p u energy 1)

/-- ACC_STOP (R152). -/
def execAccStop (p : Party) (u : Nat) (energy : Bool) (s : State) : Host.Outcome State Fault Refusal :=
  .next (s.on fun d => d.accCmd p u energy 2)

/-- ACC_CLEAR (R152, R154). -/
def execAccClear (p : Party) (u : Nat) (energy : Bool) (s : State) : Host.Outcome State Fault Refusal :=
  .next (s.on fun d => d.accCmd p u energy 3)

/-- ACC_CLEAR_AND_RUN (R152, R154). -/
def execAccClearAndRun (p : Party) (u : Nat) (energy : Bool) (s : State) : Host.Outcome State Fault Refusal :=
  .next (s.on fun d => d.accCmd p u energy 4)

/-! ### Lock-in (R156, R157) -/

/-- LOCKIN_SETTLE_END: the settle turns have gone by and the window integrates (R156). -/
def execLockinSettleEnd (u : Nat) (s : State) : Host.Outcome State Fault Refusal :=
  .next (s.on fun d =>
    if (d.ch u).meas.li.ph = .settled then d.modMeas u fun m => { m with li := { m.li with ph := .integrating } } else d)

/-- LOCKIN_WINDOW_END: a complete window is published (R157). -/
def execLockinWindowEnd (u : Nat) (s : State) : Host.Outcome State Fault Refusal := .next (s.on fun d => d.liPublish u)

/-! ### The auxiliary scan (R175–R182) -/

/-- The aux clock in cv (R179). -/
def Dev.auxClock (d : Dev) (k : Nat) : Nat := if d.flag S.AUX_LP k then 16 else 4

/-- Duration of an entry in cv: sampling time and 16 aux clocks (R176, R179). -/
def Dev.auxTime (d : Dev) (k entry : Nat) : Nat := (bits entry 19 10 + 1 + 16) * d.auxClock k

/-- The tick of the second aux clock edge after now, at which a start or a request begins (R179). -/
def Dev.auxEdge (d : Dev) (k : Nat) : Nat := (d.clk.tick / d.auxClock k + 2) * d.auxClock k

/-- TB2 time in ns of the converter edge with tick `t`, now or ahead. -/
def Dev.timeOf2 (d : Dev) (t : Nat) : Nat := ((d.tbase 2).acc + d.clk.ccFor (t - d.clk.tick) * (d.tbase 2).inc) / 2 ^ 44

/-- The auxiliary scan of stove `k` changed by `f`. -/
def Dev.modAux (d : Dev) (k : Nat) (f : Aux → Aux) : Dev := d.modSt k fun s => { s with aux := f s.aux }

/-- AUX_SEQ's first AUX_LEN entries (R180). -/
def Dev.auxCopy (d : Dev) (k : Nat) : List Nat := (List.range (d.rdN S.AUX_LEN k)).map fun i => d.rdiN S.AUX_SEQ k i

/-- The sequence of stove `k` begun with its first entry at tick `t` (R179, R180). -/
def Dev.auxBegin (d : Dev) (k t : Nat) (c : Cause) : Dev :=
  let cp := d.auxCopy k
  d.modAux k fun a =>
    { a with ph := .seq 1, copy := cp, start := d.timeOf2 t, due := t + d.auxTime k (cp.headD 0), gen := c, heldStart := false }

/-- A start of the sequence (R181). -/
def Dev.auxStart (d : Dev) (k : Nat) (c : Cause) : Dev :=
  if !d.pdOn (256 + k) then d
  else match (d.st k).aux.ph with
    | .idle => d.auxBegin k (d.auxEdge k) c
    | .urgent => d.modAux k fun a => { a with heldStart := true, gen := c }
    | _ => (d.bump S.OVERRUNS k 32 1).report 0x2520 k 0

/-- AUX_START (R177, R181). -/
def execAuxStart (p : Party) (k : Nat) (s : State) : Host.Outcome State Fault Refusal :=
  .next (s.on fun d => d.write p S.AUX_START k 0 1 .ok fun e => e.auxStart k {})

/-- An urgent request (R182). -/
def Dev.auxUrgent (d : Dev) (k : Nat) (c : Cause) : Dev :=
  if !d.pdOn (256 + k) then d
  else
    let e := d.rdN S.URG_ENTRY k
    let go := fun (x : AuxPhase) => d.modAux k fun a =>
      { a with ph := x, urg := e, due := d.auxEdge k + d.auxTime k e, genU := c }
    match (d.st k).aux.ph with
    | .idle => go .urgent
    | .seq n => go (.urgentIn n)
    | _ => (d.bump S.URG_OVERRUNS k 32 1).report 0x2521 k 0

/-- URG_CMD (R177, R182). -/
def execUrgCmd (p : Party) (k : Nat) (s : State) : Host.Outcome State Fault Refusal :=
  .next (s.on fun d => d.write p S.URG_CMD k 0 1 .ok fun e => e.auxUrgent k {})

/-- The input voltage of a code of an entry: code × 3 V / (G × 16,384) (R175, R178). -/
def auxVolts (entry code : Nat) : Rat2 := ⟨(3 * code : Nat), 2 ^ bits entry 9 7 * 16384⟩

/-- The value an entry's code gives as F32 bits; for die temperature, whose conversion the spec does not give, a free
value (R178, log 8). -/
def Dev.auxValue (d : Dev) (entry code : Nat) : Dev × Int :=
  if entry % 32 = 18 then (d.drawn, d.freeBits 32) else (d, (auxVolts entry code).f32)

/-- The checks of a reading of REF, VDDA/2 and die temperature (R427). -/
def Dev.auxWatch (d : Dev) (k entry code : Nat) (v : Int) : Dev :=
  let x := auxVolts entry code
  let off := fun (nom tol : Rat2) => (nom.mul tol).lt (x.sub nom).abs
  match entry % 32 with
  | 16 => if off ⟨5, 2⟩ ⟨1, 100⟩ then d.report 0x2522 k 0 else d
  | 17 => if off ⟨33, 20⟩ ⟨1, 20⟩ then d.report 0x2523 k 0 else d
  | 18 => if !f32Bad v && (Rat2.ofInt maxJunction).lt (f32Val v) then d.report 0x2524 k 0 else d
  | _ => d

/-- The end of the entry in progress of the sequence: its result, then the next entry, or the sequence's end and its
repeat (R178–R181). -/
def Dev.auxEnd (d : Dev) (k code : Nat) : Dev :=
  match (d.st k).aux.ph with
  | .seq n =>
    let a := (d.st k).aux
    let entry := a.copy.getD (n - 1) 0
    let c := min code 16383
    let d0 := d.reach a.due
    let r := d0.auxValue entry c
    let d1 := ((r.1.wri S.AUX_CODE k (n - 1) c).wri S.AUX_VALUE k (n - 1) r.2).auxWatch k entry c r.2
    let d2 := d1.modAux k fun a => { a with upd := SMap.ins a.upd n d1.clk.cc }
    if n < a.copy.length then
      d2.modAux k fun a => { a with ph := .seq (n + 1), due := a.due + d2.auxTime k (a.copy.getD n 0) }
    else
      let d3 := ((d2.wrap S.SEQ_COUNT k 32 1).wr S.SEQ_START k a.start).raiseC (srcSt k 12) a.gen
      if d3.flag S.REPEAT k then d3.auxBegin k a.due {} else d3.modAux k fun a => { a with ph := .idle }
  | _ => d

/-- AUX_ENTRY_END (R179, R181). -/
def execAuxEntryEnd (k code : Nat) (s : State) : Host.Outcome State Fault Refusal := .next (s.on fun d => d.auxEnd k code)

/-- The end of the urgent conversion (R178, R181, R182). -/
def Dev.urgEnd (d : Dev) (k code : Nat) : Dev :=
  let a := (d.st k).aux
  let result := fun (d : Dev) =>
    let c := min code 16383
    let r := d.auxValue a.urg c
    (((r.1.wr S.URG_CODE k c).wr S.URG_VALUE k r.2).auxWatch k a.urg c r.2).raiseC (srcSt k 13) a.genU
  match a.ph with
  | .urgent =>
    let d1 := result (d.reach a.due)
    if a.heldStart then d1.auxBegin k a.due a.gen else d1.modAux k fun a => { a with ph := .idle }
  | .urgentIn n =>
    (result (d.reach a.due)).modAux k fun x => { x with ph := .seq n, due := a.due + d.auxTime k (a.copy.getD (n - 1) 0) }
  | _ => d

/-- URG_ENTRY_END (R182). -/
def execUrgEntryEnd (k code : Nat) (s : State) : Host.Outcome State Fault Refusal := .next (s.on fun d => d.urgEnd k code)

/-- AUX_STATE (R177). -/
def Dev.auxState (d : Dev) (k : Nat) : Nat :=
  match (d.st k).aux.ph with
  | .idle => 0
  | .seq _ => 1
  | .urgent => 2
  | .urgentIn _ => 3

/-- The scan of a stove whose domain comes on: its defaults run (R177). -/
def Dev.auxOn (d : Dev) (k : Nat) : Dev := (d.modAux k fun a => { a with ph := .idle, heldStart := false }).auxStart k {}

/-! ### Comparators (R183) -/

/-- The output of comparator `c` of stove `k` becomes `high`: its event in the direction set, and a start of the sequence
where CMP_START enables it (R181, R183). -/
def Dev.cmpCross (d : Dev) (k c : Nat) (high : Bool) : Dev :=
  let cfg := d.rdiN S.CMP k c
  if 11 < c || !bit cfg 15 || bit (d.st k).cmp c = high || !d.pdOn (256 + k) then d
  else
    let d1 := d.modSt k fun s => { s with cmp := setBit s.cmp c high }
    if high = bit cfg 14 then d1
    else
      let d2 := d1.raise (srcSt k c)
      if bit (d2.rdN S.CMP_START k) c then d2.auxStart k {} else d2

/-- COMPARATOR_CROSSING (R183). -/
def execComparatorCrossing (k c : Nat) (high : Bool) (s : State) : Host.Outcome State Fault Refusal :=
  .next (s.on fun d => d.cmpCross k c high)

/-! ### The test DAC (R184–R186) -/

/-- The answer to a write of TD_ROUTE (R186). -/
def Dev.tdCheck (d : Dev) (p : Party) (k : Nat) (v : Int) : Status :=
  let u := 16 * k + d.rdN S.TD_CHANNEL k
  let s := (d.ch u).ctl.st
  if v = 0 then .ok
  else firstOf [Status.state.when (!(s == .off || s == .monitor) || d.isMember u),
    Status.notOwner.when (p ≠ .console && d.owner u ≠ 0 && decide (d.owner u ≠ ownerCode p))]

/-- A write of TD_ROUTE (R184–R186). -/
def Dev.tdWrite (d : Dev) (p : Party) (k : Nat) (v : Int) : Dev :=
  d.write p S.TD_ROUTE k 0 v (d.tdCheck p k v) fun e => e.wr S.TD_ROUTE k v

/-- TEST_DAC_ROUTE_WRITE (R186). -/
def execTestDacRouteWrite (p : Party) (k : Nat) (v : Int) (s : State) : Host.Outcome State Fault Refusal :=
  .next (s.on fun d => d.tdWrite p k v)

end Sys2Proof.Machine
end

