-- ==== Sys2Proof/Machine/Power.lean ====
section
/-! DEFINITION. Supplies, die temperatures, clocks and the switches of power domains (R454–R467). -/

namespace Sys2Proof.Machine

open Sys2Proof

/-! ### Supplies and temperatures (R456, R458, R463) -/

/-- SUPPLY_LOW thresholds of the main rails in µV, in the order of RAIL_V (R454). -/
def railLow : List Nat := [713000, 713000, 855000, 1140000, 1710000, 3135000, 1710000, 3135000]

/-- A rail's reading of `uv` µV: RAIL_V, the lowest since reset, SM_LOW, and SUPPLY_LOW below the threshold of a main rail
(R428, R458). -/
def Dev.supplySample (d : Dev) (rail : Nat) (uv : Int) : Dev :=
  if 9 ≤ rail || (d.held && rail ≠ 8) then d
  else
    let v := toF32 uv 1000000
    let low := match railLow[rail]? with
      | some t => decide (uv < t)
      | none => false
    let lower := match d.pwr.mins.look rail with
      | some m => (f32Val v).lt (f32Val m)
      | none => true
    let d1 := (d.wri D.RAIL_V 0 rail v).wr D.SM_LOW 0 (setBit (d.rdN D.SM_LOW 0) rail low : Nat)
    let d2 := if lower then { d1 with pwr := { d1.pwr with mins := SMap.ins d1.pwr.mins rail v } } else d1
    if low then d2.report (0x3100 + rail) 0 0 else d2

/-- SUPPLY_SAMPLE (R458). -/
def execSupplySample (rail : Nat) (uv : Int) (s : State) : Host.Outcome State Fault Refusal :=
  .next (s.on fun d => d.supplySample rail uv)

/-- A die's sensor read as `mc` thousandths of a degree: die 0 the logic die, 1 to 4 the mixed-signal dies; the highest
reading drives DIE_WARM and DIE_HOT (R428, R463). -/
def Dev.dieSample (d : Dev) (die : Nat) (mc : Int) : Dev :=
  if 5 ≤ die || d.held then d
  else
    let v := toF32 mc 1000
    let d1 := if die = 0 then d.wr D.DT_LOGIC 0 v else d.wri D.DT_MS 0 (die - 1) v
    let top := match d1.pwr.dieMax with
      | some m => max m mc
      | none => mc
    let d2 := { d1 with pwr := { d1.pwr with dieMax := some top } }.wr D.DT_MAX 0 (toF32 top 1000)
    let readings := d2.rd D.DT_LOGIC 0 :: (List.range 4).map fun i => d2.rdi D.DT_MS 0 i
    if readings.any fun r => (f32Val v).lt (f32Val r) then d2
    else if maxJunction * 1000 < mc then d2.report 0x320D 0 0
    else if (maxJunction - 10) * 1000 ≤ mc then d2.report 0x320C 0 0
    else d2

/-- DIE_TEMP_SAMPLE (R463). -/
def execDieTempSample (die : Nat) (mc : Int) (s : State) : Host.Outcome State Fault Refusal :=
  .next (s.on fun d => d.dieSample die mc)

/-! ### Clocks (R428, R460–R462) -/

/-- PLL_LOCK_LOSS: a PLL that is locked loses lock by itself (R428, R447). -/
def execPllLockLoss (core : Bool) (s : State) : Host.Outcome State Fault Refusal :=
  .next (s.on fun d =>
    if !d.flag (if core then D.CORE_LOCK else D.CV_LOCK) 0 then d
    else if core then ({ d with pwr := { d.pwr with coreOut := true } }.wr D.CORE_LOCK 0 0).report 0x3208 0 0
    else ({ d with pwr := { d.pwr with cvOut := true } }.wr D.CV_LOCK 0 0).report 0x3209 0 0)

/-- PLL_LOCK_REGAINED (R447). -/
def execPllLockRegained (core : Bool) (s : State) : Host.Outcome State Fault Refusal :=
  .next (s.on fun d =>
    if core then
      if d.pwr.coreOut then { d with pwr := { d.pwr with coreOut := false } }.wr D.CORE_LOCK 0 1 else d
    else if d.pwr.cvOut then { d with pwr := { d.pwr with cvOut := false } }.wr D.CV_LOCK 0 1 else d)

/-- CVCLK_LOSS: no edge for 1 µs, outside a relock (R428, R461). -/
def execCvclkLoss (s : State) : Host.Outcome State Fault Refusal :=
  .next (s.on fun d =>
    if d.pwr.cvLost || d.pwr.relock.isSome then d
    else
      let d1 := { d with pwr := { d.pwr with cvLost := true } }
      if d.held then d1 else d1.report 0x320A 0 0)

/-- CVCLK_RESTORED (R447). -/
def execCvclkRestored (s : State) : Host.Outcome State Fault Refusal :=
  .next (s.on fun d => { d with pwr := { d.pwr with cvLost := false } })

/-- REFCLK_LOSS: REF_LOST, and the port's source (R428, R462). -/
def execRefclkLoss (port : Nat) (s : State) : Host.Outcome State Fault Refusal :=
  .next (s.on fun d =>
    if 2 ≤ port || bit (d.rdN D.REF_LOST 0) port then d
    else
      let d1 := d.wr D.REF_LOST 0 (setBit (d.rdN D.REF_LOST 0) port true : Nat)
      if d.held then d1 else d1.report 0x320E port 0)

/-- PORT_REFERENCE_RESTORED (R447, R462). -/
def execPortReferenceRestored (port : Nat) (s : State) : Host.Outcome State Fault Refusal :=
  .next (s.on fun d => if 2 ≤ port then d else d.wr D.REF_LOST 0 (setBit (d.rdN D.REF_LOST 0) port false : Nat))

/-- SYSCLK_MEASURE: SYSCLK_OUT outside 500 ppm, or with both references lost outside 3 % (R428, R462). -/
def execSysclkMeasure (hz : Nat) (s : State) : Host.Outcome State Fault Refusal :=
  .next (s.on fun d =>
    let d1 := d.wr D.SYSCLK_MEAS 0 (toF64 hz 1)
    let lim : Int := if d.rd D.REF_LOST 0 = 3 then 3000000 else 50000
    let off : Int := (hz : Int) - 100000000
    if !d.held && (decide (lim < off) || decide (off < -lim)) then d1.report 0x320B 0 0 else d1)

/-- f_cv of a setting of the converter PLL, in Hz (R461). -/
def Clock.fcvOf (c : Clock) (mul div : Nat) : Nat := c.cvclk * mul / max 1 div

/-- Whether every channel is Off, engines and acquisition units rest, and no SELFCAL run is in progress (R461). -/
def Dev.cvRest (d : Dev) : Bool :=
  (d.chans.all fun e => e.2.ctl.st == .off) && d.enginesRest && decide (d.rd D.SC_STATUS 0 ≠ 1)

/-- A write of CV_MUL or CV_DIV: the PLL relocks, the converters deliver nothing, results are stale, SYNC_STATUS returns
to 0 (R461). -/
def Dev.cvWrite (d : Dev) (p : Party) (o : Obj) (v : Int) : Dev :=
  let mul := if o.sub = 3 then v.toNat else d.rdN D.CV_MUL 0
  let div := if o.sub = 4 then v.toNat else d.rdN D.CV_DIV 0
  let out := decide (d.clk.cvclk * mul < 20000000 * div) || decide (62500000 * div < d.clk.cvclk * mul)
  d.write p o 0 0 v (firstOf [Status.value.when out, Status.state.when (!d.cvRest)]) fun e =>
    let e1 := (e.wr o 0 v).wr D.CV_LOCK 0 0
    let e2 := e1.chans.map Prod.fst |>.foldl (fun x u => x.modMeas u fun m => { m with stale := true }) e1
    { e2 with
      pwr := { e2.pwr with relock := some (e2.clk.cc + 200000), cvOut := false },
      cvs := { e2.cvs with status := 0, due := none } }

/-- CV_CLOCK_WRITE (R461). -/
def execCvClockWrite (p : Party) (sub : Nat) (v : Int) (s : State) : Host.Outcome State Fault Refusal :=
  .next (s.on fun d => d.cvWrite p (if sub = 3 then D.CV_MUL else D.CV_DIV) v)

/-- CV_PLL_RELOCK: the converter PLL has relocked at the f_cv set (R461). -/
def execCvPllRelock (s : State) : Host.Outcome State Fault Refusal :=
  .next (s.on fun d =>
    match d.pwr.relock with
    | none => d
    | some t =>
      let d1 := (d.reachCc t).wr D.CV_LOCK 0 1
      { d1 with
        pwr := { d1.pwr with relock := none },
        clk := { d1.clk with fcv := d1.clk.fcvOf (d1.rdN D.CV_MUL 0) (d1.rdN D.CV_DIV 0) } })

/-! ### Power domains (R27, R464–R467) -/

/-- Whether the write of a domain is the writer's: the owner of a channel, a port for its own lanes and logic, either
port otherwise, the console any (R466). -/
def Dev.pdLevel (d : Dev) (p : Party) (n : Nat) : Status :=
  if n < 256 then d.unitLevel p n
  else if n < 272 then .ok
  else if n < 280 then Status.level.when (p.port?.any fun x => x ≠ (n - 272) / 4)
  else if n < 282 then Status.level.when (p.port?.any fun x => x ≠ n - 280)
  else .ok

/-- Whether an enabled queue lies in bank group `g` (R263). -/
def Dev.bankUsed (d : Dev) (g : Nat) : Bool :=
  let lo := 0x400000 * g
  let at_ := fun (q : Queue) => q.enable && decide (q.base < lo + 0x400000) && decide (lo < q.base + 2 ^ q.sizeLog2)
  (List.range 512).any (fun q => at_ (d.qu q)) || d.queues.any fun e => at_ e.2

/-- Whether a segment is active (R190, R466). -/
def Dev.anySegActive (d : Dev) : Bool := (List.range 4096).any fun g => decide (d.segActive g ≠ 0)

/-- The rules of state a switch of domain `n` must meet (R27, R263, R466). -/
def Dev.pdState (d : Dev) (n : Nat) (on : Bool) : Bool :=
  if n < 256 then if on then d.pdOn (256 + stoveOf n) else (d.ch n).ctl.st == .off
  else if n < 272 then on || (List.range 16).all fun i => !d.pdOn (16 * (n - 256) + i)
  else if n < 280 then
    let port := (n - 272) / 4
    let mode := d.rdN D.PORT_MODE port
    if on then d.pdOn (280 + port) else !bit (lanesOf mode) ((n - 272) % 4)
  else if n < 282 then
    on || (decide (d.rd D.PORT_MODE (n - 280) = 0) && (List.range 4).all fun i => !d.pdOn (272 + 4 * (n - 280) + i))
  else if n < 298 then on || !d.bankUsed (n - 282)
  else if n = 298 then on || !d.anySegActive
  else true

/-- The answer to a PD_CMD of domain `n` (R466). -/
def Dev.pdCheck (d : Dev) (p : Party) (n : Nat) (on : Bool) : Status :=
  if 299 ≤ n then .value
  else firstOf [d.pdLevel p n, Status.state.when (d.pdOn n != on && !d.pdState n on)]

/-- Core cycles a switch takes (R467). -/
def Dev.pdTime (d : Dev) (n : Nat) (on : Bool) : Nat :=
  if !on then 10000
  else if n < 256 then d.clk.ccFor 5000
  else if n < 272 then 20000
  else if n < 282 then 1000000
  else 10000

/-- A switch put behind those that wait; the first starts at once (R467). -/
def Dev.pdQueue (d : Dev) (n : Nat) (on : Bool) : Dev :=
  let w := d.pwr
  if w.switches = [] then
    { d with pwr := { w with switches := [(n, on)], switchDue := d.clk.cc + d.pdTime n on } }
  else { d with pwr := { w with switches := w.switches ++ [(n, on)] } }

/-- A write of PD_CMD (R465–R467). -/
def Dev.pdCmd (d : Dev) (p : Party) (v : Int) : Dev :=
  let n := v.toNat % 512
  let on := bit v.toNat 15
  d.write p D.PD_CMD 0 0 v (d.pdCheck p n on) fun e =>
    if e.pdOn n == on && e.pwr.switches == [] then e else e.pdQueue n on

/-- PD_CMD_ON (R466). -/
def execPdCmdOn (p : Party) (domain : Nat) (s : State) : Host.Outcome State Fault Refusal :=
  .next (s.on fun d => d.pdCmd p (domain % 512 + 0x8000 : Nat))

/-- PD_CMD_OFF (R466). -/
def execPdCmdOff (p : Party) (domain : Nat) (s : State) : Host.Outcome State Fault Refusal :=
  .next (s.on fun d => d.pdCmd p (domain % 512 : Nat))

/-- What going off does to a domain's contents (R107, R110, R263, R466, R467). -/
def Dev.pdLeave (d : Dev) (n : Nat) : Dev :=
  let d1 := { d with pd := setBit d.pd n false }
  if n < 256 then d1.modMeas n fun m => { m.missing with stale := true }
  else if n < 272 then
    let k := n - 256
    ((((d1.wr S.SE_CMD k 0).dropStove k).modAux k fun a => { a with ph := .idle, heldStart := false }).stopLink k)
  else if n < 282 then d1
  else if n < 298 then
    let lo := 0x400000 * (n - 282)
    { d1 with qmem := d1.qmem.filter fun e => decide (e.1 < lo) || decide (lo + 0x400000 ≤ e.1) }
  else d1

/-- What coming on does, entries of an image that wait for it apart: a stove's INIT transfer and aux scan, a channel's
results stale until its first sample, segments at their defaults (R102, R466, R467). -/
def Dev.pdEnter (d : Dev) (n : Nat) : Dev :=
  if n < 256 then d.modMeas n fun m => { m with stale := true }
  else if n < 272 then
    (d.modSt (n - 256) fun s => { s with link := { s.link with initDue := true } }).auxOn (n - 256)
  else if n = 298 then { d with segs := [] }
  else d

end Sys2Proof.Machine
end

