-- ==== Sys2Proof/Machine/Image.lean ====
section
/-! DEFINITION. Dictionary images in flash: their layout, their banks, and the IMAGE object (R477, R478, R481). -/

namespace Sys2Proof.Machine

open Sys2Proof

/-! ### Layout (R477, R478) -/

/-- Flash address of image bank `b`: 0 A, 1 B (R477). -/
def imgBase (b : Nat) : Nat := 0x100000 * b

/-- Bytes of a bank before its commit record: the most that LENGTH may be (R478). -/
def imgRoom : Nat := 0xFF000

/-- `n` bytes of the flash from address `a`. -/
def State.flashAt (s : State) (a n : Nat) : List Byte := Mem.bytes 0xFF s.flash a n

/-- The entries that bytes spell, and whether they end exactly at the end of the bytes; `fuel` bounds their number
(R478, R481). -/
def entriesOf : Nat → List Byte → List Entry × Bool
  | _, [] => ([], true)
  | 0, _ => ([], false)
  | fuel + 1, bs =>
    let len := leNat ((bs.drop 4).take 4)
    let whole := 8 + (len + 3) / 4 * 4
    if bs.length < 8 || decide (bs.length < whole) then ([], false)
    else
      let e : Entry := ⟨leNat (bs.take 2), leNat ((bs.drop 2).take 1), bit (leNat ((bs.drop 3).take 1)) 0, (bs.drop 8).take len⟩
      let r := entriesOf fuel (bs.drop whole)
      (e :: r.1, r.2)

/-- The 16 bytes of a bank's header (R478). -/
def imgHeader (seq entries : Nat) : List Byte := natLe 2 2 ++ natLe 2 0 ++ natLe 4 seq ++ natLe 4 entries ++ natLe 4 0

/-- A commit record (R418): MAGIC, SEQ, LENGTH, the CRC of the bytes it closes, SERIAL, and its own CRC. -/
def commitBytes (magic seq length crc serial : Nat) : List Byte :=
  let body := natLe 4 magic ++ natLe 4 seq ++ natLe 4 length ++ natLe 4 crc ++ natLe 8 serial ++ natLe 4 0
  body ++ natLe 4 (crc32 body)

/-- MAGIC of an image bank (R478). -/
def imgMagic : Nat := 0x5ABE1A6E

/-- SEQ and LENGTH of image bank `b` where its MAGIC, COMMIT_CRC, LENGTH and DATA_CRC all check (R418, R478). -/
def State.imgCommit (s : State) (b : Nat) : Option (Nat × Nat) :=
  let c := s.flashAt (imgBase b + imgRoom) 32
  let len := leNat ((c.drop 8).take 4)
  if leNat (c.take 4) = imgMagic && crc32 (c.take 28) == leNat (c.drop 28) && decide (16 ≤ len) && decide (len ≤ imgRoom) &&
      crc32 (s.flashAt (imgBase b) len) == leNat ((c.drop 12).take 4)
  then some (leNat ((c.drop 4).take 4), len) else none

/-- The SEQ of a bank's header, where it has one (R420, R478). -/
def State.imgHeaderSeq (s : State) (b : Nat) : Option Nat :=
  let h := s.flashAt (imgBase b) 8
  if leNat (h.take 2) = 2 then some (leNat (h.drop 4)) else none

/-! ### IMAGE (R481) -/

/-- The image bank not in force: 0 A, 1 B. -/
def Dev.imgOther (d : Dev) : Nat := if d.rd D.IMG_BANK_NOW 0 = 1 then 1 else 0

/-- Whether an erase or a commit runs. -/
def Dev.imgRuns (d : Dev) : Bool := d.rd D.IMG_STATE 0 = 1 || d.rd D.IMG_STATE 0 = 3

/-- The answer to IMG_CMD: BUSY while a calibration store or the last command runs, STATE without a flash; COMMIT closes
what a writable bank holds (R476, R481). -/
def Dev.imgCmdCheck (d : Dev) (v : Int) : Status :=
  firstOf [Status.busy.when (d.storing.isSome || d.imgRuns),
    Status.state.when (!d.pwr.flash || (v == 2 && d.rd D.IMG_STATE 0 ≠ 2))]

/-- Bytes programmed from a flash address: a programmed bit stays programmed (log 14). -/
def programBytes (m : Mem) (a : Nat) (bs : List Byte) : Mem :=
  Mem.write 0xFF m a ((Mem.bytes 0xFF m a bs.length).zipWith (fun x y => x &&& y) bs)

/-- ERASE begins: what the bank holds is open until it ends (R481). -/
def State.imgErase (s : State) : State :=
  s.on fun d => { (d.wr D.IMG_STATE 0 1) with imgTorn := d.imgTorn ||| 2 ^ d.imgOther }

/-- COMMIT: entries that do not end at IMG_LEN fail; else header and commit record are programmed (R481). -/
def State.imgCommitCmd (s : State) : State :=
  let d := s.dev
  let b := d.imgOther
  let len := d.rdN D.IMG_LEN 0
  let r := entriesOf len (if len ≤ imgRoom - 16 then s.flashAt (imgBase b + 16) len else [])
  if imgRoom - 16 < len || !r.2 then s.on fun d => d.wr D.IMG_STATE 0 5
  else
    let seq := (d.rdN D.IMG_SEQ_NOW 0 + 1) % 2 ^ 32
    let f1 := programBytes s.flash (imgBase b) (imgHeader seq r.1.length)
    let crc := crc32 (Mem.bytes 0xFF f1 (imgBase b) (16 + len))
    let f2 := programBytes f1 (imgBase b + imgRoom) (commitBytes imgMagic seq (16 + len) crc Config.serial)
    { s with flash := f2, dev := { (d.wr D.IMG_STATE 0 3) with imgTorn := d.imgTorn ||| 2 ^ b } }

/-- A write of IMG_CMD (R481). -/
def State.imgCmd (s : State) (p : Party) (v : Int) : State :=
  match s.dev.writeStatus p D.IMG_CMD 0 0 v (s.dev.imgCmdCheck v) with
  | .ok => (if v = 1 then s.imgErase else s.imgCommitCmd).on fun d => d.say .ok
  | x => s.on fun d => d.say x

/-- IMG_CMD_ERASE (R481). -/
def execImgCmdErase (p : Party) (s : State) : Host.Outcome State Fault Refusal := .next (s.imgCmd p 1)

/-- IMG_CMD_COMMIT (R481). -/
def execImgCmdCommit (p : Party) (s : State) : Host.Outcome State Fault Refusal := .next (s.imgCmd p 2)

/-- The answer to a write of IMG_DATA (R481). -/
def Dev.imgDataCheck (d : Dev) (p : Party) (n : Nat) : Status :=
  match d.gate p 0x2003 true with
  | .ok =>
    firstOf [d.levelOk p D.IMG_DATA 0,
      Status.length.when (decide (n < 4) || decide (4096 < n) || n % 4 ≠ 0 || decide (imgRoom - 16 < d.rdN D.IMG_OFS 0 + n)),
      Status.state.when (d.rd D.IMG_STATE 0 ≠ 2)]
  | x => x

/-- Bytes programmed at IMG_OFS, which advances past them; bytes that do not read back fail the image (R431, R481,
log 14). -/
def State.imgProgram (s : State) (bs : List Byte) : State :=
  let d := s.dev
  let ofs := d.rdN D.IMG_OFS 0
  let a := imgBase d.imgOther + 16 + ofs
  let f := programBytes s.flash a bs
  let same : Bool := Mem.bytes 0xFF f a bs.length = bs
  let r := if same then d.flashCompare else (d.report 0x3731 0 0, true)
  let d1 := r.1.wr D.IMG_OFS 0 (ofs + bs.length : Nat)
  { s with flash := f, dev := if r.2 then d1.wr D.IMG_STATE 0 5 else d1 }

/-- A write of IMG_DATA. -/
def State.imgData (s : State) (p : Party) (bs : List Byte) : State :=
  match s.dev.imgDataCheck p bs.length with
  | .ok => (s.imgProgram bs).on fun d => d.say .ok
  | x => s.on fun d => d.say x

/-- IMG_DATA_WRITE (R481). -/
def execImgDataWrite (p : Party) (bytes : List Byte) (s : State) : Host.Outcome State Fault Refusal :=
  .next (s.imgData p bytes)

/-- The end of an erase or a commit, `ok` where the flash took it; a bank that took it is no longer open (R431, R481). -/
def State.imgDone (s : State) (ok : Bool) : State :=
  let d := s.dev
  let b := d.imgOther
  if !d.imgRuns then s
  else
    let r := if d.rd D.IMG_STATE 0 = 3 then d.flashCompare else (d, false)
    if !ok || r.2 then { s with dev := r.1.wr D.IMG_STATE 0 5 }
    else
      let closed := { r.1 with imgTorn := setBit r.1.imgTorn b false }
      if d.rd D.IMG_STATE 0 = 1 then
        { s with
          flash := s.flash.filter fun e => decide (e.1 < imgBase b) || decide (imgBase b + 0x100000 ≤ e.1),
          dev := closed.wr D.IMG_STATE 0 2 }
      else { s with dev := closed.wr D.IMG_STATE 0 4 }

end Sys2Proof.Machine
end

