-- ==== Sys2Proof/Machine/Reset.lean ====
section
/-! DEFINITION. Resets and their levels, the start of a boot, watchdogs and traps (R438, R468–R475, R528). -/

namespace Sys2Proof.Machine

open Sys2Proof

/-! ### The console's scope (R490, R497) -/

/-- CON_SCOPE: 0 island, 1 service only, 2 booting, 3 device (R488, R490). -/
def Dev.scope (d : Dev) : Nat :=
  if d.held then 0
  else match d.rdN D.DS_STATE 0 with
    | 0 => 2
    | 1 => 3
    | _ => 1

/-- A line the console sends: a command has been received, so that no rate is measured any more (R487, R489). -/
def Dev.line (d : Dev) (x : Line) : Dev := { d with isl := { d.isl with lines := x :: d.isl.lines, measuring := false } }

/-- Whether a source of the test bus may be selected in a scope (R496). -/
def tpScope (code scope : Nat) : Bool :=
  decide (code < 4) || (decide (8 ≤ code) && decide (code < 16) && scope != 0) ||
    (decide (16 ≤ code) && decide (code < 19) && scope == 3)

/-- The scope as the device's state has it: a console command or a selection of the test bus that it shuts out ends
(R490, R497). -/
def Dev.rescope (d : Dev) : Dev :=
  let n := d.scope
  let d1 := match d.isl.ct with
    | some c =>
      if n = 0 then d
      else
        let e := { d with isl := { d.isl with ct := none } }.wr D.CT_RESULT 0 7
        if c.cont then e.line (.status .state) else e
    | none => d
  let off := fun (e : Dev) (o : Obj) => if tpScope (e.rdN o 0) n then e else e.wr o 0 0
  let ended := if n = d1.isl.scope then [] else d1.isl.waits
  let d1' := ended.foldl (fun (e : Dev) _ => e.line (.status .state))
    { d1 with isl := { d1.isl with waits := if n = d1.isl.scope then d1.isl.waits else [] } }
  let d2 := off (off d1' D.TPA_SRC) D.TPB_SRC
  { d2 with isl := { d2.isl with scope := n } }

/-- CONSOLE_SCOPE_CHANGE (R490). -/
def execConsoleScopeChange (s : State) : Host.Outcome State Fault Refusal := .next (s.on Dev.rescope)

/-! ### What a reset keeps (R469) -/

/-- Levels of a reset that runs a boot, deepest first (R468). -/
inductive Level where
  | power
  | full
  | core
  deriving DecidableEq, Repr

/-- Whether the value at a place of the dictionary outlasts a reset of a level: what the island holds, the power-on count,
lost references; at a core reset latches, sticky record, the calibration store and its state, and the straps
(R422, R435, R436, R444, R459, R469, R488). -/
def keepKey (l : Level) (key : Nat) : Bool :=
  let ix := key / 256 % 65536
  let sub := key % 256
  let off := ix % 0x40
  let chan := decide (0x4000 ≤ ix) && decide (ix < 0xA000)
  let island := ix == 0x2603 || ix == 0x2600 || ix == 0x2602 || (ix == 0x2304 && sub == 8) || (ix == 0x2022 && sub == 8)
  let kept := (chan && (off == 0x2C || off == 0x29 || (off == 0x28 && (sub == 7 || sub == 8)))) ||
    (decide (0x3000 ≤ ix) && decide (ix < 0x3100) && ix % 16 == 0x0A) || (ix == 0x2300 && decide (sub ≤ 4)) ||
    ix == 0x2301 || ix == 0x2400 || (ix == 0x2002 && sub == 3)
  island || (l = .core && kept)

/-- What a channel keeps through a core reset: its factors in force and pending (R422). -/
def Chan.keepFactors (c : Chan) : Chan :=
  let m := c.meas
  { meas := { fact := m.fact, pend := m.pend, pendAt := m.pendAt, pendT := m.pendT, factOld := m.factOld,
              factFrom := m.factFrom, polled := m.polled, tempLost := m.tempLost, tempOut := m.tempOut } }

/-- What a stove keeps through a reset: the levels at its pins, and the role map short of a power-on (R164, R469). -/
def Stove.keep (s : Stove) (l : Level) : Stove :=
  if l = .power then { ilk := s.ilk, extLow := s.extLow }
  else { ilk := s.ilk, extLow := s.extLow, conv := s.conv, subst := s.subst, noSpare := s.noSpare }

/-- A time base with its servo Off (R314). -/
def TimeBase.servoStop (t : TimeBase) : TimeBase := { t with servo := .off, oPrev := none, good := 0, suspend := false }

/-- The time bases after a reset: TB2 restarts only at power-on, the others at a full reset too (R314, R469). -/
def Dev.keepTb (d : Dev) (l : Level) : SMap TimeBase :=
  match l with
  | .power => []
  | .full => (d.tb.filter fun e => e.1 == 2).map fun e => (e.1, { e.2 with inc := 2 ^ 44 })
  | .core => d.tb.map fun e => (e.1, e.2.servoStop)

/-- Ownership after a reset: no owner, and every epoch one higher but for a power-on (R372). -/
def Dev.keepOwn (d : Dev) (l : Level) : SMap Own :=
  if l = .power then []
  else (List.range 384).map fun u =>
    let r := d.ownRec u
    let c : OwnCopy := ⟨0, (1 + max r.west.epoch r.east.epoch) % 2 ^ 16⟩
    (u, ⟨c, c, false⟩)

/-- The collector after a reset: pending records stay; a core reset keeps latches' severities and counts (R436, R469). -/
def Collector.keep (c : Collector) (l : Level) : Collector :=
  if l = .core then { stand := c.stand, times := c.times, pending := c.pending } else { pending := c.pending }

/-- A calibration store cut short: what the bank not in force then holds is left open (R419, R420, R470). -/
def Dev.cutStore (d : Dev) : Dev :=
  if d.storing.isNone then d
  else
    let b : Bank := match d.freeBits 2 with
      | 0 => .erased
      | 1 => .torn none
      | _ => .torn (some d.nextSeq)
    { d.drawn with storing := none }.setOther b

/-- The device after a reset of a level, before its boot (R469, R472). -/
def Dev.wiped (d : Dev) (l : Level) : Dev :=
  let c := l == .core
  { ({} : Dev) with
    dict := d.dict.filter fun e => keepKey l e.1,
    clk := { d.clk with
      cv := if c then d.clk.cv else 0, fcv := d.clk.cvclk, loadTick := if c then d.clk.loadTick else 0,
      loadDelta := if c then d.clk.loadDelta else 0 },
    tb := d.keepTb l,
    chans := if c then d.chans.map fun e => (e.1, e.2.keepFactors) else [],
    stoves := d.stoves.map fun e => (e.1, e.2.keep l),
    segs := if c then d.segs else [],
    shadow := if c then d.shadow else [],
    bankA := d.bankA, bankB := d.bankB, imgTorn := d.imgTorn, own := d.keepOwn l, ownChecked := d.clk.cc, qmem := d.qmem,
    held := l == .power, pd := if c then d.pd else 0, reports := if c then d.reports else [],
    evi := d.evi, fltLow := true, flt := d.flt.keep l, hist := { d.hist with tried := none, stopped := false },
    pwr := { vsrv := d.pwr.vsrv, rails := d.pwr.rails, railsAt := d.pwr.railsAt, vddio := d.pwr.vddio,
             flash := d.pwr.flash, cvLost := d.pwr.cvLost },
    boot := { balls := d.boot.balls, next := d.boot.next, rstLow := d.boot.rstLow, jtag := d.boot.jtag,
              zero := d.clk.cc, from_ := d.clk.cc, phaseAt := d.clk.cc, core := c, powerOn := l == .power },
    isl := d.isl, free := d.free, status := d.status, value := d.value }

/-- Phase 0 ends, unless a pin or a JTAG instruction still holds the device: straps sampled but after a core reset,
BOOT_NEXT used but after a power-on, phase 1 begins (R471, R475, R482, R484). -/
def Dev.beginBoot (d : Dev) : Dev :=
  if d.held || d.boot.rstLow || d.boot.jtag then d
  else
    let d1 := if d.boot.core then d else d.wr D.STRAPS 0 d.boot.balls
    let strap := min 3 (d1.rdN D.STRAPS 0)
    let useNext := !d.boot.powerOn && decide (d.boot.next ≤ 3)
    let three := decide (3 ≤ d.rd D.WD_RESETS 0)
    let mode := if three then 3 else if useNext then d.boot.next else strap
    let src := if three then 2 else if useNext then 1 else 0
    let d2 := ((d1.wr D.BOOT_MODE 0 mode).wr D.BOOT_SRC 0 src).wr D.DS_PHASE 0 1
    { d2 with boot := { d2.boot with from_ := d2.clk.cc, phaseAt := d2.clk.cc, next := if useNext && !three then 0xFF else d2.boot.next } }

/-- A reset that runs a boot, with its cause and the count of watchdog resets (R468–R472, R484). -/
def Dev.reset (d : Dev) (l : Level) (cause wd : Nat) : Dev :=
  let run := d.cr.isSome
  let store := d.storing.isSome
  let d1 := ((d.cutStore.wiped l).wr D.RESET_CAUSE 0 cause).wr D.WD_RESETS 0 wd
  let d2 := if l = .core && run then (d1.wr D.CR_STATE 0 8).wr D.CR_RESULT 0 10 else d1
  let d3 := if l = .core && store then d2.wr D.STORE_RESULT 0 3 else d2
  d3.beginBoot.rescope

/-! ### The channel reset (R469, R470) -/

/-- Whether a place of the dictionary goes to its default at a channel reset: objects of channels, stoves and trigger
groups but for those R469 names (R422, R469). -/
def chanResetKey (key : Nat) : Bool :=
  let ix := key / 256 % 65536
  let off := ix % 0x40
  if 0x4000 ≤ ix && decide (ix < 0xA000) then
    !(off == 0x30 || off == 0x31 || off == 0x32 || off == 0x28 || off == 0x29 || off == 0x2C || off == 0x2D)
  else if 0x3000 ≤ ix && decide (ix < 0x3100) then !(ix % 16 == 0x0A || ix % 16 == 0x0B)
  else decide (0xB000 ≤ ix) && decide (ix < 0xB040)

/-- The reservation of a queue released at a channel reset, its packet counted as one item lost (R470). -/
def Dev.resvReset (d : Dev) (q : Nat) : Dev :=
  match (d.qu q).resv with
  | none => d
  | some r => if 3 ≤ r.cls then d else (d.withdraw q r.id).modQu q fun x => x.lose 1 gapFlushed

/-- A channel after a channel reset (R422, R469). -/
def Chan.atReset (c : Chan) : Chan :=
  let k := c.keepFactors
  if c.ctl.st = .fenced then { k with ctl := { st := .fenced } } else k

/-- A stove after a channel reset: fence, pins, role map and link fault kept; where its link works an INIT transfer follows
(R102, R469). -/
def Stove.atReset (s : Stove) (on : Bool) : Stove :=
  { fenced := s.fenced, ilk := s.ilk, extLow := s.extLow, conv := s.conv, subst := s.subst, noSpare := s.noSpare,
    link := { fault := s.link.fault, initDue := on && !s.link.fault } }

/-- A channel reset (R371, R422, R469, R470). -/
def Dev.channelReset (d : Dev) : Dev :=
  let us := d.chans.map Prod.fst
  let start : Dev := { d.ftEnd 5 with cr := none, crRest := [] }
  let d0 := us.foldl (fun (e : Dev) u => if (e.ch u).ctl.st = .fenced || (e.ch u).ctl.st = .off then e else e.enter u .off) start
  let d1 := (d0.queues.map Prod.fst).foldl (fun (e : Dev) q => e.resvReset q) d0
  let d2 := (d1.parent.map Prod.fst).foldl (fun (e : Dev) u => e.setOwn u 0 ((e.epoch u + 1) % 2 ^ 16)) d1
  let run := d.cr.isSome
  let store := d.storing.isSome
  let d3 := d2.cutStore
  let stoveOf' := fun (k : Nat) => (k, (d3.st k).atReset (d3.pdOn (256 + k)))
  let d4 := { d3 with
    dict := d3.dict.filter fun e => !chanResetKey e.1,
    chans := d3.chans.map fun (e : Nat × Chan) => (e.1, e.2.atReset),
    stoves := (List.range 16).map stoveOf',
    hearths := [], parent := [], seqs := [], acqs := [], grps := [], cals := [], olds := {} }
  let d5 := (d4.wr D.SC_STATUS 0 0).wr D.RESET_CAUSE 0 7
  let d6 := if run then (d5.wr D.CR_STATE 0 8).wr D.CR_RESULT 0 10 else d5
  let d7 := if store then d6.wr D.STORE_RESULT 0 3 else d6
  (List.range 16).foldl (fun e k => if e.pdOn (256 + k) then e.auxOn k else e) d7

/-! ### Sources of a reset (R438, R456, R468, R471, R528) -/

/-- POWER_ON_RESET: the main rails have stood in their windows for 2 ms and the reset releases (R456, R475, R482). -/
def Dev.powerOn (d : Dev) : Dev :=
  if !d.held || !d.pwr.rails then d
  else
    let d1 := d.reachCc (d.pwr.railsAt + 2 * (d.clk.fcore / 1000))
    ({ d1 with held := false }.beginBoot).rescope

/-- POWER_ON_RESET (R456). -/
def execPowerOnReset (s : State) : Host.Outcome State Fault Refusal := .next (s.on Dev.powerOn)

/-- RAIL_BROWNOUT: a main rail below its reset threshold for 5 µs (R456, R468). -/
def execRailBrownout (rail : Nat) (s : State) : Host.Outcome State Fault Refusal :=
  .next (s.on fun d =>
    if 8 ≤ rail then d
    else { d with pwr := { d.pwr with rails := false, vddio := d.pwr.vddio && rail != 6 } }.reset .power 2 0)

/-- MAIN_RAILS_IN_WINDOW: the 2 ms of the power-on reset begin; VDDIO stands (R456, R493, R498). -/
def execMainRailsInWindow (s : State) : Host.Outcome State Fault Refusal :=
  .next (s.on fun d =>
    if d.pwr.rails then d
    else
      let d1 := match d.isl.ct with
        | some _ => { d with isl := { d.isl with ct := none } }.wr D.CT_RESULT 0 7
        | none => d
      { d1 with pwr := { d1.pwr with rails := true, railsAt := d1.clk.cc, vddio := true } })

/-- RST_N_LOW for 1 µs: a full reset that holds until the pin rises (R468, R472). -/
def execRstNLow (s : State) : Host.Outcome State Fault Refusal :=
  .next (s.on fun d =>
    if d.boot.rstLow then d
    else
      let d1 := { d with boot := { d.boot with rstLow := true } }
      if d.held then d1 else d1.reset .full 3 0)

/-- RST_N_RISE: the straps are sampled and the boot begins (R475). -/
def execRstNRise (straps : Nat) (s : State) : Host.Outcome State Fault Refusal :=
  .next (s.on fun d =>
    if !d.boot.rstLow then d
    else { d with boot := { d.boot with rstLow := false, balls := straps % 8 } }.beginBoot.rescope)

/-- A write of RST_CMD: the soft reset acts 1 ms later; of two requests that meet the deeper one is performed
(R471, R472). -/
def Dev.rstCmd (d : Dev) (p : Party) (v : Int) : Dev :=
  d.write p D.RST_CMD 0 0 v .ok fun e =>
    let new := (v.toNat, e.clk.cc + e.clk.fcore / 1000)
    let soft := match e.boot.soft with
      | some x => if new.1 < x.1 then new else x
      | none => new
    { e with boot := { e.boot with soft := some soft } }

/-- RST_CMD_FULL (R468). -/
def execRstCmdFull (p : Party) (s : State) : Host.Outcome State Fault Refusal := .next (s.on fun d => d.rstCmd p 1)

/-- RST_CMD_CORE (R468). -/
def execRstCmdCore (p : Party) (s : State) : Host.Outcome State Fault Refusal := .next (s.on fun d => d.rstCmd p 2)

/-- RST_CMD_CHANNEL (R468). -/
def execRstCmdChannel (p : Party) (s : State) : Host.Outcome State Fault Refusal := .next (s.on fun d => d.rstCmd p 3)

/-- SOFT_RESET_ACT: the soft reset acts at its level (R471). -/
def execSoftResetAct (s : State) : Host.Outcome State Fault Refusal :=
  .next (s.on fun d =>
    match d.boot.soft with
    | none => d
    | some (l, due) =>
      let d1 := d.reachCc due
      let d2 := { d1 with boot := { d1.boot with soft := none } }
      match l with
      | 1 => d2.reset .full 4 0
      | 2 => d2.reset .core 6 0
      | _ => d2.channelReset)

/-- Whether the cores of half `n` run. -/
def Dev.halfRuns (d : Dev) (n : Nat) : Bool :=
  !d.held && d.pdOn 299 && !bit d.halfFenced n && decide (d.rd D.DS_STATE 0 ≤ 1)

/-- WATCHDOG_EXPIRY: the half is fenced; with the other half fenced already, a core reset in the damper's place, counted
while the boot runs (R438, R484). -/
def Dev.watchdog (d : Dev) (n : Nat) : Dev :=
  if !d.halfRuns n then d
  else if bit d.halfFenced (1 - n) then
    let wd := if d.rd D.DS_STATE 0 = 0 then d.rdN D.WD_RESETS 0 + 1 else 0
    (d.fault ⟨0x3310, n, 0, 0⟩ d.now2 false).reset .core 5 wd
  else d.faultNow 0x3310 n 0

/-- WATCHDOG_EXPIRY (R438). -/
def execWatchdogExpiry (east : Bool) (s : State) : Host.Outcome State Fault Refusal :=
  .next (s.on fun d => d.watchdog (b2n east))

/-- CORE_TRAP: the half is fenced (R428, R437). -/
def execCoreTrap (east : Bool) (s : State) : Host.Outcome State Fault Refusal :=
  .next (s.on fun d => if d.halfRuns (b2n east) then d.faultNow 0x3314 (b2n east) 0 else d)

/-- MAILBOX_TIMEOUT (R428). -/
def execMailboxTimeout (s : State) : Host.Outcome State Fault Refusal :=
  .next (s.on fun d => if d.held then d else d.report 0x3315 0 0)

/-- STOVE_DOMAIN_SUPPLY_OUT: the stove is fenced (R427, R437). -/
def execStoveDomainSupplyOut (k : Nat) (s : State) : Host.Outcome State Fault Refusal :=
  .next (s.on fun d => if d.pdOn (256 + k) then d.faultNow 0x2103 k 0 else d)

/-- JTAG_INSTRUCTION: the device acts as though RST_N were low (R528). -/
def execJtagInstruction (s : State) : Host.Outcome State Fault Refusal :=
  .next (s.on fun d =>
    if d.boot.jtag then d
    else
      let d1 := { d with boot := { d.boot with jtag := true } }
      if d.held then d1 else d1.reset .full 3 0)

/-- JTAG_INSTRUCTION_END: a full reset with RESET_CAUSE 3 (R528). -/
def execJtagInstructionEnd (s : State) : Host.Outcome State Fault Refusal :=
  .next (s.on fun d =>
    if !d.boot.jtag then d
    else
      let d1 := { d with boot := { d.boot with jtag := false } }
      if d.held then d1 else d1.reset .full 3 0)

/-! ### The island's supply (R459) -/

/-- The island as after its own reset, its configuration at its defaults (R459, R487, R488). -/
def Dev.islandReset (d : Dev) : Dev :=
  { d with
    isl := { scope := d.scope },
    dict := d.dict.filter fun e => !(e.1 / 256 % 65536 == 0x2603 || e.1 / 256 % 65536 == 0x2600 || e.1 / 256 % 65536 == 0x2602) }

/-- ISLAND_RESET_RELEASE: VSRV above 2.850 V (R459). -/
def execIslandResetRelease (s : State) : Host.Outcome State Fault Refusal :=
  .next (s.on fun d => if d.pwr.vsrv then d else { d with pwr := { d.pwr with vsrv := true } }.islandReset)

/-- VSRV_LOSS: the retention RAM, its pending records and BOOT_NEXT are lost (R443, R459). -/
def execVsrvLoss (s : State) : Host.Outcome State Fault Refusal :=
  .next (s.on fun d =>
    if !d.pwr.vsrv then d
    else
      { d with
        pwr := { d.pwr with vsrv := false }, boot := { d.boot with next := 0xFF },
        flt := { d.flt with pending := [] }, hist := { d.hist with tried := none } }.islandReset)

end Sys2Proof.Machine
end

