-- ==== Sys2Proof/Machine/Flues.lean ====
section
/-! DEFINITION. The flue router: firing, delivery to the consumer inputs, the event pins, and autorun (R222–R224,
R288–R311). -/

namespace Sys2Proof.Machine

open Sys2Proof

/-! ### Autorun (R222–R224) -/

/-- START given to every engine with AUTORUN set, all in one cv; what was refused is counted (R224). -/
def Dev.autorun (d : Dev) (c : Cause) : Dev :=
  let us := (List.range 384).filter fun u => d.flag C.AUTORUN u
  let go := us.filter fun u => d.startCheck u = .ok
  let d1 := go.foldl (fun e u => e.seqStart u c) d
  ((d1.wr D.AR_STARTED 0 go.length).wr D.AR_REFUSED 0 (us.length - go.length : Nat)).wr D.AR_STATUS 0
    (if go.length = us.length then 2 else 3)

/-! ### Consumer inputs (R295, R300) -/

/-- The flue the step header or the WAIT of an engine waits for, and the consumer input it is (R195, R206, R213, R295). -/
def Dev.seqInput (d : Dev) (m : Mem) (u : Nat) : Option (Nat × Nat) :=
  let q := d.sq u
  let st := if q.st = .paused then q.prev else q.st
  if st = .armed then some (bits (wd (stepWords m q.pc) 0) 9 0, 2)
  else match q.step with
    | .pointArm => q.sweep.map fun x => (x.flue, 3)
    | .wait _ => if bits (wd q.words 1) 7 0 = 1 then some (bits (wd q.words 1) 25 16, 4) else none
    | _ => none

/-- The inputs of unit `u` connected to flue `f`, in number order (R295). -/
def Dev.unitInputs (d : Dev) (m : Mem) (f u : Nat) : List Nat :=
  let on := fun (o : Obj) (e : Nat) => if d.rd o u = (f : Int) then [16 * u + e] else []
  (if d.rd C.TRIG_SRC u = 7 then on C.TRIG_FLUE 0 else []) ++ on C.ARM_FLUE 1 ++
    (match d.seqInput m u with
     | some (g, e) => if g = f then [16 * u + e] else []
     | none => []) ++
    on C.JUMP_FLUE 5 ++ on C.LINE_FLUE 6 ++ on C.FREEZE_FLUE 7 ++ on C.OFF_FLUE 8

/-- The inputs of stove `k` connected to flue `f` (R295). -/
def Dev.stoveInputs (d : Dev) (f k : Nat) : List Nat :=
  (if d.rd S.START_FLUE k = (f : Int) then [0x1800 + 16 * k] else []) ++
    (if d.rd S.URG_FLUE k = (f : Int) then [0x1801 + 16 * k] else [])

/-- The other inputs connected to flue `f`: autorun while it waits, pins EVO, time captures, queue markers (R295). -/
def Dev.otherInputs (d : Dev) (f : Nat) : List Nat :=
  (if d.rd D.AR_STATUS 0 = 1 && d.rd D.AR_FLUE 0 = (f : Int) then [0x1900] else []) ++
    ((List.range 16).filter fun i => bit (d.evoCfg i) 31 && bits (d.evoCfg i) 25 16 == f).map (0x1910 + ·) ++
    ((List.range 16).filter fun j => d.rd D.CAP_FLUE j == (f : Int)).map (0x1920 + ·) ++
    (d.queues.filter fun e => e.2.markFlue == f).map fun e => 0x10000 + e.1

/-- Every consumer input connected to flue `f`, in number order (R295). -/
def Dev.inputs (d : Dev) (m : Mem) (f : Nat) : List Nat :=
  (List.range 384).flatMap (d.unitInputs m f) ++ (List.range 16).flatMap (d.stoveInputs f) ++ d.otherInputs f

/-- Whether an input lies in the converter domain (R295). -/
def inConverter (c : Nat) : Bool := (decide (c < 0x1800) && c % 16 == 6) || (decide (0x1800 ≤ c) && decide (c < 0x1900))

/-- An event discarded because its consumer is busy (R300). -/
def Dev.overrun (d : Dev) (c : Nat) : Dev :=
  d.modCons c fun x => { x with status := x.status ||| 1, overruns := min (x.overruns + 1) (2 ^ 32 - 1) }

/-- A sequence engine acts on a flue event (R195, R206, R213, R302). -/
def Dev.seqEvent (d : Dev) (u : Nat) (c : Cause) : Dev :=
  d.modSq u fun q => { q.take (d.nextSlot u) with cause := c }

/-- An event of OFF_FLUE: CH_CMD OFF, without effect in Off, Calibrating, Fenced and for a member (R307). -/
def Dev.offEvent (d : Dev) (u : Nat) (c : Cause) : Dev :=
  match (d.ch u).ctl.st with
  | .off => d
  | .calibrating => d
  | .fenced => d
  | _ => if d.isMember u then d else ((d.chApply u .off false c).crFailOn u 5).report 0x1317 u 0

/-- An event of FREEZE_FLUE: autorange frozen for FREEZE_TIME from the next cv (R307). -/
def Dev.freezeEvent (d : Dev) (u : Nat) : Dev :=
  d.modCh u fun c => { c with freeze := some (d.clk.tick + 1 + d.rdN C.FREEZE_TIME u) }

/-- An event at pin EVOi: a pulse, unless one runs, or a toggle (R300, R309). -/
def Dev.evoEvent (d : Dev) (i : Nat) : Dev :=
  let c := d.evoCfg i
  let x := SMap.get {} d.evo i
  match bits c 29 28 with
  | 0 =>
    if x.ends.isSome then d.overrun (0x1910 + i)
    else { d with evo := SMap.upd {} d.evo i fun x => { x with ends := some (d.clk.cc + bits c 15 0) } }
  | 2 => { d with evo := SMap.upd {} d.evo i fun x => { x with tog := !x.tog } }
  | _ => d

/-- The event of a unit's input `e` with what it passes on (R230, R235, R295, R300). -/
def Dev.unitEvent (d : Dev) (m : Mem) (u e : Nat) (c : Cause) : Dev :=
  match e with
  | 0 =>
    let st := (d.aq u).st
    (if st = .rearm || st = .waitSpace then d.overrun (16 * u) else d).found m u (d.clk.tick - d.acqLag u) 2 c
  | 1 => d.unitArm u c
  | 5 => d.jumpRequest u d.clk.tick
  | 7 => d.freezeEvent u
  | 8 => d.offEvent u c
  | _ => d.seqEvent u c

/-- An event of generation `g` of flue `f`, raised at its source in core cycle `at_`, acting at core consumer `k`. -/
def Dev.flueConsume (d : Dev) (m : Mem) (k f g at_ : Nat) : Dev :=
  let c : Cause := ⟨g + 1, k⟩
  if k < 0x1800 then d.unitEvent m (k / 16) (k % 16) c
  else if k = 0x1900 then d.autorun c
  else if k < 0x1920 then d.evoEvent (k - 0x1910)
  else if k < 0x1930 then
    let j := k - 0x1920
    if d.flag D.CAP_VALID j && !d.flag D.CAP_OVERWRITE j then d.overrun k else d.capture j at_
  else
    let q := k - 0x10000
    let n := ((d.qu q).marks + 1) % 2 ^ 16
    (d.modQu q fun x => { x with marks := n }).mark q 0 f n c

/-- An event brought to one input: counted where it merges, stopped by a closed gate, sent on into the converter domain,
or acted on (R297–R301). -/
def Dev.toInput (d : Dev) (m : Mem) (f g n at_ : Nat) (k : Nat) : Dev :=
  let d1 := if 1 < n then d.modCons k fun x => { x with merges := min (x.merges + (n - 1)) (2 ^ 32 - 1) } else d
  if !d1.gateOpen k then d1.modCons k fun x => { x with gated := min (x.gated + 1) (2 ^ 32 - 1) }
  else if inConverter k then { d1 with evtsCv := d1.evtsCv ++ [⟨k, g, d1.clk.tick + 2⟩] }
  else d1.flueConsume m k f g at_

/-- The oldest event in the router delivered 2 cc after it was raised, with those of its flue raised in the same cc merged
into it (R294, R298, R299). -/
def Dev.deliverFlue (d : Dev) (m : Mem) : Dev :=
  match d.evts with
  | [] => d
  | x :: _ =>
    let same := d.evts.filter fun y => y.flue == x.flue && y.cc == x.cc
    let rest := d.evts.filter fun y => !(y.flue == x.flue && y.cc == x.cc)
    let g := same.foldl (fun a y => max a y.gen) 0
    let n := same.length
    let t := (d.tbase 2).acc - (d.clk.cc - x.cc) * (d.tbase 2).inc
    let d1 := ({ d with evts := rest }).reachCc (x.cc + 2)
    let d2 := { d1 with
      flues := SMap.upd {} d1.flues x.flue fun y =>
        { y with
          events := (y.events + 1) % 2 ^ 32, merges := min (y.merges + (n - 1)) (2 ^ 32 - 1), last := t / 2 ^ 44,
          lastGen := g } }
    (d2.inputs m x.flue).foldl (fun e k => e.toInput m x.flue g n (x.cc - x.back) k) d2

/-- FLUE_DELIVERY (R294–R301). -/
def execFlueDelivery (s : State) : Host.Outcome State Fault Refusal :=
  .next (s.on fun d => d.deliverFlue s.wmem)

/-- An event of the converter domain acting at its input (R147, R181, R182, R300). -/
def Dev.consumeCv (d : Dev) (k g : Nat) : Dev :=
  let c : Cause := ⟨g + 1, k⟩
  if k < 0x1800 then d.lineEvent (k / 16)
  else
    let s := (k - 0x1800) / 16
    let busy := match (d.st s).aux.ph with
      | .idle => false
      | .urgent => k % 16 == 1
      | .seq _ => k % 16 == 0
      | .urgentIn _ => true
    let d1 := if busy then d.overrun k else d
    if k % 16 = 0 then d1.auxStart s c else d1.auxUrgent s c

/-- The oldest event on its way into the converter domain arrives, with those of its input due at the same edge (R299,
R301). -/
def Dev.arriveCv (d : Dev) : Dev :=
  match d.evtsCv with
  | [] => d
  | x :: _ =>
    let same := d.evtsCv.filter fun y => y.consumer == x.consumer && y.due == x.due
    let rest := d.evtsCv.filter fun y => !(y.consumer == x.consumer && y.due == x.due)
    let d1 := ({ d with evtsCv := rest }).reach x.due
    let d2 := if same.length ≤ 1 then d1 else
      d1.modCons x.consumer fun y => { y with merges := min (y.merges + (same.length - 1)) (2 ^ 32 - 1) }
    d2.consumeCv x.consumer (same.foldl (fun a y => max a y.gen) 0)

/-- FLUE_CONVERTER_ARRIVAL (R299, R301). -/
def execFlueConverterArrival (s : State) : Host.Outcome State Fault Refusal := .next (s.on Dev.arriveCv)

/-! ### Software firing (R304) -/

/-- A write of FIRE. -/
def Dev.fire (d : Dev) (p : Party) (v : Int) : Dev := d.write p D.FIRE 0 0 v .ok fun e => e.raiseFlue v.toNat 0

/-- FLUE_FIRE (R304). -/
def execFlueFire (p : Party) (v : Int) (s : State) : Host.Outcome State Fault Refusal := .next (s.on fun d => d.fire p v)

/-- A write of FIRE_BITS: the set bits' flues of the party's block, all in one cc. -/
def Dev.fireBits (d : Dev) (p : Party) (v : Int) : Dev :=
  let b := 32 * d.rdpN p D.FIRE_BLOCK 0
  d.write p D.FIRE_BITS 0 0 v .ok fun e =>
    foldUp (fun x i => if bit v.toNat i then x.raiseFlue (b + i) 0 else x) e 32

/-- FLUE_FIRE_BITS (R304). -/
def execFlueFireBits (p : Party) (v : Int) (s : State) : Host.Outcome State Fault Refusal :=
  .next (s.on fun d => d.fireBits p v)

/-! ### Freeze and pins (R307–R309) -/

/-- FREEZE_END: the freeze is over; held requests go on, an upward one only if its condition still holds (R96, R307). -/
def execFreezeEnd (u : Nat) (s : State) : Host.Outcome State Fault Refusal :=
  .next (s.on fun d =>
    match (d.ch u).freeze with
    | none => d
    | some t => ((d.reach t).modCh u fun c => { c with freeze := none }).releaseHeld u)

/-- The event of pin EVIi raised, its ball's edge FILTER + 3 cc before (R308, R310, R331). -/
def Dev.raiseEvi (d : Dev) (i : Nat) : Dev :=
  let d1 := d.raise (srcEvi i)
  let n := d.evts.length
  { d1 with evts := d1.evts.take n ++ (d1.evts.drop n).map fun e => { e with back := bits (d.eviCfg i) 7 0 + 3 } }

/-- A new filtered level of the ball of EVIi; its event in the direction EDGE (R308). -/
def Dev.eviEdge (d : Dev) (i : Nat) (high : Bool) : Dev :=
  if bit d.evi i = high then d
  else
    let d1 := { d with evi := setBit d.evi i high }
    let c := d.eviCfg i
    let rise := high != bit c 14
    let wanted := match bits c 13 12 with
      | 0 => rise
      | 1 => !rise
      | _ => true
    if bit c 15 && wanted then d1.raiseEvi i else d1

/-- EVI_EDGE (R308). -/
def execEviEdge (pin : Nat) (high : Bool) (s : State) : Host.Outcome State Fault Refusal :=
  .next (s.on fun d => if pin < 16 then d.eviEdge pin high else d)

/-- A write of EVI_CFG: no event (R308). -/
def Dev.eviWrite (d : Dev) (p : Party) (i : Nat) (v : Int) : Dev :=
  d.write p D.EVI_CFG 0 i v (Status.value.when (bits v.toNat 13 12 == 3)) fun e =>
    e.wri D.EVI_CFG 0 i (v.toNat &&& 0xF0FF : Nat)

/-- EVI_CFG_WRITE (R308). -/
def execEviCfgWrite (p : Party) (pin : Nat) (v : Int) (s : State) : Host.Outcome State Fault Refusal :=
  .next (s.on fun d => d.eviWrite p pin v)

/-- A write of EVO_CFG (R309). -/
def Dev.evoWrite (d : Dev) (p : Party) (i : Nat) (v : Int) : Dev :=
  d.write p D.EVO_CFG 0 i v (Status.value.when (bits v.toNat 29 28 == 3 || bits v.toNat 15 0 == 0)) fun e =>
    e.wri D.EVO_CFG 0 i (v.toNat &&& 0xF3FFFFFF : Nat)

/-- EVO_PULSE_END (R309). -/
def execEvoPulseEnd (pin : Nat) (s : State) : Host.Outcome State Fault Refusal :=
  .next (s.on fun d =>
    match (SMap.get {} d.evo pin).ends with
    | none => d
    | some t =>
      let d1 := d.reachCc t
      { d1 with evo := SMap.upd {} d1.evo pin fun x => { x with ends := none } })

end Sys2Proof.Machine
end

