-- ==== Sys2Proof/Machine/Sequence.lean ====
section
/-! DEFINITION. Meanings of the commands of segments and sequence engines (R187–R224). -/

namespace Sys2Proof.Machine

open Sys2Proof

/-! ### Segments (R187–R191) -/

/-- Whether a party's selected segment is active (R190, R191). -/
def Dev.segBusy (d : Dev) (p : Party) : Status := Status.segmentActive.when (d.segActive (d.rdpN p D.SEG_SEL 0) ≠ 0)

/-- The answer to a write of `n` bytes of SEG_DATA (R189, R191). -/
def Dev.segDataStatus (d : Dev) (p : Party) (n : Nat) : Status :=
  match d.gate p 0xA002 true with
  | .ok => firstOf [d.levelOk p D.SEG_DATA 0, d.segBusy p,
      Status.length.when (decide (n < 4) || n % 4 ≠ 0 || decide (4096 - d.rdpN p D.SEG_OFS 0 < n))]
  | x => x

/-- SEG_DATA_WRITE (R189, R191): the bytes placed at SEG_OFS of the selected segment. -/
def execSegDataWrite (p : Party) (bytes : List Byte) (s : State) : Host.Outcome State Fault Refusal :=
  match s.dev.segDataStatus p bytes.length with
  | .ok => .next { s with
      dev := s.dev.say .ok,
      wmem := Mem.write 0 s.wmem (4096 * s.dev.rdpN p D.SEG_SEL 0 + s.dev.rdpN p D.SEG_OFS 0) bytes }
  | x => .next (s.on fun d => d.say x)

/-- The object of a subindex of SEG_DESC (R189). -/
def segObj (sub : Nat) : Obj :=
  match sub with
  | 1 => D.KIND
  | 2 => D.NEXT
  | 3 => D.LEN
  | 4 => D.FILLED
  | 5 => D.UF_ACTION
  | 6 => D.SAFE_SEG
  | _ => D.ACTIVE

/-- A segment with one field of its descriptor written; KIND clears FILLED (R189, R191). -/
def Seg.put (g : Seg) (sub : Nat) (v : Int) : Seg :=
  match sub with
  | 1 => { g with kind := v.toNat, filled := false }
  | 2 => { g with next := v.toNat }
  | 3 => { g with len := v.toNat }
  | 4 => { g with filled := v ≠ 0 }
  | 5 => { g with ufAction := v.toNat }
  | 6 => { g with safeSeg := v.toNat }
  | _ => g

/-- A field of the selected segment's descriptor written by a party; FILLED 1 reaches the engines that wait for it
(R189, R191, R217, R219). -/
def Dev.segWrite (d : Dev) (p : Party) (sub : Nat) (v : Int) : Dev :=
  let g := d.rdpN p D.SEG_SEL 0
  if sub = 0 || 6 < sub then
    d.say (if sub = 7 || sub = 8 || sub = 0 then firstOf [d.gate p 0xA001 true, .access] else firstOf [d.gate p 0xA001 true, .noObject])
  else
    d.write p (segObj sub) 0 0 v (d.segBusy p) fun e =>
      let e1 := e.modSeg g fun x => x.put sub v
      if sub = 4 && v ≠ 0 then e1.filledLands g e1.clk.tick else e1

/-- SEG_DESC_WRITE (R189, R191). -/
def execSegDescWrite (p : Party) (sub : Nat) (v : Int) (s : State) : Host.Outcome State Fault Refusal :=
  .next (s.on fun d => d.segWrite p sub v)

/-- FILLED_WRITE (R189, R217, R219). -/
def execFilledWrite (p : Party) (v : Int) (s : State) : Host.Outcome State Fault Refusal :=
  .next (s.on fun d => d.segWrite p 4 v)

/-! ### SQ_CMD (R192, R195, R218) -/

/-- The effect of a write of SQ_CMD (R192). -/
def Dev.sqCmd (d : Dev) (p : Party) (u : Nat) (v : Int) : Dev :=
  d.write p C.SQ_CMD u 0 v (if v = 1 then d.startCheck u else .ok) fun e =>
    if v = 1 then e.seqStart u {} else if v = 2 then e.seqStop u else e.jumpRequest u e.clk.tick

/-- SQ_CMD_START (R195). -/
def execSqCmdStart (p : Party) (u : Nat) (s : State) : Host.Outcome State Fault Refusal :=
  .next (s.on fun d => d.sqCmd p u 1)

/-- SQ_CMD_STOP (R195). -/
def execSqCmdStop (p : Party) (u : Nat) (s : State) : Host.Outcome State Fault Refusal :=
  .next (s.on fun d => d.sqCmd p u 2)

/-- SQ_CMD_JUMP (R218). -/
def execSqCmdJump (p : Party) (u : Nat) (s : State) : Host.Outcome State Fault Refusal :=
  .next (s.on fun d => d.sqCmd p u 3)

/-! ### Steps and what ends them -/

/-- STEP_FORCE: the engine executes the FORCE step at PC, or goes on with one whose ranges came into force while it was
Paused (R195, R202, R203). -/
def execStepForce (u : Nat) (s : State) : Host.Outcome State Fault Refusal :=
  .next (s.on fun d =>
    if (d.sq u).step = .force then d.forceGo u (d.clk.tick + 1)
    else d.runStep s.wmem u 1 fun d ws slot => d.stepForce u ws slot)

/-- STEP_RAMP (R204). -/
def execStepRamp (u : Nat) (s : State) : Host.Outcome State Fault Refusal :=
  .next (s.on fun d => d.runStep s.wmem u 2 fun d ws slot => d.stepRamp u ws slot)

/-- STEP_SINE (R214, R215). -/
def execStepSine (u : Nat) (s : State) : Host.Outcome State Fault Refusal :=
  .next (s.on fun d => d.runStep s.wmem u 3 fun d ws slot => d.stepSine u ws slot)

/-- STEP_SWEEP (R213). -/
def execStepSweep (u : Nat) (s : State) : Host.Outcome State Fault Refusal :=
  .next (s.on fun d => d.runStep s.wmem u 4 fun d ws slot => d.stepSweep u ws slot)

/-- STEP_DWELL (R201). -/
def execStepDwell (u : Nat) (s : State) : Host.Outcome State Fault Refusal :=
  .next (s.on fun d => d.runStep s.wmem u 5 fun d ws slot => d.stepDwell u ws slot)

/-- STEP_MEASURE (R209). -/
def execStepMeasure (u : Nat) (s : State) : Host.Outcome State Fault Refusal :=
  .next (s.on fun d => d.runStep s.wmem u 6 fun d ws slot => d.stepMeasure u ws slot)

/-- STEP_WAIT (R206). -/
def execStepWait (u : Nat) (s : State) : Host.Outcome State Fault Refusal :=
  .next (s.on fun d => d.runStep s.wmem u 7 fun d ws slot => d.stepWait u ws slot)

/-- STEP_POST (R210). -/
def execStepPost (u : Nat) (s : State) : Host.Outcome State Fault Refusal :=
  .next (s.on fun d => d.runStep s.wmem u 8 fun d ws slot => d.stepPost u ws slot)

/-- STEP_JUMP (R207). -/
def execStepJump (u : Nat) (s : State) : Host.Outcome State Fault Refusal :=
  .next (s.on fun d => d.runStep s.wmem u 9 fun d ws slot => d.stepJump u ws slot)

/-- STEP_END (R211). -/
def execStepEnd (u : Nat) (s : State) : Host.Outcome State Fault Refusal :=
  .next (s.on fun d => d.runStep s.wmem u 10 fun d ws slot => d.stepEnd u ws slot)

/-- STEP_PLAY (R216). -/
def execStepPlay (u : Nat) (s : State) : Host.Outcome State Fault Refusal :=
  .next (s.on fun d => d.runStep s.wmem u 11 fun d ws slot => d.stepPlay s.wmem u ws slot)

/-- STEP_LOOP (R220). -/
def execStepLoop (u : Nat) (s : State) : Host.Outcome State Fault Refusal :=
  .next (s.on fun d => d.runStep s.wmem u 16 fun d ws slot => d.stepLoop u ws slot)

/-- STEP_LOOP_END (R220). -/
def execStepLoopEnd (u : Nat) (s : State) : Host.Outcome State Fault Refusal :=
  .next (s.on fun d => d.runStep s.wmem u 17 fun d _ slot => d.stepLoopEnd u slot)

/-- STEP_CALL (R220). -/
def execStepCall (u : Nat) (s : State) : Host.Outcome State Fault Refusal :=
  .next (s.on fun d => d.runStep s.wmem u 18 fun d ws slot => d.stepCall u ws slot)

/-- STEP_RETURN (R220). -/
def execStepReturn (u : Nat) (s : State) : Host.Outcome State Fault Refusal :=
  .next (s.on fun d => d.runStep s.wmem u 19 fun d _ slot => d.stepReturn u slot)

/-- RAMP_END: the last slot of a RAMP holds T1 (R204). -/
def execRampEnd (u : Nat) (s : State) : Host.Outcome State Fault Refusal :=
  .next (s.on fun d => d.rampEnd u)

/-- SINE_DURATION_END (R215). -/
def execSineDurationEnd (u : Nat) (s : State) : Host.Outcome State Fault Refusal :=
  .next (s.on fun d => d.sineEnd u)

/-- SWEEP_POINT_START (R213). -/
def execSweepPointStart (u : Nat) (s : State) : Host.Outcome State Fault Refusal :=
  .next (s.on fun d =>
    if (d.sq u).step = .pointMake then d.pointGo u (d.clk.tick + 1) else d.pointStart s.wmem u)

/-- POINT_DELAY_END (R213). -/
def execPointDelayEnd (u : Nat) (s : State) : Host.Outcome State Fault Refusal :=
  .next (s.on fun d => d.pointDelayEnd u)

/-- POINT_COMPLETE (R213). -/
def execPointComplete (u : Nat) (s : State) : Host.Outcome State Fault Refusal :=
  .next (s.on fun d => d.pointDone u)

/-- DWELL_END (R201). -/
def execDwellEnd (u : Nat) (s : State) : Host.Outcome State Fault Refusal :=
  .next (s.on fun d => d.dwellEnd u)

/-- MEASURE_COMPLETE (R209). -/
def execMeasureComplete (u : Nat) (s : State) : Host.Outcome State Fault Refusal :=
  .next (s.on fun d => d.measureDone u)

/-- WAIT_CONDITION_MET (R206). -/
def execWaitConditionMet (u : Nat) (s : State) : Host.Outcome State Fault Refusal :=
  .next (s.on fun d => d.waitDone u)

/-- WAIT_TIMEOUT (R206). -/
def execWaitTimeout (u : Nat) (s : State) : Host.Outcome State Fault Refusal :=
  .next (s.on fun d => d.waitTimeout u)

/-- SEGMENT_BOUNDARY (R216). -/
def execSegmentBoundary (u : Nat) (s : State) : Host.Outcome State Fault Refusal :=
  .next (s.on fun d => d.segBoundary s.wmem u)

/-- STARVED_SEGMENT_START (R219). -/
def execStarvedSegmentStart (u : Nat) (s : State) : Host.Outcome State Fault Refusal :=
  .next (s.on fun d => d.starvedStart s.wmem u)

end Sys2Proof.Machine
end

