-- ==== Sys2Proof/Machine/Service.lean ====
section
/-! DEFINITION. The test bus, the continuity tester and the field tests (R495–R503). -/

namespace Sys2Proof.Machine

open Sys2Proof

/-! ### Test bus (R495–R497) -/

/-- The objects of pin TPA or TPB: source and stove. -/
def tpObjs (b : Bool) : Obj × Obj := if b then (D.TPB_SRC, D.TPB_STOVE) else (D.TPA_SRC, D.TPA_STOVE)

/-- Whether a code is a source of the test bus (R496). -/
def tpListed (v : Int) : Bool := (decide (0 ≤ v) && decide (v ≤ 3)) || (decide (8 ≤ v) && decide (v ≤ 18))

/-- A write of TPA_SRC or TPB_SRC (R495, R496). -/
def Dev.tpWrite (d : Dev) (p : Party) (b : Bool) (v : Int) : Dev :=
  let o := (tpObjs b).1
  d.write p o 0 0 v (firstOf [Status.value.when (!tpListed v), Status.state.when (tpListed v && !tpScope v.toNat d.scope)])
    fun e => e.wr o 0 v

/-- Expected reading of a source in µV (R496). -/
def Dev.tpExpect (d : Dev) (code stove : Nat) : Rat2 :=
  let uv := fun (n : Int) => (⟨n, 1000000⟩ : Rat2)
  match code with
  | 1 => uv 1200000
  | 2 => (f32Val (d.rdi D.RAIL_V 0 8)).div ⟨2, 1⟩
  | 8 => uv 750000
  | 9 => uv 750000
  | 10 => uv 900000
  | 11 => uv 1200000
  | 12 => uv 1800000
  | 13 => uv 1650000
  | 14 => uv 1800000
  | 15 => uv 1650000
  | 16 => uv 2500000
  | 17 => ⟨d.rd S.TD_CODE stove * 5, 2048⟩
  | _ => uv 0

/-- TPA_EXPECT or TPB_EXPECT (R495, R496). -/
def Dev.tpExpectOf (d : Dev) (b : Bool) : Int := (d.tpExpect (d.rdN (tpObjs b).1 0) (d.rdN (tpObjs b).2 0)).f32

/-- TP_SELECT: the console's TP, a source and its stove (R491, R495). -/
def Dev.tpSelect (d : Dev) (b : Bool) (src stove : Nat) : Dev :=
  let d1 := d.tpWrite .console b src
  if d1.status = .ok then d1.write .console (tpObjs b).2 0 0 stove .ok fun e => e.wr (tpObjs b).2 0 stove else d1

/-- TP_SELECT (R495). -/
def execTpSelect (b : Bool) (src stove : Nat) (s : State) : Host.Outcome State Fault Refusal :=
  .next (s.on fun d => let e := d.tpSelect b src stove; e.line (.status e.status))

/-! ### Continuity (R498, R499) -/

/-- Whether ball (row − 1) × 64 + (column − 1) can be tested (R498, R508–R510). -/
def ballTestable (n : Nat) : Bool :=
  let row := n / 64 + 1
  let col := n % 64 + 1
  let x := (col - 1) % 16
  let tile := fun (t : Nat) =>
    let r := row - t
    if r = 0 then true else if r = 9 then decide (x ≤ 1) else r % 2 == 1 || x % 4 != 1
  if 64 < row then false
  else if row ≤ 10 then tile 1
  else if row ≤ 20 then tile 11
  else if 45 ≤ row && decide (row ≤ 54) then tile 45
  else if 55 ≤ row then tile 55
  else if row = 23 then decide (17 ≤ col) && decide (col ≤ 48)
  else if row = 25 then (decide (20 ≤ col) && decide (col ≤ 25)) || col == 47 || col == 49
  else if row = 27 then decide (20 ≤ col) && decide (col ≤ 24)
  else false

/-- A measurement started at a polarity, 5 ms long; a ball that cannot be tested gives 6 at once (R498). -/
def Dev.ctStart (d : Dev) (pol : Nat) (cont : Bool) : Dev :=
  let n := d.rdN D.CT_BALL 0
  if !ballTestable n then d.wr D.CT_RESULT 0 6
  else
    let same := d.isl.ball == n
    { d with isl := { d.isl with
        ct := some ⟨pol, d.clk.cc + 5 * (d.clk.fcore / 1000), cont⟩, ball := n,
        plus := if same && pol ≠ 0 then d.isl.plus else none,
        minus := if same && pol = 0 then d.isl.minus else none } }

/-- The answer to CT_CMD: only in island scope and with VDDIO down (R498). -/
def Dev.ctCheck (d : Dev) : Status :=
  firstOf [Status.state.when (decide (d.scope ≠ 0) || d.pwr.vddio), Status.busy.when d.isl.ct.isSome]

/-- A write of CT_CMD (R498). -/
def Dev.ctCmd (d : Dev) (p : Party) (v : Int) : Dev :=
  d.write p D.CT_CMD 0 0 v d.ctCheck fun e => e.ctStart (e.rdN D.CT_POL 0) false

/-- CT_MEASURE (R498). -/
def execCtMeasure (p : Party) (s : State) : Host.Outcome State Fault Refusal := .next (s.on fun d => d.ctCmd p 1)

/-- The rows of the table of R499 that readings fit, in µV; none where no row gives a result. -/
def ctVerdict (plus minus : Option Int) : Option Nat :=
  let inn := fun (x : Option Int) (f : Int → Bool) => match x with | none => true | some v => f v
  let diode := inn minus fun v => decide (-850000 ≤ v) && decide (v ≤ -400000)
  let load := inn plus fun v => decide (5000 ≤ v) && decide (v ≤ 1450000)
  let open_ := inn plus fun v => decide (1500000 ≤ v)
  let short := inn plus fun v => decide (v < 5000)
  if load && diode then some 1
  else if open_ && diode then some 2
  else if short && inn minus (fun v => decide (-50000 < v)) then some 3
  else if inn minus fun v => decide (v ≤ -1000000) then some 4
  else if inn minus fun v => decide (-400000 < v) && decide (v ≤ -50000) then some 5
  else none

/-- A measurement ends with `uv` µV: CT_V, CT_R, and the verdict on the readings of the ball; CONT goes on with the
other polarity, or reports (R498, R499). -/
def Dev.ctDone (d : Dev) (uv : Int) : Dev :=
  match d.isl.ct with
  | none => d
  | some c =>
    let d1 := d.reachCc c.due
    let d2 := { d1 with isl := { d1.isl with
      ct := none, plus := if c.pol = 0 then some uv else d1.isl.plus, minus := if c.pol = 0 then d1.isl.minus else some uv } }
    let r : Int := if c.pol = 0 && decide (uv < 1500000) then toF32 uv 100 else 0x7FC00000
    let d3 := (d2.wr D.CT_V 0 (toF32 uv 1000000)).wr D.CT_R 0 r
    let d4 := match ctVerdict d3.isl.plus d3.isl.minus with
      | some x => d3.wr D.CT_RESULT 0 x
      | none => d3.drawn.wr D.CT_RESULT 0 (d3.freeBits 8)
    if !c.cont then d4
    else if c.pol = 0 && d4.isl.minus.isNone then d4.ctStart 1 true
    else (d4.line (.val 0x2602 6 (.num (d4.rd D.CT_RESULT 0)))).line (.status .ok)

/-- CT_MEASURE_DONE (R499). -/
def execCtMeasureDone (uv : Int) (s : State) : Host.Outcome State Fault Refusal := .next (s.on fun d => d.ctDone uv)

/-- CT_ABANDON: VDDIO has risen above 0.3 V (R498). -/
def Dev.ctAbandon (d : Dev) : Dev :=
  let d1 := { d with pwr := { d.pwr with vddio := true } }
  match d.isl.ct with
  | none => d1
  | some c =>
    let d2 := { d1 with isl := { d1.isl with ct := none } }.wr D.CT_RESULT 0 7
    if c.cont then (d2.line (.val 0x2602 6 (.num 7))).line (.status .ok) else d2

/-- CT_ABANDON (R498). -/
def execCtAbandon (s : State) : Host.Outcome State Fault Refusal := .next (s.on Dev.ctAbandon)

/-- CONT: both polarities of a ball, and the verdict (R491, R499). -/
def Dev.cont (d : Dev) (ball : Nat) : Dev :=
  if !d.pwr.vsrv then d.say .noAnswer
  else match d.ctCheck with
    | .ok =>
      let d1 := ({ d.wr D.CT_BALL 0 ball with isl := { d.isl with plus := none, minus := none } }.ctStart 0 true).say .ok
      if d1.isl.ct.isNone then (d1.line (.val 0x2602 6 (.num 6))).line (.status .ok) else d1
    | x => (d.say x).line (.status x)

/-- CONT (R499). -/
def execCont (ball : Nat) (s : State) : Host.Outcome State Fault Refusal :=
  .next (s.on fun d => if ball < 4096 then d.cont ball else (d.say .malformed).line (.status .malformed))

/-! ### Field tests: what each asks (R502, R503) -/

/-- A reading a test waits for: the device's own or a meter entry, its step, and the value expected. -/
structure FtAsk where
  entry : Bool
  step : Nat
  expect : Rat2
  deriving DecidableEq, Repr

/-- The readings of a test, in order. -/
def Dev.ftAsks (d : Dev) (r : FtRun) : List FtAsk :=
  let uv := fun (n : Int) => (⟨n, 1000000⟩ : Rat2)
  let int := fun (n : Int) => (⟨n, 1⟩ : Rat2)
  match r.no with
  | 1 => [8, 9, 10, 11, 12, 13, 14, 15].flatMap fun c =>
      let e := d.tpExpect c 0
      [⟨true, c - 7, e⟩, ⟨true, c - 7, if c = 13 ∨ c = 15 then e.mul ⟨2, 1⟩ else e⟩]
  | 2 => [⟨false, 1, int (-8192)⟩, ⟨false, 1, int 0⟩, ⟨false, 1, int 8192⟩, ⟨false, 2, ⟨32768 * 2, 5⟩⟩, ⟨true, 2, uv 1000000⟩,
      ⟨false, 2, ⟨32768 * 4, 5⟩⟩, ⟨true, 2, uv 2000000⟩]
  | 3 => [⟨false, 1, int 0⟩, ⟨false, 1, int 8192⟩, ⟨false, 2, int 0⟩, ⟨false, 2, int 8192⟩]
  | 4 => List.replicate 4 ⟨true, 1, uv 900000⟩
  | 5 => ⟨false, 1, int 0⟩ :: (List.replicate 17 ⟨true, 2, uv Config.chainSupply⟩ ++ List.replicate 17 ⟨true, 3, int 0⟩)
  | 6 => [⟨false, 1, uv 2500000⟩, ⟨false, 1, uv 1650000⟩, ⟨false, 1, f32Val (d.rdi D.DT_MS 0 (r.unit / 4))⟩, ⟨false, 1, uv 1250000⟩,
      ⟨false, 1, int 0⟩] ++ ((List.range 12).filter fun i => bit r.arg i).flatMap fun i =>
        [⟨false, 2 + i, int 0⟩, ⟨true, 2 + i, int 0⟩]
  | 7 => [⟨false, 1, int 0⟩]
  | 8 => [⟨false, 1, int 0⟩]
  | 9 => [⟨false, 1, int 0⟩]
  | _ => [⟨true, 1, int 1000⟩]

/-- Whether a rational lies within `tol` of `c`. -/
def Rat2.near (x c tol : Rat2) : Bool := (x.sub c).abs.le tol

/-- Windows of R496 at TPA and of R454 on the board for codes 8 to 15: nominal in µV at TPA, half-width, factor on the
board. -/
def ftRails : List (Int × Int × Int) :=
  [(750000, 23000, 1), (750000, 23000, 1), (900000, 27000, 1), (1200000, 36000, 1), (1800000, 54000, 1), (1650000, 49500, 2),
   (1800000, 54000, 1), (1650000, 49500, 2)]

/-- The verdict on one rail: 0 passed, 2 chip, 3 board (R502). -/
def ftRail (i : Nat) (tp board : Rat2) : Nat :=
  let (c, w, k) := ftRails.getD i (0, 0, 1)
  let ok := fun (x : Rat2) (f : Int) => x.near ⟨c * f, 1000000⟩ ⟨w * f, 1000000⟩
  if ok tp 1 then 0 else if ok board k then 2 else 3

/-- The first rail that fails among the pairs of entries made. -/
def ftRailsVerdict : Nat → List Int → Option (Nat × Nat)
  | i, a :: b :: rest =>
    match ftRail i (f64Val a) (f64Val b) with
    | 0 => ftRailsVerdict (i + 1) rest
    | v => some (v, i + 8)
  | i, _ => if 8 ≤ i then some (1, 0) else none

/-- The verdict of the channel loop test on its readings so far (R503). -/
def ftLoop (vs : List Int) : Option (Nat × Nat) :=
  let v := fun (i : Nat) => vs.getD i 0
  let have_ := fun (i : Nat) => decide (i < vs.length)
  let code := fun (i : Nat) (e : Int) => have_ i && decide (24 < (v i - e).natAbs)
  let volt := fun (i : Nat) (e : Int) => have_ i && !(f64Val (v i)).near ⟨e, 1⟩ ⟨3, 1000⟩
  if code 0 (-8192) || code 1 0 || code 2 8192 || volt 4 1 || volt 6 2 then some (2, 0)
  else if vs.length < 7 then none
  else
    let k := (⟨(v 5 - v 3) * 5, 65536⟩ : Rat2).div ((f64Val (v 6)).sub (f64Val (v 4)))
    let rest := (⟨1, 1⟩ : Rat2).sub k
    let det := if k.lt ⟨1, 1⟩ then ((k.div rest).scale 1000).toNat % 2 ^ 32 else 0
    some (if k.lt ⟨988, 1000⟩ then 3 else if (⟨1002, 1000⟩ : Rat2).lt k then 2 else 1, det)

/-- The verdict of the test of the test DAC into the sense (R502). -/
def ftSense (vs : List Int) : Option (Nat × Nat) :=
  let v := fun (i : Nat) => vs.getD i 0
  let bad := fun (i : Nat) (e : Int) => decide (i < vs.length) && decide (24 < (v i - e).natAbs)
  if bad 0 0 || bad 1 8192 then some (2, 0)
  else if vs.length < 4 then none
  else
    let k := (⟨v 3 - v 2, 1⟩ : Rat2).div ⟨v 1 - v 0, 1⟩
    some (if k.lt ⟨909, 1000⟩ then 3 else if (⟨1001, 1000⟩ : Rat2).lt k then 2 else 1, 0)

/-- The verdict of the gate test on pairs of entries, ball side and driver input (R502). -/
def ftGates : Nat → List Int → Option (Nat × Nat)
  | i, a :: b :: rest =>
    let ok := fun (x : Int) => (f64Val x).near ⟨9, 10⟩ ⟨5, 100⟩
    if !ok a then some (4, 0) else if !ok b then some (3, 0) else ftGates (i + 1) rest
  | i, _ => if 2 ≤ i then some (1, 0) else none

/-- The verdict of the range-link loopback test (R502). -/
def ftChain (vs : List Int) : Option (Nat × Nat) :=
  if vs.length < 35 then none
  else
    let sup : Rat2 := ⟨Config.chainSupply, 1000000⟩
    let one := fun (x : Int) => (f64Val x).near sup ⟨1, 10⟩
    let zero := fun (x : Int) => (f64Val x).lt ⟨1, 10⟩
    let first := (vs.headD 0).toNat
    let dat := one (vs.getD 1 0)
    let reg := (List.range 16).find? fun i => !one (vs.getD (2 + i) 0) || !zero (vs.getD (19 + i) 0)
    let datBad := !dat || !zero (vs.getD 18 0)
    let stage := match reg with
      | some i => if first = 0 then 8 * i + 1 else min first (8 * i + 1)
      | none => if first = 0 && datBad then 1 else first
    if stage = 0 then some (1, 0) else if first = 1 && !dat then some (2, stage) else some (3, stage)

/-- The verdict of the aux test (R502): readings in the order of `ftAsks`, volts in µV, the die in 10^-3 °C. -/
def Dev.ftAux (d : Dev) (r : FtRun) : Option (Nat × Nat) :=
  let vs := r.vals
  if vs.length < (d.ftAsks r).length then none
  else
    let v := fun (i : Nat) => vs.getD i 0
    let off := fun (i : Nat) (c t : Int) => decide (t < (v i - c).natAbs)
    let die := !(⟨v 2, 1000⟩ : Rat2).near (f32Val (d.rdi D.DT_MS 0 (r.unit / 4))) ⟨5, 1⟩
    let pairs := ((List.range 12).filter fun i => bit r.arg i).zipIdx
    let wrong := pairs.filter fun x =>
      let dev : Rat2 := ⟨v (5 + 2 * x.2), 1000000⟩
      let met := f64Val (v (6 + 2 * x.2))
      !dev.near met ((met.abs.mul ⟨1, 100⟩).add ⟨2, 1000⟩)
    let bad := (if off 0 2500000 25000 then [16] else []) ++ (if off 1 1650000 33000 then [17] else []) ++
      (if die then [18] else []) ++ (if off 3 1250000 6250 then [19] else []) ++
      (if decide (5 < v 4) then [20] else []) ++ wrong.map Prod.fst
    if bad = [] then some (1, 0) else some (2, bad.foldl (fun m s => setBit m s true) 0)

/-- Bits that a lane carries in 60 s of PRBS31 in a PORT_MODE, and whether it uses PAM4 (R338, R502). -/
def prbsBits (mode : Nat) : Nat × Bool :=
  match mode with
  | 1 => (618750000000, false)
  | 2 => (1546875000000, false)
  | 3 => (3187500000000, true)
  | _ => (6375000000000, true)

/-- The verdict of a test on what it has read so far: FT_RESULT and FT_DETAIL, none while it goes on (R502). -/
def Dev.ftVerdict (d : Dev) (r : FtRun) : Option (Nat × Nat) :=
  let v := r.vals.headD 0
  match r.no with
  | 1 => ftRailsVerdict 0 r.vals
  | 2 => ftLoop r.vals
  | 3 => ftSense r.vals
  | 4 => ftGates 0 r.vals
  | 5 => ftChain r.vals
  | 6 => d.ftAux r
  | 7 =>
    if r.vals = [] then none
    else
      let m := bitMap (fun c => decide ((d.conv r.unit c).result = 2)) 34
      some (if m = 0 then 1 else 2, m % 2 ^ 32)
  | 8 =>
    if r.vals = [] then none
    else
      let b := prbsBits (d.rdN D.PORT_MODE r.unit)
      let ok := if b.2 then decide (v * 100000 < b.1) else v == 0
      some (if ok then 1 else if r.arg = 0 then 2 else 3, v.toNat % 2 ^ 32)
  | 9 =>
    if r.vals = [] then none
    else
      let pass := decide (((d.rd S.LAST_DIFF r.unit).natAbs : Int) ≤ d.rd S.MATCH_LIMIT r.unit) &&
        decide ((d.conv r.unit r.convs.1).result = 1) && decide ((d.conv r.unit r.convs.2).result = 1)
      some (if pass then 1 else 2, 0)
  | _ =>
    if r.vals = [] then none
    else
      let f := f64Val v
      let sys := (f64Val (d.rd D.SYSCLK_MEAS 0)).near ⟨100000000, 1⟩ ⟨10000, 1⟩
      some (if f.near ⟨1000, 1⟩ ⟨1, 10⟩ then 1 else if f.near ⟨9, 10⟩ ⟨5, 100⟩ then 4 else if sys then 2 else 3, 0)

/-! ### Running a test (R500–R502) -/

/-- Whether the unit of a test meets its condition (R502). -/
def Dev.ftReady (d : Dev) (p : Party) (no unit arg : Nat) : Status :=
  let off := decide ((d.ch unit).ctl.st = .off)
  let still := fun (r : Rng) => r.ph == .steady
  match no with
  | 1 => .ok
  | 2 => Status.state.when (!(decide (unit < 256) && off && !d.sePin (stoveOf unit)))
  | 3 => Status.state.when (!(decide (unit < 256) && (off || decide ((d.ch unit).ctl.st = .monitor))))
  | 4 => Status.state.when (!(decide (unit < 256) && off && !d.sePin (stoveOf unit)))
  | 5 => Status.state.when (!(decide (unit < 16) && !(d.st unit).fenced &&
      (List.range 16).all fun i => let c := d.ch (16 * unit + i); c.ctl.st == .off && still c.rngI && still c.rngV))
  | 6 => Status.state.when (!(decide (unit < 16) && d.pdOn (256 + unit)))
  | 7 => Status.state.when (!(decide (unit < 16) && decide (d.rd D.SC_STATUS 0 ≠ 1)))
  | 8 => Status.state.when (2 ≤ unit || p.port? = some unit || 2 ≤ arg)
  | 9 =>
    let c := d.ch (16 * unit + arg / 2)
    let ph := (d.st unit).rot.ph
    Status.state.when (!(decide (unit < 16) && decide (arg < 32) && (c.ctl.st == .off || c.ctl.st == .monitor) &&
      (ph == .waiting || ph == .disabled)))
  | _ => Status.busy.when (16 ≤ arg || d.flag D.CMP_EN 15 || bit (d.rdiN D.EVO_CFG 0 arg) 31)

/-- A place of the dictionary as it stands. -/
def Dev.keepPlace (d : Dev) (o : Obj) (u i : Nat) : Nat × Option Int := (o.key u i, SMap.look d.dict (o.key u i))

/-- The places a test changes (R501). -/
def Dev.ftSaves (d : Dev) (no unit arg : Nat) : List (Nat × Option Int) :=
  let k := stoveOf unit
  match no with
  | 1 => [d.keepPlace D.TPA_SRC 0 0]
  | 2 => [d.keepPlace S.TD_CODE k 0, d.keepPlace S.TD_ROUTE k 0, d.keepPlace S.TD_CHANNEL k 0]
  | 3 => [d.keepPlace S.TD_CODE k 0, d.keepPlace S.TD_ROUTE k 0, d.keepPlace S.TD_CHANNEL k 0]
  | 6 => [d.keepPlace S.TD_CODE unit 0]
  | 9 => [d.keepPlace S.ROT_NEXT unit 0]
  | 10 => [d.keepPlace D.EVO_CFG 0 arg, d.keepPlace D.CMP_EN 15 0, d.keepPlace D.CMP_TB 15 0, d.keepPlace D.CMP_TIME 15 0,
      d.keepPlace D.CMP_PERIOD 15 0, d.keepPlace D.CMP_HITS 15 0, d.keepPlace D.CMP_SKIPPED 15 0]
  | _ => []

/-- What a test sets before its reading number `n` (R502, R503). -/
def Dev.ftSet (d : Dev) (r : FtRun) (n : Nat) : Dev :=
  let k := stoveOf r.unit
  let td := fun (route code : Nat) => ((d.wr S.TD_ROUTE k route).wr S.TD_CODE k code).wr S.TD_CHANNEL k (posOf r.unit)
  let dac := fun (c : Nat) => (d.wr S.TD_ROUTE k 0).modCtl r.unit fun x => { x with dac := c }
  match r.no with
  | 1 => d.wr D.TPA_SRC 0 (8 + n / 2 : Nat)
  | 2 => match n with
    | 0 => td 1 256
    | 1 => td 1 512
    | 2 => td 1 768
    | 3 => dac 349525
    | 5 => dac 699051
    | _ => d
  | 3 => match n with
    | 0 => td 1 512
    | 1 => td 1 768
    | 2 => td 2 512
    | _ => td 2 768
  | 6 => if n = 0 then d.wr S.TD_CODE r.unit 512 else d
  | 10 => if n ≠ 0 then d else
    ((((d.wri D.EVO_CFG 0 r.arg 0xA0000064).wr D.CMP_TB 15 2).wr D.CMP_PERIOD 15 500000).wr D.CMP_TIME 15 (d.now2 + 500000 : Nat)).wr
      D.CMP_EN 15 1
  | _ => d

/-- The test's next reading asked for: FT_STEP, FT_EXPECT and FT_STATE (R500). -/
def Dev.ftNext (d : Dev) (r : FtRun) : Dev :=
  let n := r.vals.length
  match (d.ftAsks r)[n]? with
  | none => d
  | some a =>
    let d1 := { d.ftSet r n with ft := some { r with since := d.clk.cc } }
    ((d1.wr D.FT_STEP 0 a.step).wr D.FT_EXPECT 0 a.expect.f32).wr D.FT_STATE 0 (if a.entry then 2 else 1)

/-- A test ended with its verdict; a port's link restarts (R501, R502). -/
def Dev.ftFinish (d : Dev) (r : FtRun) (res det : Nat) : Dev :=
  let d1 := (d.ftEnd res).wr D.FT_DETAIL 0 det
  if r.no = 8 then d1.restartLink r.unit else d1

/-- A test started on its unit (R501, R502). -/
def Dev.ftBegin (d : Dev) : Dev :=
  let no := d.rdN D.FT_SEL 0
  let unit := d.rdN D.FT_UNIT 0
  let arg := d.rdN D.FT_ARG 0
  let r : FtRun := { no := no, unit := unit, arg := arg, saved := d.ftSaves no unit arg }
  let d1 := [D.FT_RESULT, D.FT_VALUE, D.FT_EXPECT, D.FT_DETAIL].foldl (fun (e : Dev) o => e.wr o 0 0) d
  match no with
  | 7 => (d1.selfcal .console).ftNext r
  | 8 => ((d1.modPort unit fun x => { x with link := 0 }).ftNext r)
  | 9 =>
    match d1.freeSpare unit with
    | none => ({ d1 with ft := some r }).ftFinish r 4 0
    | some c =>
      let h := d1.holder unit arg
      ((d1.wr S.ROT_NEXT unit arg).rotStart unit).ftNext { r with convs := (c, h) }
  | _ => d1.ftNext r

/-- A write of FT_CMD: 1 starts the selected test, 2 stops the one that runs (R500, R501). -/
def Dev.ftCmd (d : Dev) (p : Party) (v : Int) : Dev :=
  let no := d.rdN D.FT_SEL 0
  let x := if v = 1 then (if d.ft.isSome then .busy else d.ftReady p no (d.rdN D.FT_UNIT 0) (d.rdN D.FT_ARG 0)) else .ok
  d.write p D.FT_CMD 0 0 v x fun e =>
    if v = 1 then e.ftBegin
    else match e.ft with
      | some r => e.ftFinish r 5 0
      | none => e

/-- FT_START (R501). -/
def execFtStart (p : Party) (s : State) : Host.Outcome State Fault Refusal := .next (s.on fun d => d.ftCmd p 1)

/-- FT_STOP (R501). -/
def execFtStop (p : Party) (s : State) : Host.Outcome State Fault Refusal := .next (s.on fun d => d.ftCmd p 2)

/-- A reading taken: the test goes on, or ends with its verdict (R502). -/
def Dev.ftTake (d : Dev) (r : FtRun) (v : Int) (f32 : Int) : Dev :=
  let r1 := { r with vals := r.vals ++ [v] }
  let d1 := { d with ft := some r1 }.wr D.FT_VALUE 0 f32
  match d1.ftVerdict r1 with
  | some (res, det) => d1.ftFinish r1 res det
  | none => d1.ftNext r1

/-- Whether the present step's measurement can end: a self-calibration or a rotation it waits for is over (R502). -/
def Dev.ftOver (d : Dev) (r : FtRun) : Bool :=
  let ph := (d.st r.unit).rot.ph
  match r.no with
  | 7 => decide (d.rd D.SC_STATUS 0 ≠ 1)
  | 9 => ph == .waiting || ph == .disabled || ph == .paused
  | _ => true

/-- F32 bits of a measured reading: volts where the test reads in µV, °C for the die, else the number itself. -/
def FtRun.valueF32 (r : FtRun) (v : Int) : Int :=
  if r.no ≠ 6 then toF32 v 1
  else if r.vals.length = 2 then toF32 v 1000
  else if r.vals.length = 4 then toF32 v 1
  else toF32 v 1000000

/-- FT_STEP_DONE: the device's own reading of the step (R502). -/
def Dev.ftStepDone (d : Dev) (v : Int) : Dev :=
  match d.ft with
  | none => d
  | some r =>
    if d.rd D.FT_STATE 0 ≠ 1 || !d.ftOver r then d
    else
      let d1 := if r.no = 8 then d.reachCc (r.since + 60 * d.clk.fcore) else d
      d1.ftTake r v (r.valueF32 v)

/-- FT_STEP_DONE (R502). -/
def execFtStepDone (value : Int) (s : State) : Host.Outcome State Fault Refusal := .next (s.on fun d => d.ftStepDone value)

/-- A write of FT_ENTRY: a meter reading for the step that waits (R500). -/
def Dev.ftEntry (d : Dev) (p : Party) (v : Int) : Dev :=
  d.write p D.FT_ENTRY 0 0 v (Status.state.when (d.rd D.FT_STATE 0 ≠ 2)) fun e =>
    match e.ft with
    | some r => e.ftTake r v (f64Val v).f32
    | none => e

/-- FT_ENTRY_WRITE (R500). -/
def execFtEntryWrite (p : Party) (v : Int) (s : State) : Host.Outcome State Fault Refusal :=
  .next (s.on fun d => d.ftEntry p v)

/-- FT_ENTRY_TIMEOUT: an entry has waited for more than 600 s (R501). -/
def execFtEntryTimeout (s : State) : Host.Outcome State Fault Refusal :=
  .next (s.on fun d =>
    match d.ft with
    | some r => if d.rd D.FT_STATE 0 = 2 then (d.reachCc (r.since + 600 * d.clk.fcore + 1)).ftFinish r 5 0 else d
    | none => d)

end Sys2Proof.Machine
end

