-- ==== Sys2Proof/Machine/Reads.lean ====
section
/-! DEFINITION. What every object of the dictionary reads as: the value kept for it, or the state it shows (R36–R504). -/

namespace Sys2Proof.Machine

open Sys2Proof

/-- The bits of `f` from 0 to `n` − 1, as a number. -/
def bitsOf (f : Nat → Bool) (n : Nat) : Nat := foldUp (fun a i => a + 2 ^ i * b2n (f i)) 0 n

/-! ### Channels -/

/-- CTL_FLAGS of a unit; of a hearth, its leader's live status, and the sticky flags of its active leaves with its own
(R63, R388). -/
def Dev.ctlFlagsOf (d0 : Dev) (u : Nat) : Nat :=
  let d := d0.syncTarget u (d0.lastSlot u)
  if u < 256 then d.ctlFlags u
  else
    let sticky := (d.active u).foldl (fun a l => a ||| (d.ch l).ctl.sticky) (d.ch u).ctl.sticky
    let live := match d.leaderOf u with
      | some l => d.ctlFlags l / 2 ^ 16
      | none => 0
    live * 2 ^ 16 + sticky

/-- A counter of CTL_COUNT, of a hearth the sum over its active leaves, saturating (R388). -/
def Dev.ctlCount (d : Dev) (o : Obj) (u w : Nat) : Nat :=
  if u < 256 then d.rdN o u else min (2 ^ w - 1) ((d.active u).foldl (fun a l => a + d.rdN o l) 0)

/-- HS_FLAGS (R120). -/
def Dev.hsFlags (d : Dev) (h : Nat) : Nat :=
  let moving := fun (r : Rng) => match r.ph with | .steady => false | _ => true
  let ranging := (d.leaves h).any fun l => moving (d.ch l).rngI || moving (d.ch l).rngV
  (d.rdN C.HS_FLAGS h &&& 0xE) + b2n (decide (0 < d.levelOf h)) + 16 * b2n ranging + 32 * b2n (d.ilNow h)

/-- MFLAGS: those of the last aperture and STALE (R144). -/
def Dev.mflags (d : Dev) (o : Obj) (u : Nat) : Nat := (d.rdN o u &&& 0xFFFD) + 2 * b2n (d.ch u).meas.stale

/-- CONV_FLAGS (R165). -/
def Dev.convFlags (d : Dev) (u : Nat) : Nat :=
  let m := (d.ch u).meas
  let low := b2n m.stale + 256 * b2n (d.flag C.LP_MODE u) + 512 * b2n m.settle.isSome
  if 256 ≤ u then low
  else
    let k := stoveOf u
    let s := d.st k
    let r := fun (volt : Bool) => roleOf u volt
    let bad := fun (volt : Bool) => (d.conv k (d.holder k (r volt))).failed
    let rot := s.rot.ph == .matching && (s.rot.role == r true || s.rot.role == r false)
    low + 2 * b2n rot + 4 * b2n (bit s.subst (r true)) + 8 * b2n (bit s.subst (r false)) + 16 * b2n (bad true) +
      32 * b2n (bad false) + 64 * b2n (bit s.suspect (r true)) + 128 * b2n (bit s.suspect (r false))

/-- ACC_STATUS of CHARGE or ENERGY (R152). -/
def Accu.statusBits (a : Accu) : Nat := b2n a.run + 2 * b2n a.sat + 4 * b2n a.miss


/-- SQ_FLAGS: the sticky flags and what runs (R193). -/
def Dev.sqFlags (d : Dev) (u : Nat) : Nat :=
  let q := d.sq u
  (d.rdN C.SQ_FLAGS u &&& 0xF) + 256 * b2n q.sine.isSome + 512 * b2n q.play.isSome + 1024 * b2n q.sweep.isSome

/-- SINE_PHASE: the phase at the last sample edge, in 2^-32 turns (R194, R214). -/
def Dev.sinePhase (d : Dev) (u : Nat) : Nat :=
  match (d.sq u).sine with
  | none => 0
  | some s => s.phase (d.rdN C.EPOCH u) (d.cvAt (d.ch u).meas.edge) / 2 ^ 16

/-- SEQ_STATUS and SEQ_PTR PC, by subindex of C.22; 0 is PC (R192, R193). -/
def Dev.sqField (d : Dev) (u sub : Nat) : Int :=
  let q := d.sq u
  match sub with
  | 0 => q.pc
  | 1 => q.st.code
  | 2 => q.err
  | 3 => d.sqFlags u
  | 4 => q.steps
  | 5 => ((q.sweep.map Sweep.idx).getD 0 : Nat)
  | 6 => ((q.play.map Play.seg).getD 0xFFFF : Nat)
  | 7 => ((q.play.bind Play.next).getD 0xFFFF : Nat)
  | 8 => q.jumpStatus
  | 10 => q.loops.length
  | 11 => q.calls.length
  | 12 => ((q.loops.head?.map Prod.snd).getD 0 : Nat)
  | 13 => q.cond
  | 14 => q.startTime
  | _ => 0

/-- ACQ_STATUS by subindex (R258). -/
def Dev.acqField (d : Dev) (u sub : Nat) : Int :=
  let a := d.aq u
  match sub with
  | 1 => a.st.code
  | 2 => a.err
  | 3 => a.capSeq
  | 5 => a.ring.length
  | 6 => a.postN
  | 7 => a.lost
  | 8 => a.lastViol
  | 9 => a.lastTrig
  | _ => a.lastFlags

/-- HEARTH_STATE and the counts of HEARTH_DEF, by offset and subindex (R116, R120). -/
def Dev.hearthField (d : Dev) (h off sub : Nat) : Int :=
  if off = 0x38 then
    match sub with
    | 1 => (d.members h).length
    | 2 => (d.leaves h).length
    | _ => d.levelOf h
  else
    match sub with
    | 1 => d.hsFlags h
    | 2 => (bitsOf (fun e => match d.member h e with
        | some m => if m < 256 then (d.active h).contains m else (d.leaves m).any (d.active h).contains
        | none => false) 64 : Nat)
    | 3 => (d.active h).length
    | 4 => ((d.leaderOf h).getD 0xFFFF : Nat)
    | 5 => (d.capacity h).f32
    | 6 => (d.icNow h).1
    | 7 => (d.icNow h).2
    | _ => d.shareLag h

/-- RANGE_MAP of a hearth: patterns 0, its full scales, the ranges present in every leaf, the leader's T_MAKE (R121,
R387). -/
def Dev.hearthRange (d : Dev) (h off sub : Nat) : Int :=
  if off = 0x30 then 0
  else if off = 0x31 then (if sub ≤ 8 then d.fs h false (sub - 1) else d.fs h true (sub - 9)).f32
  else match sub with
    | 1 => d.ranges h false
    | 2 => d.ranges h true
    | _ => match d.leaderOf h with | some l => d.rd C.T_MAKE l | none => d.rd C.T_MAKE h

/-- The factors in force for the range in force of one variable, by place (R405). -/
def Factors.field (f : Factors) (i : Nat) : Int :=
  match i with
  | 0 => f.o
  | 1 => f.g
  | _ => f.k2

/-- What an object of a channel shows beside the values kept in the dictionary, by offset and subindex (R387, R388). -/
def Dev.liveChan (d : Dev) (u off sub : Nat) : Option Int :=
  let c := d.ch u
  match off with
  | 0x00 => some c.ctl.st.code
  | 0x03 => some (d.setpointNow u)
  | 0x05 => match sub with
    | 3 => some c.rngI.now
    | 4 => some c.rngV.now
    | 5 => some (d.rangeStatus u : Nat)
    | _ => none
  | 0x08 => if sub = 6 then some (d.bandNow (d.regUnit u)) else none
  | 0x09 => if sub = 2 then some ((d.ch (d.regUnit u)).ctl.fswMeas d.clk.fcv) else none
  | 0x0A => some (d.ctlFlagsOf u : Nat)
  | 0x0E => match sub with
    | 1 => some (d.ctlCount C.MISS_COUNT u 32 : Nat)
    | 2 => some (d.ctlCount C.HANDOVER_COUNT u 32 : Nat)
    | 3 => some (d.ctlCount C.OSC_COUNT u 16 : Nat)
    | _ => none
  | 0x10 => if sub = 5 then some (d.mflags C.V_MFLAGS u : Nat) else none
  | 0x11 => if sub = 5 then some (d.mflags C.I_MFLAGS u : Nat) else none
  | 0x13 => match sub with
    | 1 => some (accF64 false (d.accu u false).val : Nat)
    | 4 => some ((d.accu u false).statusBits : Nat)
    | 5 => some ((d.accu u false).since : Nat)
    | 6 => some ((d.accu u false).held : Nat)
    | _ => none
  | 0x14 => match sub with
    | 1 => some (accF64 true (d.accu u true).val : Nat)
    | 4 => some ((d.accu u true).statusBits : Nat)
    | 5 => some ((d.accu u true).since : Nat)
    | 6 => some ((d.accu u true).held : Nat)
    | _ => none
  | 0x15 => if sub = 9 then some (d.liStatus u : Nat) else none
  | 0x18 => match sub with
    | 1 => some (d.convFlags u : Nat)
    | 2 => some ((if u < 256 then d.holder (stoveOf u) (roleOf u true) else 0xFF : Nat) : Int)
    | 3 => some ((if u < 256 then d.holder (stoveOf u) (roleOf u false) else 0xFF : Nat) : Int)
    | _ => none
  | 0x20 => if sub = 2 then some (d.sqField u 0) else none
  | 0x22 => if sub = 9 then none else some (d.sqField u sub)
  | 0x23 => match sub with
    | 5 => some (((d.sq u).sine.map Sine.f).getD 0 : Nat)
    | 6 => some (d.sinePhase u : Nat)
    | _ => none
  | 0x25 => if sub = 4 || sub = 10 then none else some (d.acqField u sub)
  | 0x29 => match sub with
    | 1 => some (d.csFlags u : Nat)
    | 2 => some (d.setsUsed u true : Nat)
    | 3 => some (d.setsUsed u false : Nat)
    | 4 => none
    | n => some (if n ≤ 7 then (d.factNow u true).field (n - 5) else (d.factNow u false).field (n - 8))
  | 0x2A => if sub = 4 then some (b2i (d.frozen u)) else none
  | 0x2C => if sub = 9 then some (d.standing u : Nat) else none
  | 0x30 => if 256 ≤ u then some (d.hearthRange u off sub) else none
  | 0x31 => if 256 ≤ u then some (d.hearthRange u off sub) else none
  | 0x32 => if 256 ≤ u then some (d.hearthRange u off sub) else none
  | 0x38 => if sub ≤ 3 then some (d.hearthField u off sub) else none
  | 0x39 => some (d.hearthField u off sub)
  | _ => none

/-! ### Stoves -/

/-- IDLE_CC: core cycles per cv beside the 16 slots, in the shorter cv (R18, R390). -/
def Clock.idleCc (c : Clock) : Nat := c.fcore / max 1 c.fcv - 16

/-- What an object of a stove shows beside the values kept in the dictionary (R389, R390). -/
def Dev.liveStove (d : Dev) (k off sub : Nat) : Option Int :=
  let s := d.st k
  let ch := fun (i : Nat) => (d.ch (16 * k + i)).ctl.st
  match off with
  | 0x00 => match sub with
    | 1 => some ((if !d.pdOn (256 + k) then 0 else if s.fenced then 2 else 1 : Nat) : Int)
    | 4 => some (bitsOf (fun i => ch i == .source || ch i == .hold) 16 : Nat)
    | 5 => some (bitsOf (fun i => ch i == .fenced) 16 : Nat)
    | 6 => some (bitsOf (fun i => d.isMember (16 * k + i)) 16 : Nat)
    | 8 => some (d.clk.idleCc : Nat)
    | _ => none
  | 0x04 => match sub with
    | 5 => some s.rot.ph.code
    | 6 => some s.rot.role
    | 10 => some (((List.range 34).filter fun c => (d.conv k c).role == 0x40).length : Nat)
    | n => if 16 ≤ n then some (d.conv k (n - 16)).role else none
  | 0x05 => match sub with
    | 2 => some (b2i (d.sePin k))
    | 3 => some (d.seBlock k : Nat)
    | _ => none
  | 0x06 => if sub = 1 then some (b2i s.ilk) else none
  | 0x07 => if sub = 6 then some (d.auxState k : Nat) else none
  | 0x08 => if sub = 13 then some (bitsOf (fun i => bit s.cmp i && bit (d.rdiN S.CMP k i) 15) 12 : Nat) else none
  | 0x0A => if sub = 9 then some (d.standing (0x1000 + k) : Nat) else none
  | _ => none

/-! ### The device -/

/-- The segment, flue, source, input and unit a party has selected. -/
def Dev.trimSel (d : Dev) (p : Party) : Nat × Nat :=
  let n := d.rdpN p D.TRIM_SEL 0
  (bits n 11 8, bits n 5 0)

/-- A subindex of ADC_TRIM as a party reads it; the stage factors of a pass are free values (R163, log 8). -/
def Dev.trimField (d : Dev) (p : Party) (sub : Nat) : Int :=
  let x := d.trimSel p
  let c := d.conv x.1 x.2
  let free := fun (w n : Nat) => if c.fact = 0 then 0 else (Config.freeValue w (c.fact - 1 + n)).toNat
  if sub ≤ 15 then ofTwos 16 (free 16 (sub - 2))
  else match sub with
    | 16 => ofTwos 32 (free 32 14)
    | 17 => (free 16 15 : Nat)
    | 18 => c.result
    | 19 => c.time
    | 20 => c.matchOfs
    | _ => c.matchGain

/-- A subindex of SEG_DESC as a party reads it (R189, R190). -/
def Dev.segField (d : Dev) (m : Mem) (p : Party) (sub : Nat) : Int :=
  let n := d.rdpN p D.SEG_SEL 0
  let g := d.seg n
  match sub with
  | 1 => g.kind
  | 2 => g.next
  | 3 => g.len
  | 4 => b2i g.filled
  | 5 => g.ufAction
  | 6 => g.safeSeg
  | 7 => (d.segActive n : Nat)
  | _ => (crc32 (Mem.bytes 0 m (4096 * n) 4096) : Nat)

/-- A subindex of OWNERSHIP as a party reads it (R369). -/
def Dev.ownField (d : Dev) (p : Party) (sub : Nat) : Int :=
  let u := d.rdpN p D.OWN_SEL 0
  match sub with
  | 2 => (d.ownPort u : Nat)
  | 3 => (d.ownRec u).west.epoch
  | 5 => (d.ownRec u).west.word
  | 6 => (d.ownRec u).east.word
  | 7 => (d.ownCheckState : Nat)
  | 8 => d.splits.length
  | 9 => d.rd D.OWN_CHECKS 0
  | _ => u

/-- ACCESS_RATE: the accesses of the last whole second (R342, R357). -/
def Dev.accessRate (d : Dev) (n : Nat) : Int :=
  let x := d.port n
  let now := d.clk.cc / max 1 d.clk.fcore
  if now = x.second then d.rd D.ACCESS_RATE n else if now = x.second + 1 then x.accs else 0

/-- SC_ELAPSED (R159). -/
def Dev.scElapsed (d : Dev) : Int :=
  match d.cals.find? fun r => r.selfcal with
  | some r => ((d.clk.tick + calTicks - r.due : Nat) : Int)
  | none => d.rd D.SC_ELAPSED 0

/-- Windows of a party in the device block: what a selector of its own names (R382). -/
def Dev.liveWindow (d : Dev) (m : Mem) (p : Party) (index sub : Nat) : Option Int :=
  match index with
  | 0x2412 => if sub = 1 then none else some (d.trimField p sub)
  | 0xA001 => some (d.segField m p sub)
  | 0x2501 => some ((d.qu (d.qSel p)).field sub : Nat)
  | 0x2202 => match sub with
    | 2 => some (d.routeOf (d.rdpN p D.SRC_SEL 0) : Nat)
    | 3 => some (SMap.get 0 d.srcCount (d.rdpN p D.SRC_SEL 0) : Nat)
    | _ => none
  | 0x2203 =>
    let c := d.cons (d.rdpN p D.CONS_SEL 0)
    match sub with
    | 2 => some c.gate
    | 3 => some c.status
    | 4 => some c.overruns
    | 5 => some c.merges
    | 6 => some c.gated
    | _ => none
  | 0x2204 =>
    let f := d.rdpN p D.F_SEL 0
    let x := d.flue f
    match sub with
    | 1 => some (b2i (d.flueLevel f))
    | 2 => some (b2i x.soft)
    | 3 => some x.events
    | 4 => some x.merges
    | 5 => some x.last
    | _ => some x.lastGen
  | 0x2302 => some (d.fcRead p sub)
  | 0x2010 => if sub = 1 then none else some (d.ownField p sub)
  | _ => none

/-- TIME_BASE by subindex (R315, R316, R320). -/
def TimeBase.field (b : TimeBase) (sub : Nat) : Option Int :=
  match sub with
  | 3 => some b.inc
  | 7 => some b.flags
  | 12 => some b.servo.code
  | 13 => some b.refusedOfs
  | 14 => some b.steps
  | 15 => some (odiv 320 b.freq 64)
  | _ => none

/-- PWR_DOMAIN by subindex (R465). -/
def Dev.pdField (d : Dev) (sub : Nat) : Int :=
  match sub with
  | 6 => (bits d.pd 271 256 : Nat)
  | 7 => (bits d.pd 279 272 : Nat)
  | 8 => (bits d.pd 299 280 : Nat)
  | 9 => b2i (d.pwr.switches != [])
  | n => (bits d.pd (64 * (n - 2) + 63) (64 * (n - 2)) : Nat)

/-- IDENTITY where the factory sets it (R384). -/
def identity (sub : Nat) : Option Int :=
  match sub with
  | 3 => some (if Config.gradeE then 0x452D363532564D else 0x432D363532564D)
  | 4 => some (b2i Config.gradeE)
  | 5 => some (Config.serial % 2 ^ 64 : Nat)
  | 6 => some (Config.macBase % 2 ^ 48 : Nat)
  | 7 => some (Config.logicRev % 2 ^ 16 : Nat)
  | 12 => some (Config.dateCode % 2 ^ 16 : Nat)
  | n => if 8 ≤ n && decide (n ≤ 11) then some (Config.msRev (n - 8) % 2 ^ 16 : Nat) else none

/-- Fault objects that show the collector's state (R435, R440, R444). -/
def Dev.faultField (d : Dev) (index sub : Nat) : Option Int :=
  match index, sub with
  | 0x2300, 5 => some (d.worst : Nat)
  | 0x2300, 6 => some (((List.range 384).filter fun u => (d.ch u).ctl.st == .fenced).length : Nat)
  | 0x2300, 7 => some (bitsOf (fun k => (d.st k).fenced) 16 : Nat)
  | 0x2300, 8 => some (d.portFenced + 4 * d.halfFenced : Nat)
  | 0x2306, 2 => some (b2i d.fltLow)
  | 0x2304, 1 => some d.hist.records.length
  | 0x2304, 2 => some d.hist.newest
  | 0x2304, 5 => some d.flt.pending.length
  | 0x2304, 7 => some (d.histState : Nat)
  | _, _ => none

/-- What an object of the device block shows beside the values kept in the dictionary, read by party `p` (R383). -/
def Dev.liveDev (d : Dev) (m : Mem) (p : Party) (index sub : Nat) : Option Int :=
  let n := index % 16
  if index = 0x1000 then identity sub
  else if index / 2 = 0x1100 / 2 then (if sub = 5 then some (d.mac (index % 2) : Nat) else none)
  else if index / 2 = 0x1108 / 2 then
    match sub with
    | 1 => some (d.port (index % 2)).link
    | 11 => some (d.port (index % 2)).lease
    | 12 => some (d.accessRate (index % 2))
    | 13 => some ((d.rdN D.PORT_FLAGS (index % 2) &&& 6) + b2n (bit d.portFenced (index % 2)) : Nat)
    | _ => none
  else if index / 2 = 0x1300 / 2 then (if sub = 1 then none else some (d.streamRead p (index % 2) sub))
  else if index = 0x2000 then (if sub = 3 then some ((d.clk.cc - d.boot.zero) / (d.clk.fcore / 1000) : Nat) else none)
  else if index = 0x2001 then (if sub = 2 then some d.boot.next else none)
  else if index = 0x2012 then (if sub = 3 then some (d.grantLeft : Nat) else none)
  else if index = 0x2020 then some (d.pdField sub)
  else if index = 0x2022 then
    match sub with
    | 5 => some (toF64 d.clk.fcv 1 : Nat)
    | 6 => some (toF64 (if d.pwr.cvLost then 0 else d.clk.cvclk) 1 : Nat)
    | _ => none
  else if 0x2100 ≤ index && decide (index < 0x2104) then (d.tbase n).field sub
  else if index / 2 = 0x2118 / 2 then (if sub = 2 then some (d.port (index % 2)).tsq.length else none)
  else if index / 2 = 0x2120 / 2 then (if sub = 5 then some (d.port (index % 2)).launch.length else none)
  else if index = 0x2160 then
    match sub with
    | 1 => some d.clk.cv
    | 5 => some d.cvs.status
    | 6 => some d.cvs.delta
    | 7 => some d.cvs.last
    | _ => none
  else if index = 0x2212 then
    some (bitsOf (fun i => if sub = 1 then d.eviLevel i else d.evoLevel i) 16 : Nat)
  else if index = 0x2410 then (if sub = 3 then some d.scElapsed else none)
  else if index = 0x2503 then (if 5 ≤ sub && decide (sub ≤ 8) then some (d.useOf (sub - 5) : Nat) else none)
  else if index = 0x2600 then
    match sub with
    | 5 => some (d.tpExpectOf false)
    | 6 => some (d.tpExpectOf true)
    | _ => none
  else if index = 0x2603 then (if sub = 4 then some (d.scope : Nat) else none)
  else if 0xB000 ≤ index && decide (index < 0xB040) then
    match sub with
    | 3 => some (d.groupState (index - 0xB000) : Nat)
    | 5 => some (d.groupUnits (index - 0xB000)).length
    | _ => none
  else match d.faultField index sub with
    | some v => some v
    | none => d.liveWindow m p index sub

/-- Subindices that each party holds for itself: the selectors of R382, and what belongs to a party's own reads and
commands (R315, R328, R331, R430, R444, R447). -/
def ofParty (o : Obj) : Bool :=
  [D.SEG_SEL, D.SEG_OFS, D.TRIM_SEL, D.Q_SEL, D.OWN_SEL, D.F_SEL, D.FIRE_BLOCK, D.SRC_SEL, D.CONS_SEL, D.LQ_TIME,
    D.LQ_FLAGS, D.LQ_TAG, D.ST_SEL, D.TB_FRAC, D.CAP_FRAC, D.FC_SEL, D.H_SEL, D.CLR_TARGET, D.CLR_RESULT].contains o

/-! ### One object's value -/

/-- The domain that a channel's or a stove's object waits for (R480). -/
def objDomain (index : Nat) : Option Nat :=
  if 0x4000 ≤ index && decide (index < 0x8000) then some ((index - 0x4000) / 0x40)
  else if 0x3000 ≤ index && decide (index < 0x3100) then some (256 + (index - 0x3000) / 0x10)
  else none

/-- The last entry an image holds for an object whose domain is off (R480). -/
def Dev.heldEntry (d : Dev) (index sub : Nat) : Option Entry :=
  match objDomain index with
  | none => none
  | some n => if d.pdOn n then none else (d.boot.entries.filter fun e => e.index == index && e.sub == sub).getLast?

/-- The number an object reads as to party `p`. -/
def Dev.numOf (d : Dev) (m : Mem) (p : Party) (f : Found) (index sub : Nat) : Int :=
  match (d.heldEntry index sub).bind fun e => f.o.ty.decode e.bytes with
  | some v => v
  | none =>
    if ofParty f.o then d.rdp p f.o f.unit
    else
      let live := match f.o.blk with
        | .chan => d.liveChan f.unit f.o.off sub
        | .stove => d.liveStove f.unit f.o.off sub
        | .dev => d.liveDev m p index sub
      live.getD (d.rdi f.o f.unit f.i)

/-- The bytes of a DOMAIN object that a read does not change, and the refusal where it has none now (R152, R163, R189,
R366, R416, R444, R450, R458). -/
def Dev.bytesOf (d : Dev) (m : Mem) (p : Party) (f : Found) (sub : Nat) : Status × List Byte :=
  if f.o = C.Q_ACC_RAW then (.ok, natLe 12 (toU 96 (d.accu f.unit false).val))
  else if f.o = C.E_ACC_RAW then (.ok, natLe 12 (toU 96 (d.accu f.unit true).val))
  else if f.o = D.SEG_DATA then
    let ofs := d.rdpN p D.SEG_OFS 0
    (.ok, Mem.bytes 0 m (4096 * d.rdpN p D.SEG_SEL 0 + ofs) (4096 - ofs))
  else if f.o = D.IP6_ADDR then (.ok, natLe 16 (d.rdN D.IP6_ADDR f.unit))
  else if f.o = D.ST_DST_IP6 then (.ok, natLe 16 (d.stream f.unit (d.stSel p f.unit)).ip6)
  else if f.o = D.CAL_FACTORS then (.ok, recordBytes d.shadow sub)
  else if f.o = D.H_RECORD then
    match d.hist.find (d.rdpN p D.H_SEL 0) with
    | some x => (.ok, recBytes x.rseq x.rcd)
    | none => (.value, [])
  else if f.o = D.FI_INJ_LAST then
    (.ok, match d.flt.last with | some r => recBytes 0 r | none => natLe 32 0)
  else if f.o = D.SM_MIN then (.ok, (List.range 9).flatMap fun i => natLe 4 (SMap.get 0 d.pwr.mins i))
  else (.ok, [])

/-! ### Reads (R343–R352, R378–R381) -/

/-- A read of subindex 0 where R380 adds it: the highest subindex. -/
def Dev.countRead (d : Dev) (p : Party) (index sub : Nat) : Dev :=
  match d.gate p index false with
  | .ok =>
    match (if sub = 0 then countSub index else none) with
    | some n => d.give (.num n)
    | none => d.say .noObject
  | x => d.say x

/-- A READ of one object by party `p` (R345, R347, R352). -/
def Dev.readNum (d : Dev) (m : Mem) (p : Party) (index sub : Nat) : Dev :=
  match lookupObj index sub with
  | none => d.countRead p index sub
  | some f =>
    if !f.o.there f.unit f.i then d.countRead p index sub
    else if f.o.ty = .domain then d.read p f.o f.unit f.i .length (.num 0) id
    else if f.o = C.FF_DATA then d.ffRead p f.unit
    else if f.o = D.Q_WORD then d.qWord p
    else if f.o = D.TB_NOW then d.tbNow p f.unit
    else if f.o = D.CAP_TIME then d.readCap p f.unit
    else d.read p f.o f.unit f.i .ok (.num (d.numOf m p f index sub)) id

/-- A DOMAIN_READ of at most `len` bytes of one object by party `p` (R345). -/
def Dev.readBytes (d : Dev) (m : Mem) (p : Party) (index sub len : Nat) : Dev :=
  match lookupObj index sub with
  | none => match d.gate p index false with
    | .ok => d.say (if sub = 0 && (countSub index).isSome then .length else .noObject)
    | x => d.say x
  | some f =>
    if f.o.ty ≠ .domain then d.read p f.o f.unit f.i .length (.num 0) id
    else if f.o = D.Q_BLOCK then d.qBlock p len
    else if f.o = D.TSQ_HEAD then
      let e := d.readTsq p f.unit
      match e.status, e.value with
      | .ok, some (.bytes b) => e.give (.bytes (b.take len))
      | _, _ => e
    else
      let r := d.bytesOf m p f sub
      d.read p f.o f.unit f.i r.1 (.bytes (r.2.take len)) id

end Sys2Proof.Machine
end

