-- ==== Sys2Proof/Machine/Writes.lean ====
section
/-! DEFINITION. A write to any object of the dictionary, carried to the block that holds it, with the checks that block's
chapter adds (R36–R504), and the commands that write and clear objects (R347, R534). -/

namespace Sys2Proof.Machine

open Sys2Proof

/-! ### What chapters check of a value -/

/-- Whether an F32 value lies from `lo` to `hi`, in thousandths. -/
def f32In (v lo hi : Int) : Bool := Rat2.le ⟨lo, 1000⟩ (f32Val v) && Rat2.le (f32Val v) ⟨hi, 1000⟩

/-- Whether an entry of the auxiliary sequence is refused: gains 5 to 7, sources the table does not list, and a gain for
die temperature and the test DAC (R176). -/
def auxEntryBad (n : Nat) : Bool :=
  let g := bits n 9 7
  let s := bits n 4 0
  decide (4 < g) || (decide (11 < s) && decide (s < 16)) || decide (20 < s) || ((s == 18 || s == 19) && g != 0)

/-- Whether SRC_SEL accepts a source number (R290–R292). -/
def srcListed (n : Nat) : Bool :=
  decide (n < 0x1800) || (decide (0x1800 ≤ n) && decide (n < 0x1A00) && decide (n % 32 < 20)) ||
    (decide (0x1A00 ≤ n) && decide (n < 0x1A65))

/-- Whether CONS_SEL accepts a consumer number (R295). -/
def consListed (n : Nat) : Bool :=
  (decide (n < 0x1800) && decide (n % 16 < 9)) || (decide (0x1800 ≤ n) && decide (n < 0x1900) && decide (n % 16 < 2)) ||
    n == 0x1900 || (decide (0x1910 ≤ n) && decide (n < 0x1930)) || (decide (0x10000 ≤ n) && decide (n < 0x20000))

/-- Whether TRIM_SEL accepts a value (R163). -/
def trimListed (n : Nat) : Bool := decide (n < 0x1000) && bits n 7 6 == 0 && decide (bits n 5 0 < 34)

/-- Whether the full scales of a channel's ranges present rise strictly from one to the next (R91). -/
def Dev.rising (d : Dev) (u : Nat) (volt : Bool) : Bool :=
  (List.range (d.ranges u volt - 1)).all fun j => Rat2.lt (d.fs u volt j) (d.fs u volt (j + 1))

/-- What R91 adds to a write of RANGE_MAP: positive full scales that rise, counts that keep the range in force and the
requested one. -/
def Dev.rangeMapCheck (d : Dev) (o : Obj) (u i : Nat) (v : Int) : Status :=
  let d1 := d.wri o u i v
  let kept := fun (volt : Bool) =>
    decide ((((d.ch u).rng volt).now : Int) < v) && decide (d.rd (oRange volt) u < v) && d1.rising u volt
  if o = C.FS_I then Status.value.when (f32Bad v || !Rat2.lt ⟨0, 1⟩ (f32Val v) || !d1.rising u false)
  else if o = C.FS_V then Status.value.when (f32Bad v || !Rat2.lt ⟨0, 1⟩ (f32Val v) || !d1.rising u true)
  else if o = C.I_RANGES then Status.value.when (!kept false)
  else if o = C.V_RANGES then Status.value.when (!kept true)
  else .ok

/-! ### Channels -/

/-- A write of CTL_FLAGS: sticky flags cleared, of a hearth in every leaf as well (R63, R388). -/
def Dev.ctlFlagsWrite (d : Dev) (p : Party) (u : Nat) (v : Int) : Dev :=
  d.write p C.CTL_FLAGS u 0 v .ok fun e =>
    (e.withLeaves u).foldl (fun a l => (a.syncTarget l (a.lastSlot l)).modCtl l fun c => { c with sticky := c.sticky - (c.sticky &&& v.toNat) }) e

/-- A write of a counter of CTL_COUNT, of a hearth in every leaf as well (R66, R388). -/
def Dev.ctlCountWrite (d : Dev) (p : Party) (o : Obj) (u i : Nat) (v : Int) : Dev :=
  d.write p o u i v .ok fun e => (e.withLeaves u).foldl (fun a l => a.wri o l i 0) e

/-- A write of LI_REF: the own generator or that of a hearth that contains the unit; a change starts the settle count
again (R155, R158). -/
def Dev.liRefWrite (d : Dev) (p : Party) (u : Nat) (v : Int) : Dev :=
  let ok := v == 0xFFFF || (d.containers u).any fun h => (h : Int) == v
  d.write p C.LI_REF u 0 v (Status.value.when (!ok)) fun e =>
    if e.rd C.LI_REF u = v then e else (e.wr C.LI_REF u v).modMeas u fun m => { m with li := m.li.restart }

/-- Whether an engine is Armed, Running, Waiting or Paused (R194). -/
def Dev.sqBusy (d : Dev) (u : Nat) : Bool :=
  let s := (d.sq u).st
  s == .armed || s == .running || s == .waiting || s == .paused

/-- Objects of a channel that have a rule of their own beside the row of their table, by offset; the others keep what
is written. -/
def Dev.chanWrite (d : Dev) (m : Mem) (p : Party) (o : Obj) (u i : Nat) (v : Int) : Dev :=
  let plain := fun (x : Status) => d.write p o u i v x fun e => e.store o u i v
  if isCoef o then d.coefWrite p o u i v
  else match o.off with
    | 0x01 => d.chCmd p u v
    | 0x02 => d.write p o u i v .ok fun e => e.storeCh o u i v
    | 0x05 => if o.sub = 1 then d.rangeWrite p u false v else if o.sub = 2 then d.rangeWrite p u true v else plain .ok
    | 0x0A => d.ctlFlagsWrite p u v
    | 0x0B => if o.sub = 1 then d.ffSelWrite p u v else d.write p o u i v .ok fun e => e.storeCh o u i v
    | 0x0E => d.ctlCountWrite p o u i v
    | 0x12 => if o.sub = 6 then d.write p o u i v .ok fun e => e.setApRun u v else plain .ok
    | 0x13 => if o.sub = 3 then d.accCmd p u false v else plain .ok
    | 0x14 => if o.sub = 3 then d.accCmd p u true v else plain .ok
    | 0x15 => if o.sub = 8 then d.liRefWrite p u v else plain .ok
    | 0x18 => if o.sub = 4 then d.lpWrite p u v else plain .ok
    | 0x20 => d.write p o u i v .ok fun e => e.wri o u i (v.toNat % 2 ^ 19 : Nat)
    | 0x21 => if o.sub = 1 then d.sqCmd p u v else plain .ok
    | 0x23 => plain (Status.state.when (d.sqBusy u && (o.sub == 1 || o.sub == 2 || o.sub == 7)))
    | 0x24 =>
      if o.sub = 19 then d.acqCmd m p u v
      else plain (firstOf [d.acqCfgCheck o u v, Status.value.when (o.sub == 2 && v == 0 && decide (256 ≤ u))])
    | 0x26 => if o.sub = 7 then plain .ok else plain (d.acqCfgCheck o u v)
    | 0x28 =>
      plain (Status.value.when ((o.sub == 5 && !f32In v (-60000) 200000) || (o.sub == 6 && !f32In v 50 10000)))
    | 0x31 => plain (d.rangeMapCheck o u i v)
    | 0x32 => plain (d.rangeMapCheck o u i v)
    | 0x38 => if o.sub = 16 then d.memberWrite p u i v else plain .ok
    | _ => plain .ok

/-! ### Stoves -/

/-- Objects of a stove that have a rule of their own (R110–R186). -/
def Dev.stoveWrite (d : Dev) (p : Party) (o : Obj) (k i : Nat) (v : Int) : Dev :=
  let plain := fun (x : Status) => d.write p o k i v x fun e => e.store o k i v
  let entry := fun (_ : Unit) =>
    d.write p o k i v (Status.value.when (auxEntryBad v.toNat)) fun e => e.wri o k i (v.toNat &&& 0xFFF9F : Nat)
  match o.off with
  | 0x01 => entry ()
  | 0x04 => if o.sub = 1 then d.write p o k i v .ok fun e => e.rotEnable k (v ≠ 0) else plain .ok
  | 0x05 => if o.sub = 1 then d.seWrite p k v else plain .ok
  | 0x07 =>
    if o.sub = 2 then d.write p o k i v .ok fun e => e.auxStart k {}
    else if o.sub = 8 then entry ()
    else if o.sub = 9 then d.write p o k i v .ok fun e => e.auxUrgent k {}
    else plain .ok
  | 0x08 =>
    d.write p o k i v .ok fun e =>
      let e1 := e.store o k i v
      if bit v.toNat 15 then e1 else e1.modSt k fun s => { s with cmp := setBit s.cmp i false }
  | 0x09 =>
    if o.sub = 2 then d.tdWrite p k v
    else plain (Status.state.when (o.sub == 3 && d.rd S.TD_ROUTE k != 0))
  | _ => plain .ok

/-! ### The device -/

/-- A write of a value that the party holds for itself (R382). -/
def Dev.writeOwn (d : Dev) (p : Party) (o : Obj) (u : Nat) (v : Int) (x : Status) : Dev :=
  d.write p o u 0 v x fun e => e.wrp p o u (o.dom.kept (e.rdp p o u) v)

/-- A write to the window onto a flue, a source or a consumer input that the party has selected (R293, R297, R305). -/
def Dev.flueWrite (d : Dev) (p : Party) (o : Obj) (v : Int) : Dev :=
  let n := v.toNat
  let c := d.rdpN p D.CONS_SEL 0
  let cw := fun (x : Status) (f : Cons → Cons) => d.write p o 0 0 v x fun e => e.modCons c f
  let f := d.rdpN p D.F_SEL 0
  let fw := fun (g : Flue → Flue) => d.write p o 0 0 v .ok fun e => { e with flues := SMap.upd {} e.flues f g }
  match o.off, o.sub with
  | 0x2202, 2 => d.write p o 0 0 v .ok fun e => { e with routes := SMap.set 0xFFFF e.routes (e.rdpN p D.SRC_SEL 0) n }
  | 0x2203, 2 => cw (Status.value.when (bits n 15 14 == 3 || (bits n 15 14 == 2 && decide (16 ≤ bits n 9 0)))) fun x => { x with gate := n &&& 0xE3FF }
  | 0x2203, 3 => cw .ok fun x => { x with status := x.status - (x.status &&& n &&& 3) }
  | 0x2203, 4 => cw .ok fun x => { x with overruns := 0 }
  | 0x2203, 5 => cw .ok fun x => { x with merges := 0 }
  | 0x2203, 6 => cw .ok fun x => { x with gated := 0 }
  | 0x2204, 2 => fw fun x => { x with soft := v ≠ 0 }
  | 0x2204, 4 => fw fun x => { x with merges := 0 }
  | _, _ => d.write p o 0 0 v .ok id

/-- What R315 adds to a write of a time base: its writer, and no servo objects on TB2 and TB3. -/
def tbExtra (p : Party) (t sub : Nat) : Status :=
  firstOf [tbLevel p t, Status.noObject.when ((sub == 9 || sub == 10) && decide (2 ≤ t))]

/-- What R406 adds to a write of CAL_RUN. -/
def Dev.crWriteCheck (d : Dev) (sub : Nat) (v : Int) : Status :=
  let s := d.rd D.CR_STATE 0
  let bad := (decide (6 ≤ sub) && decide (sub ≤ 8) && !f32In v (-950) 950) ||
    (sub == 10 && !(Rat2.le ⟨1, 10000⟩ (f32Val v) && Rat2.le (f32Val v) ⟨1, 2⟩))
  firstOf [Status.value.when bad, Status.busy.when (!(s == 0 || s == 6 || s == 7 || s == 8))]

/-- A selector that the party holds for itself: what its chapter refuses (R163, R189, R290, R295, R447). -/
def selCheck (o : Obj) (v : Int) : Status :=
  let n := v.toNat
  if o = D.TRIM_SEL then Status.value.when (!trimListed n)
  else if o = D.SEG_OFS then Status.value.when (n % 4 != 0 || decide (4092 < n))
  else if o = D.SRC_SEL then Status.value.when (!srcListed n)
  else if o = D.CONS_SEL then Status.value.when (!consListed n)
  else if o = D.CLR_TARGET then Status.value.when (!targetOk n)
  else .ok

/-- Objects of the device block that have a rule of their own, by index and subindex; `g` is the instance. -/
def Dev.devWrite (d : Dev) (p : Party) (o : Obj) (g i : Nat) (v : Int) : Dev :=
  let plain := fun (x : Status) => d.write p o g i v x fun e => e.store o g i v
  if o.acc = .ro || o.acc = .const_ then d.write p o g i v (if o.off = 0x2100 then tbLevel p g else .ok) id
  else match o.off, o.sub with
    | 0x1100, sub => d.portNum p g sub v
    | 0x1300, 12 => d.stEnable p g v
    | 0x1300, 13 => d.stCmd p g v
    | 0x1300, sub => if sub = 1 then d.writeOwn p o g v .ok else d.streamWrite p g sub v
    | 0x1310, 2 => plain (Status.value.when (!(v == 0xFFFFFFFF || (decide (512 ≤ v) && decide (v ≤ 65535)))))
    | 0x2001, 1 => d.rstCmd p v
    | 0x2001, _ => d.write p o g i v .ok fun e => { e with boot := { e.boot with next := v.toNat } }
    | 0x2003, 2 => plain (Status.value.when (decide (v % 4 ≠ 0) || decide (0xFEFEC < v)))
    | 0x2010, 4 => d.ownClaim p v
    | 0x2011, 2 => d.arbResolve p v
    | 0x2012, 1 => d.grantWrite p v
    | 0x2020, _ => d.pdCmd p v
    | 0x2022, 9 => plain .ok
    | 0x2022, _ => d.cvWrite p o v
    | 0x2100, 3 => d.tbInc p g v
    | 0x2100, 4 => d.stepAbs p g v
    | 0x2100, 5 => d.stepRel p g v
    | 0x2100, 6 => d.stepUnlock p g v
    | 0x2100, 7 => d.tbFlags p g v
    | 0x2100, 11 => d.timeAccept p g v
    | 0x2100, sub => plain (tbExtra p g sub)
    | 0x2110, 18 => plain .ok
    | 0x2110, sub => d.ptpCfg p g sub v
    | 0x2120, 10 => d.launchFlush p g v
    | 0x2160, 2 => d.syncArm p v
    | 0x2201, 1 => d.fire p v
    | 0x2201, 3 => d.fireBits p v
    | 0x2210, _ => d.eviWrite p i v
    | 0x2211, _ => d.evoWrite p i v
    | 0x2302, _ => d.fcWrite p o v
    | 0x2303, 3 => d.injArm p v
    | 0x2305, 2 => d.clrCmd p v
    | 0x2306, 1 => d.write p o g i v .ok fun e => (e.store o g i v).fltEval
    | 0x2400, _ => d.storeCmd p v
    | 0x2401, 14 => d.crCmd p v
    | 0x2401, sub => plain (d.crWriteCheck (sub + i) v)
    | 0x2402, 5 => d.cmEntry p v
    | 0x2404, 3 => plain (Status.value.when (!f32In v 100 10000))
    | 0x2404, 4 => plain (Status.value.when (!f32In v 100 20000))
    | 0x2410, _ => d.write p o g i v (Status.busy.when (d.cals.any fun r => r.selfcal)) fun e => e.selfcal p
    | 0x2501, sub => d.qWrite p sub v
    | 0x2502, 1 => d.qcCmd p v
    | 0x2600, 1 => d.tpWrite p false v
    | 0x2600, 3 => d.tpWrite p true v
    | 0x2602, 3 => d.ctCmd p v
    | 0x2601, 4 => d.ftCmd p v
    | 0x2601, 11 => d.ftEntry p v
    | 0xA001, sub => d.segWrite p sub v
    | 0xB000, 2 => d.tgCmd p g v
    | ix, _ =>
      if ofParty o then d.writeOwn p o g v (selCheck o v)
      else if ix = 0x2202 || ix = 0x2203 || ix = 0x2204 then d.flueWrite p o v
      else plain .ok

/-! ### Writes of any object -/

/-- A write that names no object, or the count of R380. -/
def Dev.noWrite (d : Dev) (p : Party) (index sub : Nat) : Dev :=
  match d.gate p index true with
  | .ok => d.say (if sub = 0 && (countSub index).isSome then .access else .noObject)
  | x => d.say x

/-- What a chapter's writer rules say of a write before its size is looked at (R349). -/
def Dev.writerOf (d : Dev) (p : Party) (f : Found) : Status :=
  if f.o.off = 0x2100 && f.o.blk == .dev then tbLevel p f.unit
  else if f.o.off = 0x2501 && f.o.blk == .dev then d.qLevel p (d.qSel p)
  else .ok

/-- A WRITE or DOMAIN_WRITE whose size does not match the object's type (R345). -/
def Dev.lengthBad (d : Dev) (p : Party) (f : Found) : Dev :=
  d.write p f.o f.unit f.i 0 (firstOf [.length, d.writerOf p f]) id

/-- A write of a number to the object at an index and subindex (R347–R353). -/
def State.putNum (s : State) (p : Party) (index sub : Nat) (v : Int) : State :=
  match lookupObj index sub with
  | none => s.on fun d => d.noWrite p index sub
  | some f =>
    if !f.o.there f.unit f.i then s.on fun d => d.noWrite p index sub
    else if f.o.ty = .domain then s.on fun d => d.lengthBad p f
    else if f.o = D.IMG_CMD then
      (if v = 1 || v = 2 then s.imgCmd p v else s.on fun d => d.write p f.o f.unit f.i v .value id)
    else s.on fun d =>
      match f.o.blk with
      | .chan => d.chanWrite s.wmem p f.o f.unit f.i v
      | .stove => d.stoveWrite p f.o f.unit f.i v
      | .dev => d.devWrite p f.o f.unit f.i v

/-- The bytes of SEG_DATA placed at SEG_OFS of the selected segment, or the refusal (R189, R191). -/
def State.segData (s : State) (p : Party) (bs : List Byte) : State :=
  match s.dev.segDataStatus p bs.length with
  | .ok =>
    { s with
      dev := s.dev.say .ok,
      wmem := Mem.write 0 s.wmem (4096 * s.dev.rdpN p D.SEG_SEL 0 + s.dev.rdpN p D.SEG_OFS 0) bs }
  | x => s.on fun d => d.say x

/-- A DOMAIN_WRITE of bytes to the object at an index and subindex (R345). -/
def State.putBytes (s : State) (p : Party) (index sub : Nat) (bs : List Byte) : State :=
  match lookupObj index sub with
  | none => s.on fun d => d.noWrite p index sub
  | some f =>
    if !f.o.there f.unit f.i then s.on fun d => d.noWrite p index sub
    else if f.o.ty ≠ .domain then s.on fun d => d.lengthBad p f
    else if f.o = D.SEG_DATA then s.segData p bs
    else if f.o = D.IMG_DATA then s.imgData p bs
    else s.on fun d =>
      if f.o = D.IP6_ADDR then d.ip6Write p f.unit bs
      else if f.o = D.ST_DST_IP6 then d.streamIp6 p f.unit bs
      else if f.o = D.LQ_FRAME then d.launchFrame p f.unit bs
      else if f.o = D.CAL_FACTORS then d.factorsWrite p sub bs
      else d.write p f.o f.unit f.i 0 .access id

/-- A WRITE of a value in its type's bytes (R345, R381). -/
def State.putTyped (s : State) (p : Party) (index sub : Nat) (bs : List Byte) : State :=
  match lookupObj index sub with
  | none => s.on fun d => d.noWrite p index sub
  | some f =>
    if !f.o.there f.unit f.i then s.on fun d => d.noWrite p index sub
    else if f.o.ty.size ≠ some bs.length then s.on fun d => d.lengthBad p f
    else match f.o.ty.decode bs with
      | some v => s.putNum p index sub v
      | none => s.on fun d => d.write p f.o f.unit f.i 0 .value id

/-! ### Clearing (R534) -/

/-- COUNTER_CLEAR_WRITE: a write to a counter whose Meaning says write 0 to clear; to another object, none. -/
def execCounterClearWrite (p : Party) (index sub : Nat) (v : Int) (s : State) : Host.Outcome State Fault Refusal :=
  .next (match lookupObj index sub with
    | some f => if f.o.dom = .counter then s.putNum p index sub v else s.on fun d => d.say .noObject
    | none => s.on fun d => d.noWrite p index sub)

/-- STICKY_FLAG_CLEAR: a write to flags whose Meaning says write 1 to clear; to another object, none. -/
def execStickyFlagClear (p : Party) (index sub : Nat) (v : Int) (s : State) : Host.Outcome State Fault Refusal :=
  .next (match lookupObj index sub with
    | some f => match f.o.dom with
      | .w1c _ => s.putNum p index sub v
      | _ => s.on fun d => d.say .noObject
    | none => s.on fun d => d.noWrite p index sub)

end Sys2Proof.Machine
end

