-- ==== Sys2Proof/Machine/Limtur.lean ====
section
/-! DEFINITION. The Limtur registers and the frames that read and write them (R360–R363, R391, R392). -/

namespace Sys2Proof.Machine

open Sys2Proof

/-! ### Registers (R391, R392) -/

/-- The native object of a 32-bit pair by its low register (R392). -/
def limPair (r : Nat) : Option Obj :=
  match r with
  | 0x010 => some C.SETPOINT
  | 0x012 => some C.ICP
  | 0x014 => some C.ICN
  | 0x016 => some C.VCP
  | 0x018 => some C.VCN
  | 0x01A => some C.BAND
  | 0x01C => some C.FSW_TARGET
  | 0x020 => some C.I_RAW_MEAN
  | 0x022 => some C.V_RAW_MEAN
  | 0x024 => some C.I_VALUE
  | 0x026 => some C.V_VALUE
  | 0x028 => some C.I_SEQNO
  | 0x02A => some C.AP_LENGTH
  | 0x030 => some C.Q_ACC_VALUE
  | 0x032 => some C.E_ACC_VALUE
  | 0x040 => some C.ENTRY
  | 0x044 => some C.PC
  | 0x052 => some C.CAP_SEQ
  | _ => none

/-- The pair a register belongs to: its low register and its native object. -/
def limPairOf (r : Nat) : Option (Nat × Obj) := (limPair (r - r % 2)).map fun o => (r - r % 2, o)

/-- The native object of channel `c` as a number. -/
def Dev.limNative (d : Dev) (m : Mem) (p : Party) (o : Obj) (c : Nat) : Int :=
  d.numOf m p ⟨o, c, 0⟩ (o.index c) o.sub

/-- The 32-bit value of a pair in force; CHARGE and ENERGY rounded to F32 (R392). -/
def Dev.limWhole (d : Dev) (m : Mem) (p : Party) (o : Obj) (c : Nat) : Nat :=
  let v := d.limNative m p o c
  if o.ty = .f64 then (f64Val v).f32.toNat else toU 32 v

/-- A register that is no half of a pair, as it is read; none where it is not readable or not there (R392). -/
def Dev.limSingle (d : Dev) (m : Mem) (p : Party) (r c : Nat) : Option Int :=
  let n := fun (o : Obj) => d.limNative m p o c
  match r with
  | 0x000 => some (n C.CH_STATE)
  | 0x002 => some (n C.MODE)
  | 0x003 => some (256 * n C.I_NOW + n C.V_NOW)
  | 0x004 => some (n C.AR_I + 2 * n C.AR_V + 4 * n C.RANGE_LOCK)
  | 0x005 => some (n C.CTL_FLAGS % 65536)
  | 0x006 => some (n C.CTL_FLAGS / 65536)
  | 0x02C => some (n C.V_MFLAGS)
  | 0x02D => some (n C.I_MFLAGS)
  | 0x043 => some (256 * n C.SQ_ERR + n C.SQ_STATE)
  | 0x051 => some (n C.ACQ_STATE)
  | _ => none

/-- Registers that are only written (R392). -/
def limWo (r : Nat) : Bool := r == 0x001 || r == 0x034 || r == 0x042 || r == 0x050

/-- Registers that are only read and no half of a pair (R392). -/
def limRo (r : Nat) : Bool := r == 0x000 || r == 0x006 || r == 0x02C || r == 0x02D || r == 0x043 || r == 0x051

/-- The place of a snapshot or a held half: channel and low register (R363). -/
def limKey (c lo : Nat) : Nat := c * 4096 + lo

/-- A read of register `r` of channel `c` (R361, R363, R391). -/
def Dev.limRead (d : Dev) (m : Mem) (p : Party) (r c : Nat) : Dev :=
  match d.gate p (0xF000 + r) false with
  | .ok =>
    if 255 < c then d.say .noObject
    else match limPairOf r with
      | some (lo, o) =>
        let whole := d.limWhole m p o c
        let kept := SMap.get 0 (d.port p.num).snaps (limKey c lo)
        if r = lo then
          (d.modPort p.num fun q => { q with snaps := SMap.set 0 q.snaps (limKey c lo) (whole + 1) }).give
            (.num (whole % 65536 : Nat))
        else d.give (.num ((if kept = 0 then whole else kept - 1) / 65536 : Nat))
      | none => match d.limSingle m p r c with
        | some v => d.give (.num v)
        | none => d.say (if limWo r then .access else .noObject)
  | x => d.say x

/-- L_RANGE: both ranges asked for in one cc, or neither (R392). -/
def Dev.limRange (d : Dev) (p : Party) (c w : Nat) : Dev :=
  let jI := w / 256
  let jV := w % 256
  d.attempt (firstOf [d.writeStatus p C.I_RANGE c 0 jI (d.rangeCheck c false jI),
    d.writeStatus p C.V_RANGE c 0 jV (d.rangeCheck c true jV)]) fun e =>
    (e.rangeAsk c false jI false false).rangeAsk c true jV false false

/-- L_AUTO: AR_I, AR_V and RANGE_LOCK written in one cc (R392). -/
def Dev.limAuto (d : Dev) (p : Party) (c w : Nat) : Dev :=
  let v := fun (i : Nat) => b2i (bit w i)
  d.attempt (firstOf [d.writeStatus p C.AR_I c 0 (v 0) .ok, d.writeStatus p C.AR_V c 0 (v 1) .ok,
    d.writeStatus p C.RANGE_LOCK c 0 (v 2) .ok]) fun e =>
    ((e.wr C.AR_I c (v 0)).wr C.AR_V c (v 1)).wr C.RANGE_LOCK c (v 2)

/-- L_ACC_CMD: the command of both accumulators in one cc (R392). -/
def Dev.limAcc (d : Dev) (p : Party) (c : Nat) (v : Int) : Dev :=
  match firstOf [d.writeStatus p C.Q_ACC_CMD c 0 v .ok, d.writeStatus p C.E_ACC_CMD c 0 v .ok] with
  | .ok => (d.accCmd p c false v).accCmd p c true v
  | x => d.say x

/-- The high half of a pair held until its low half comes (R363). -/
def Dev.limHold (d : Dev) (m : Mem) (p : Party) (o : Obj) (lo c w : Nat) : Dev :=
  d.attempt (d.writeStatus p o c 0 (d.limNative m p o c) .ok) fun e =>
    e.modPort p.num fun q => { q with highs := SMap.set 0 q.highs (limKey c lo) (w + 1) }

/-- The low half of a pair: the whole value written in one cc, and the held half dropped (R363). -/
def Dev.limLow (d : Dev) (m : Mem) (p : Party) (o : Obj) (lo c w : Nat) : Dev :=
  let held := SMap.get 0 (d.port p.num).highs (limKey c lo)
  let hi := if held = 0 then d.limWhole m p o c / 65536 else held - 1
  let n := hi * 65536 + w
  let e := d.chanWrite m p o c 0 (if o.ty = .i32 then ofTwos 32 n else n)
  if e.status = .ok then e.modPort p.num fun q => { q with highs := SMap.set 0 q.highs (limKey c lo) 0 } else e

/-- A write of `w` to register `r` of channel `c` (R361, R363, R391, R392). -/
def Dev.limWrite (d : Dev) (m : Mem) (p : Party) (r c w : Nat) : Dev :=
  let w8 := w % 256
  match d.gate p (0xF000 + r) true with
  | .ok =>
    if 255 < c then d.say .noObject
    else match limPairOf r with
      | some (lo, o) =>
        if o.acc = .ro then d.say .access
        else if r = lo then d.limLow m p o lo c w
        else d.limHold m p o lo c w
      | none => match r with
        | 0x001 => d.chCmd p c w8
        | 0x002 => d.chanWrite m p C.MODE c 0 w8
        | 0x003 => d.limRange p c w
        | 0x004 => d.limAuto p c w
        | 0x005 => d.ctlFlagsWrite p c w
        | 0x034 => d.limAcc p c w8
        | 0x042 => d.sqCmd p c w8
        | 0x050 => d.acqCmd m p c w8
        | _ => d.say (if limRo r then .access else .noObject)
  | x => d.say x

/-! ### Any object, Limtur registers included (R378) -/

/-- A READ of the object at an index and subindex. -/
def Dev.readAny (d : Dev) (m : Mem) (p : Party) (index sub : Nat) : Dev :=
  if 0xF000 ≤ index then d.limRead m p (index - 0xF000) sub else d.readNum m p index sub

/-- A DOMAIN_READ of the object at an index and subindex; a register is no DOMAIN object (R345). -/
def Dev.readDomain (d : Dev) (m : Mem) (p : Party) (index sub len : Nat) : Dev :=
  if 0xF000 ≤ index then
    let e := d.limRead m p (index - 0xF000) sub
    if e.status = .ok || e.status = .access then d.say (if e.status = .ok then .length else .access) else e
  else d.readBytes m p index sub len

/-- What a write to a register answers before its size is looked at, or LENGTH (R345, R391). -/
def Dev.limLength (d : Dev) (m : Mem) (p : Party) (r c : Nat) : Dev :=
  let e := d.limWrite m p r c 0
  d.say (if e.status.code < 7 && e.status ≠ .ok || e.status = .noAnswer || e.status = .busy then e.status else .length)

/-- A write of a number to the object at an index and subindex. -/
def State.writeAny (s : State) (p : Party) (index sub : Nat) (v : Int) : State :=
  if 0xF000 ≤ index then
    s.on fun d =>
      if 0 ≤ v && decide (v < 65536) then d.limWrite s.wmem p (index - 0xF000) sub v.toNat
      else
        let e := d.limLength s.wmem p (index - 0xF000) sub
        if e.status = .length then d.say .value else e
  else s.putNum p index sub v

/-- A WRITE of bytes to the object at an index and subindex. -/
def State.writeTyped (s : State) (p : Party) (index sub : Nat) (bs : List Byte) : State :=
  if 0xF000 ≤ index then
    s.on fun d =>
      if bs.length = 2 then d.limWrite s.wmem p (index - 0xF000) sub (leNat bs)
      else d.limLength s.wmem p (index - 0xF000) sub
  else s.putTyped p index sub bs

/-- A DOMAIN_WRITE of bytes to the object at an index and subindex. -/
def State.writeDomain (s : State) (p : Party) (index sub : Nat) (bs : List Byte) : State :=
  if 0xF000 ≤ index then s.on fun d => d.limLength s.wmem p (index - 0xF000) sub else s.putBytes p index sub bs

/-- A write of a value of either form. -/
def State.writeVal (s : State) (p : Party) (index sub : Nat) (v : Val) : State :=
  match v with
  | .num x => s.writeAny p index sub x
  | .bytes bs => s.writeDomain p index sub bs

/-- The type of the object at an index and subindex, subindex 0 of R380 included. -/
def typeOf (index sub : Nat) : Option Ty :=
  if 0xF000 ≤ index then (if sub < 256 then some .u16 else none)
  else match lookupObj index sub with
    | some f => some f.o.ty
    | none => if sub = 0 && (countSub index).isSome then some .u8 else none

/-! ### Accesses (R342, R357) -/

/-- The party a port is. -/
def portParty (n : Nat) : Party := if n = 0 then .a else .b

/-- `k` accesses of port `n` counted in the present second. -/
def Dev.countAcc (d : Dev) (n k : Nat) : Dev :=
  let now := d.clk.cc / max 1 d.clk.fcore
  let x := d.port n
  if x.second = now then d.modPort n fun q => { q with accs := q.accs + k }
  else
    let last : Int := if x.second + 1 = now then x.accs else 0
    (d.wr D.ACCESS_RATE n last).modPort n fun q => { q with accs := k, second := now }

/-! ### Limtur frames (R360–R362) -/

/-- `n` registers of channel `c` read in order from `r`; the first that fails ends the frame. -/
def Dev.limReads (d : Dev) (m : Mem) (port c : Nat) : Nat → Nat → List Byte → Dev × List Byte
  | 0, _, out => (d.say .ok, out)
  | n + 1, r, out =>
    let e := (d.limRead m (portParty port) r c).countAcc port 1
    match e.status, e.value with
    | .ok, some (.num v) => Dev.limReads e m port c n (r + 1) (out ++ natLe 2 v.toNat)
    | _, _ => (e, [])

/-- Words written in order from register `r` of channel `c`; the first that fails ends the frame. -/
def Dev.limWrites (d : Dev) (m : Mem) (port c : Nat) : List Nat → Nat → Dev
  | [], _ => d
  | w :: ws, r =>
    let e := (d.limWrite m (portParty port) r c w).countAcc port 1
    if e.status = .ok then Dev.limWrites e m port c ws (r + 1) else e

/-- V1_AUTOCLAIM: a channel without an owner claimed for the port before it is written (R362, R370). -/
def Dev.autoclaim (d : Dev) (port c : Nat) : Dev :=
  let p := portParty port
  if !d.flag D.V1_AUTOCLAIM port || d.isMember c || d.ownOf c ≠ 0 then d.say .ok
  else d.attempt (d.claimCheck p c (d.epoch c) 1) fun e => e.passTo c (ownerCode p)

/-- Whether a frame names a run of registers that is there (R360). -/
def limSpan (r n : Nat) : Bool := decide (0 < n) && decide (n ≤ 128) && decide (r + n ≤ 0x1000)

/-- A Limtur frame: `none` reads `n` words, `some ws` writes `ws`; the status it leaves is the frame's, with the bytes read
(R360–R363). -/
def Dev.limFrame (d : Dev) (m : Mem) (port r c n : Nat) (ws : Option (List Nat)) : Dev × List Byte :=
  if !limSpan r n then ((d.bump D.RX_BAD port 32 1).say .malformed, [])
  else match ws with
    | none => d.limReads m port c n r []
    | some ws =>
      let e := d.autoclaim port c
      if e.status = .ok then (e.limWrites m port c ws r, []) else (e, [])

/-- Whether a Limtur frame is taken: from a port that answers and accepts them (R360, R437). -/
def Dev.limTaken (d : Dev) (port : Nat) : Bool :=
  decide (port < 2) && !d.fencedParty (portParty port) && !d.held && d.flag D.V1_EN port

/-- A frame that is dropped: counted where the port is in service (R342, R360). -/
def Dev.dropFrame (d : Dev) (port : Nat) : Dev :=
  if 2 ≤ port || d.held || d.fencedParty (portParty port) then d.say .noAnswer
  else (d.bump D.RX_BAD port 32 1).say .noAnswer

/-- A Limtur frame executed and answered; the lease is renewed unless it was malformed (R373). -/
def Dev.limRun (d : Dev) (m : Mem) (port r c n : Nat) (ws : Option (List Nat)) : Dev :=
  if !d.limTaken port then d.dropFrame port
  else
    let x := d.limFrame m port r c n ws
    let e := if x.1.status = .malformed then x.1 else x.1.renewLease port
    if ws.isNone && e.status = .ok then e.give (.bytes x.2) else e.say e.status

/-- LIMTUR_READ_WORDS (R360, R361, R363). -/
def execLimturReadWords (port r ch n : Nat) (s : State) : Host.Outcome State Fault Refusal :=
  .next (s.on fun d => d.limRun s.wmem port r ch n none)

/-- LIMTUR_WRITE_WORDS (R360–R363). -/
def execLimturWriteWords (port r ch : Nat) (words : List Nat) (s : State) : Host.Outcome State Fault Refusal :=
  .next (s.on fun d => d.limRun s.wmem port r ch words.length (some (words.map (· % 65536))))

end Sys2Proof.Machine
end

