-- ==== Sys2Proof/Machine/Samovar.lean ====
section
/-! DEFINITION. Samovar frames: TLVs, requests, the replay cache, received Ethernet frames (R340, R343–R351, R355–R358). -/

namespace Sys2Proof.Machine

open Sys2Proof

/-! ### Commands on one object (R345–R347) -/

/-- TLV_READ (R345). -/
def execTlvRead (p : Party) (index sub : Nat) (s : State) : Host.Outcome State Fault Refusal :=
  .next (s.on fun d => d.readAny s.wmem p index sub)

/-- TLV_WRITE (R345). -/
def execTlvWrite (p : Party) (index sub : Nat) (bytes : List Byte) (s : State) : Host.Outcome State Fault Refusal :=
  .next (s.writeTyped p index sub bytes)

/-- TLV_DOMAIN_READ (R345). -/
def execTlvDomainRead (p : Party) (index sub len : Nat) (s : State) : Host.Outcome State Fault Refusal :=
  .next (s.on fun d => d.readDomain s.wmem p index sub len)

/-- TLV_DOMAIN_WRITE (R345). -/
def execTlvDomainWrite (p : Party) (index sub : Nat) (bytes : List Byte) (s : State) : Host.Outcome State Fault Refusal :=
  .next (s.writeDomain p index sub bytes)

/-- DICT_WRITE (R347). -/
def execDictWrite (p : Party) (index sub : Nat) (v : Val) (s : State) : Host.Outcome State Fault Refusal :=
  .next (s.writeVal p index sub v)

/-- A time of a base in 2^-44 ns as the 16 bytes of R346: TIME96, fraction, two zero bytes. -/
def stampBytes (acc : Nat) : List Byte :=
  let ns := acc / 2 ^ 44
  natLe 8 (ns / 1000000000) ++ natLe 4 (ns % 1000000000) ++ natLe 2 (acc / 2 ^ 28 % 2 ^ 16) ++ natLe 2 0

/-- The 88 bytes of TIME_READ; `at_` is when the request arrived (R346). -/
def Dev.timeBytes (d : Dev) (at_ : Nat) : List Byte :=
  ((List.range 4).flatMap fun t => stampBytes (d.tbase t).acc) ++ natLe 8 d.clk.cv ++ stampBytes at_

/-- TIME_READ: the arrival stamp is the present time of the port's base; the console has no port and no TLVs (R346). -/
def execTimeRead (p : Party) (s : State) : Host.Outcome State Fault Refusal :=
  .next (s.on fun d =>
    match p.port? with
    | none => d.say .malformed
    | some n => match d.gate p 0x2100 false with
      | .ok => d.give (.bytes (d.timeBytes (d.tbase n).acc))
      | x => d.say x)

/-! ### TLVs of a request (R344, R345, R348) -/

/-- A TLV: its type and value. -/
structure Tlv where
  ty : Nat
  val : List Byte
  deriving DecidableEq, Repr

/-- A length made a multiple of 4 (R344). -/
def pad4 (n : Nat) : Nat := (n + 3) / 4 * 4

/-- `n` TLVs at the head of `bs` and the bytes they fill; none where they do not fit (R344). -/
def tlvsOf : Nat → List Byte → Option (List Tlv × Nat)
  | 0, _ => some ([], 0)
  | n + 1, bs =>
    let len := leNat ((bs.drop 2).take 2)
    let whole := 4 + pad4 len
    if bs.length < whole then none
    else
      match tlvsOf n (bs.drop whole) with
      | some (ts, k) => some (⟨leNat (bs.take 1), (bs.drop 4).take len⟩ :: ts, whole + k)
      | none => none

/-- A TLV's bytes, padded (R344). -/
def Tlv.bytes (t : Tlv) : List Byte :=
  natLe 1 t.ty ++ natLe 1 0 ++ natLe 2 t.val.length ++ t.val ++ List.replicate (pad4 t.val.length - t.val.length) 0

/-- The most bytes the answer to a TLV can hold in its value (R350). -/
def Tlv.room (t : Tlv) : Nat :=
  let index := leNat (t.val.take 2)
  let sub := leNat ((t.val.drop 2).take 1)
  match t.ty with
  | 1 => if t.val.length ≠ 4 then 4 else 4 + ((typeOf index sub).bind Ty.size).getD 0
  | 3 => if t.val.length ≠ 8 then 4 else 4 + leNat (t.val.drop 4)
  | 5 => 88
  | _ => 4

/-- The answer to a TLV: state, status, response value, accesses it counts as (R345, R346, R357). -/
structure TlvDone where
  st : State
  status : Status
  val : List Byte
  accs : Nat

/-- The head of an answer: index, subindex, status (R345). -/
def tlvHead (t : Tlv) (x : Status) : List Byte :=
  natLe 2 (leNat (t.val.take 2)) ++ natLe 1 (leNat ((t.val.drop 2).take 1)) ++ natLe 1 x.code

/-- Accesses that `n` bytes of a DOMAIN TLV count as (R357). -/
def domainAccs (n : Nat) : Nat := max 1 ((n + 255) / 256)

/-- One TLV of a request executed for port `n` (R345, R347). -/
def State.tlv (s : State) (n at_ : Nat) (t : Tlv) : TlvDone :=
  let p := portParty n
  let index := leNat (t.val.take 2)
  let sub := leNat ((t.val.drop 2).take 1)
  let len := t.val.length
  let done := fun (s1 : State) (k : Nat) => (⟨s1, s1.dev.status, tlvHead t s1.dev.status, k⟩ : TlvDone)
  match t.ty with
  | 1 =>
    if len ≠ 4 then ⟨s, .length, tlvHead t .length, 1⟩
    else
      let s1 := s.on fun d => d.readAny s.wmem p index sub
      match s1.dev.status, s1.dev.value, typeOf index sub with
      | .ok, some (.num v), some ty => ⟨s1, .ok, tlvHead t .ok ++ ty.encode v, 1⟩
      | _, _, _ => done s1 1
  | 2 => if len < 4 then ⟨s, .length, tlvHead t .length, 1⟩ else done (s.writeTyped p index sub (t.val.drop 4)) 1
  | 3 =>
    if len ≠ 8 then ⟨s, .length, tlvHead t .length, 1⟩
    else
      let s1 := s.on fun d => d.readDomain s.wmem p index sub (leNat (t.val.drop 4))
      match s1.dev.status, s1.dev.value with
      | .ok, some (.bytes b) => ⟨s1, .ok, tlvHead t .ok ++ b, domainAccs b.length⟩
      | _, _ => done s1 1
  | 4 =>
    if len < 4 then ⟨s, .length, tlvHead t .length, 1⟩
    else done (s.writeDomain p index sub (t.val.drop 4)) (domainAccs (len - 4))
  | 5 =>
    if len ≠ 0 then ⟨s, .length, tlvHead ⟨5, []⟩ .length, 1⟩ else ⟨s, .ok, s.dev.timeBytes at_, 1⟩
  | _ => ⟨s, .malformed, tlvHead t .malformed, 0⟩

/-- The TLVs of a request executed in order; after a failure with ABORT_ON_ERROR the later ones are not (R347, R348). -/
def State.tlvs (s : State) (n at_ : Nat) (abort : Bool) : List Tlv → Bool → List Tlv → State × List Tlv
  | [], _, out => (s, out)
  | t :: ts, dead, out =>
    let ty := (t.ty ||| 0x80)
    if dead then State.tlvs s n at_ abort ts true (out ++ [⟨ty, tlvHead t .notDone⟩])
    else
      let x := s.tlv n at_ t
      let s1 := x.st.on fun d => d.countAcc n x.accs
      State.tlvs s1 n at_ abort ts (abort && x.status ≠ .ok) (out ++ [⟨ty, x.val⟩])

/-! ### Requests (R343, R350, R351, R355) -/

/-- A request's header and TLVs (R343). -/
structure Head where
  flags : Nat
  seq : Nat
  epoch : Nat
  unit : Nat
  /-- the header or the TLVs are not as R343 and R344 give them -/
  bad : Bool
  ts : List Tlv
  /-- CRC-32 of the bytes from byte 12 to the last TLV (R355) -/
  crc : Nat
  deriving DecidableEq, Repr

/-- The header and TLVs of a request of 16 bytes or more. -/
def headOf (bs : List Byte) : Head :=
  let at_ := fun (i n : Nat) => leNat ((bs.drop i).take n)
  let unit := at_ 10 2
  let ts := tlvsOf (at_ 12 2) (bs.drop 16)
  let bad := at_ 2 1 ≠ 1 || at_ 3 1 ≠ 0 || decide (3 < at_ 1 1) || at_ 14 2 ≠ 0 ||
    (decide (383 < unit) && unit ≠ 0xFFFF) || ts.isNone
  let body := match ts with
    | some (_, k) => (bs.drop 12).take (4 + k)
    | none => bs.drop 12
  ⟨at_ 1 1, at_ 4 4, at_ 8 2, unit, bad, (ts.map Prod.fst).getD [], crc32 body⟩

/-- The source of a request over Ethernet as one number: MAC address and tag (R351, R355). -/
def macSource (mac : Nat) (vlan : Option Nat) : Nat :=
  4 * (mac % 2 ^ 48 + 2 ^ 48 * (match vlan with | some v => v + 1 | none => 0))

/-- The source of a request over UDP as one number: address and port. -/
def udpSource (v6 : Bool) (addr port : Nat) : Nat :=
  if v6 then 2 + 4 * (addr % 2 ^ 128 + 2 ^ 128 * port) else 1 + 4 * (addr % 2 ^ 32 + 2 ^ 32 * port)

/-- Bytes of a response that fit into one frame to a source: the MTU less the IP and UDP headers (R350). -/
def Dev.respRoom (d : Dev) (n src : Nat) : Nat :=
  d.rdN D.MTU n - (match src % 4 with | 1 => 28 | 2 => 48 | _ => 0)

/-- A response sent to its source (R351). -/
def Dev.respond (d : Dev) (n src : Nat) (bs : List Byte) : Dev :=
  let x := src / 4
  match src % 4 with
  | 1 => d.send n (.udp false (x % 2 ^ 32) (x / 2 ^ 32) bs)
  | 2 => d.send n (.udp true (x % 2 ^ 128) (x / 2 ^ 128) bs)
  | _ =>
    let t := x / 2 ^ 48
    d.send n (.frame (x % 2 ^ 48) (if t = 0 then none else some (t - 1)) (d.rdN D.ETHERTYPE n) bs)

/-- The answer in the replay cache to a source and sequence number. -/
def Dev.cached (d : Dev) (n src seq : Nat) (v1 : Bool) : Option Cached :=
  (d.port n).cache.find? fun c => c.src == src && c.v1 == v1 && c.seq == seq

/-- An answer kept in the replay cache in place of the oldest of 64 (R355). -/
def Dev.keepAnswer (d : Dev) (n : Nat) (c : Cached) : Dev :=
  d.modPort n fun q => { q with cache := (c :: q.cache).take 64 }

/-- A cached answer with REPLAYED set (R343, R355). -/
def replayed (bs : List Byte) : List Byte :=
  bs.take 1 ++ ((bs.drop 1).take 1).map (· ||| 4) ++ bs.drop 2

/-- The header of a response; bits 1 and 0 of its FLAGS are free (R343, R351, log 8). -/
def Dev.respHead (d : Dev) (h : Head) (x : Status) (k : Nat) : List Byte :=
  natLe 1 2 ++ natLe 1 (d.freeBits 2) ++ natLe 1 2 ++ natLe 1 x.code ++ natLe 4 h.seq ++
    natLe 2 (if h.unit ≤ 383 then d.epoch h.unit else 0) ++ natLe 2 h.unit ++ natLe 2 k ++ natLe 2 0

/-- The first check of R350 that a request fails. -/
def Dev.reqCheck (d : Dev) (n src : Nat) (h : Head) : Status :=
  if h.bad then .malformed
  else if (d.cached n src h.seq false).isSome then .seqConflict
  else if bit h.flags 0 && h.unit ≠ 0xFFFF && d.epoch h.unit ≠ h.epoch then .staleEpoch
  else if d.respRoom n src < 16 + (h.ts.map fun t => 4 + pad4 t.room).foldl (· + ·) 0 then .tooLarge
  else .ok

/-- The response to a v2 request sent and, where the request was executed, the lease renewed; a conflict is not kept
(R351, R355, R373). -/
def Dev.answer (d : Dev) (n : Nat) (q : Request) (h : Head) (x : Status) (out : List Tlv) : Dev :=
  let bs := d.respHead h x out.length ++ out.flatMap Tlv.bytes
  let d1 := d.drawn.respond n q.src bs
  let d2 := if x = .seqConflict then d1 else d1.keepAnswer n ⟨q.src, false, h.seq, h.crc, bs⟩
  let d3 := if x = .ok then d2.renewLease n else d2
  { d3.give (.bytes bs) with status := x }

/-- A v2 request executed and answered, or answered from the replay cache (R347–R351, R355, R373). -/
def State.runV2 (s : State) (n : Nat) (q : Request) : State :=
  let h := headOf q.bytes
  let replay := (s.dev.cached n q.src h.seq false).filter fun c => c.crc == h.crc
  match replay with
  | some c => s.on fun d => (d.respond n q.src (replayed c.resp)).give (.bytes (replayed c.resp))
  | none =>
    match s.dev.reqCheck n q.src h with
    | .ok =>
      let x := s.tlvs n q.at_ (bit h.flags 1) h.ts false []
      x.1.on fun d => d.answer n q h .ok x.2
    | x => s.on fun d => (if x = .malformed then d.bump D.RX_BAD n 32 1 else d).answer n q h x []

/-- The words of a Limtur write frame. -/
def limWords : Nat → List Byte → List Nat
  | 0, _ => []
  | n + 1, bs => leNat (bs.take 2) :: limWords n (bs.drop 2)

/-- A Limtur frame of 8 bytes or more executed and answered, or answered from the replay cache (R355, R360–R363). -/
def State.runV1 (s : State) (n : Nat) (q : Request) : State :=
  let at_ := fun (i k : Nat) => leNat ((q.bytes.drop i).take k)
  let cmd := at_ 1 1
  let seq := at_ 2 2
  let cnt := at_ 7 1
  let crc := crc32 (q.bytes.drop 1)
  let frame := fun (x : Status) (ws : List Byte) =>
    natLe 1 1 ++ natLe 1 (cmd ||| 0x80) ++ (q.bytes.drop 2).take 6 ++ natLe 2 x.code ++ ws
  s.on fun d =>
    match d.cached n q.src seq true with
    | some c =>
      if c.crc = crc then (d.respond n q.src c.resp).give (.bytes c.resp)
      else (d.respond n q.src (frame .seqConflict [])).say .seqConflict
    | none =>
      let bad := !(cmd == 1 || cmd == 2) || (cmd == 2 && decide (q.bytes.length < 8 + 2 * cnt))
      let x := if bad then ((d.bump D.RX_BAD n 32 1).say .malformed, [])
        else d.limFrame s.wmem n (at_ 4 2) (at_ 6 1) cnt (if cmd = 1 then none else some (limWords cnt (q.bytes.drop 8)))
      let st := x.1.status
      let bs := frame st x.2
      let d1 := (x.1.respond n q.src bs).keepAnswer n ⟨q.src, true, seq, crc, bs⟩
      let d2 := if st = .malformed then d1 else d1.renewLease n
      { d2.give (.bytes bs) with status := st }

/-- A request taken from the queue of port `n` and answered. -/
def State.runRequest (s : State) (n : Nat) (q : Request) : State :=
  if leNat (q.bytes.take 1) = 1 then s.runV1 n q else s.runV2 n q

/-- Whether the bytes are a request that a port can answer: version 2 with a whole header, or version 1 where V1_EN is set
(R343, R360). -/
def Dev.readable (d : Dev) (n : Nat) (bs : List Byte) : Bool :=
  (leNat (bs.take 1) == 2 && decide (16 ≤ bs.length)) ||
    (leNat (bs.take 1) == 1 && d.flag D.V1_EN n && decide (8 ≤ bs.length))

/-- Whether port `n` takes requests now: it is a port, not fenced, and the device is not held in reset (R437, R456). -/
def Dev.portServes (d : Dev) (n : Nat) : Bool := decide (n < 2) && !d.fencedParty (portParty n) && !d.held

/-- A request that has arrived at port `n`: it waits, or is dropped where 64 wait or it is no request (R342, R357). -/
def Dev.arrive (d : Dev) (n src : Nat) (bs : List Byte) : Dev :=
  if !d.portServes n then d.say .noAnswer
  else if !d.readable n bs then d.dropFrame n
  else if 64 ≤ (d.port n).reqs.length then ((d.bump D.RX_DROPPED n 32 1).report 0x341A n 0).say .noAnswer
  else (d.modPort n fun x => { x with reqs := x.reqs ++ [⟨src, bs, (d.tbase n).acc⟩] }).say .ok

/-- The oldest `k` requests of port `n` executed in arrival order (R358). -/
def State.serve (s : State) (n : Nat) : Nat → State
  | 0 => s
  | k + 1 =>
    match (s.dev.port n).reqs with
    | [] => s
    | q :: _ => State.serve (State.runRequest (s.on fun d => d.modPort n fun x => { x with reqs := x.reqs.drop 1 }) n q) n k

/-- SAMOVAR_REQUEST (R350, R355, R357, R358): a request that waits already is executed with those before it; another one
arrives, and if it is queued the queue is executed to its end. -/
def execSamovarRequest (port src : Nat) (bytes : List Byte) (s : State) : Host.Outcome State Fault Refusal :=
  .next (
    if !s.dev.portServes port then s.on fun d => d.say .noAnswer
    else
      let waits := (s.dev.port port).reqs
      let k := (waits.takeWhile fun q => !(q.src == src && q.bytes == bytes)).length
      if k < waits.length then s.serve port (k + 1)
      else
        let s1 := s.on fun d => d.arrive port src bytes
        if s1.dev.status = .ok then s1.serve port (waits.length + 1) else s1)

/-! ### Frames (R339, R340) -/

/-- `n` bytes of a packet at place `i`, most significant first. -/
def beAt (bs : List Byte) (i n : Nat) : Nat := leNat ((bs.drop i).take n).reverse

/-- The PTP multicast MAC addresses (R323). -/
def ptpMac (m : Nat) : Bool := m == 0x011B19000000 || m == 0x0180C200000E

/-- Whether the MAC accepts a frame's address and tag (R340). -/
def Dev.macAccepts (d : Dev) (n : Nat) (f : EthFrame) : Bool :=
  (f.dst == d.mac n || f.dst == 2 ^ 48 - 1 || ptpMac f.dst) &&
    (match f.vlan with | none => true | some v => d.rdN D.VLAN n == v)

/-- Whether a frame is dropped as bad: its check, its length, a MAC Control frame (R339, R340). -/
def Dev.frameBad (d : Dev) (n : Nat) (f : EthFrame) : Bool :=
  !f.fcsOk || decide (d.rdN D.MTU n < f.payload.length) || f.etherType == 0x8808

/-- A UDP datagram: Samovar requests wait, PTP messages are the PTP engine's, every other is ignored (R340). -/
def Dev.udpIn (d : Dev) (n : Nat) (v6 : Bool) (addr : Nat) (u : List Byte) : Dev :=
  let len := beAt u 4 2
  if u.length < 8 || len < 8 || u.length < len then d
  else if beAt u 2 2 = d.rdN D.UDP_PORT n then d.arrive n (udpSource v6 addr (beAt u 0 2)) ((u.drop 8).take (len - 8))
  else d

/-- An IPv4 packet: echo answered, UDP carried, fragments and every other protocol dropped (R340). -/
def Dev.ip4In (d : Dev) (n : Nat) (b : List Byte) : Dev :=
  let me := d.rdN D.IP4_ADDR n
  let hl := 4 * (beAt b 0 1 % 16)
  let total := beAt b 2 2
  let body := (b.drop hl).take (total - hl)
  let src := beAt b 12 4
  if me = 0 || decide (b.length < 20) || beAt b 0 1 / 16 ≠ 4 || decide (hl < 20) || decide (b.length < total) then d
  else if beAt b 6 2 % 2 ^ 14 ≠ 0 || beAt b 16 4 ≠ me then d
  else match beAt b 9 1 with
    | 1 => if beAt body 0 1 = 8 then d.send n (.echo false src (body.drop 4)) else d
    | 17 => d.udpIn n false src body
    | _ => d

/-- An IPv6 packet: neighbour solicitation and echo answered, UDP carried, every other ignored (R340). -/
def Dev.ip6In (d : Dev) (n : Nat) (f : EthFrame) : Dev :=
  let b := f.payload
  let me := beAt (natLe 16 (d.rdN D.IP6_ADDR n)) 0 16
  let body := (b.drop 40).take (beAt b 4 2)
  let src := beAt b 8 16
  if me = 0 || decide (b.length < 40) || beAt b 0 1 / 16 ≠ 6 then d
  else match beAt b 6 1 with
    | 58 =>
      if beAt body 0 1 = 135 && beAt body 8 16 = me then d.send n (.neighbour f.src)
      else if beAt body 0 1 = 128 && beAt b 24 16 = me then d.send n (.echo true src (body.drop 4))
      else d
    | 17 => if beAt b 24 16 = me then d.udpIn n true src body else d
    | _ => d

/-- A frame the MAC has accepted, by its type (R340). -/
def Dev.frameIn (d : Dev) (n : Nat) (f : EthFrame) : Dev :=
  if f.etherType = d.rdN D.ETHERTYPE n then d.arrive n (macSource f.src f.vlan) f.payload
  else match f.etherType with
    | 0x0806 =>
      let me := d.rdN D.IP4_ADDR n
      if me ≠ 0 && beAt f.payload 6 2 = 1 && beAt f.payload 24 4 = me then d.send n (.arp f.src (beAt f.payload 14 4)) else d
    | 0x0800 => d.ip4In n f.payload
    | 0x86DD => d.ip6In n f
    | _ => d

/-- FRAME_RX (R339, R340): a frame at the MAC of a port whose link is up. -/
def execFrameRx (port : Nat) (frame : EthFrame) (s : State) : Host.Outcome State Fault Refusal :=
  .next (s.on fun d =>
    if 2 ≤ port || d.held || (d.port port).link ≠ 3 then d
    else if d.frameBad port frame then d.bump D.RX_BAD port 32 1
    else if !d.macAccepts port frame then d
    else (d.wrap D.RX_FRAMES port 64 1).frameIn port frame)

end Sys2Proof.Machine
end

