-- ==== Sys2Proof/Machine/Boot.lean ====
section
/-! DEFINITION. The boot: switches of domains, the calibration bank, the image, the phases and their end (R393, R420,
R464–R485). -/

namespace Sys2Proof.Machine

open Sys2Proof

/-! ### Entries of an image (R479, R480) -/

/-- The device as the boot writes its dictionary: accesses served as at the console of a running device (R479). -/
def Dev.asRunning (d : Dev) : Dev := { d.wr D.DS_STATE 0 1 with pwr := { d.pwr with vsrv := true } }

/-- What the device shows and holds beside what the entries wrote: its state, its supply, the last access (log 6). -/
def Dev.asBefore (e d : Dev) : Dev :=
  { e.wr D.DS_STATE 0 (d.rd D.DS_STATE 0) with
    pwr := { e.pwr with vsrv := d.pwr.vsrv }, fltLow := d.fltLow, status := d.status, value := d.value }

/-- Entries refused because they command (R479, log 6). -/
def entryRefused (index sub : Nat) : Bool :=
  let off := index % 0x40
  let chan := decide (0x4000 ≤ index) && decide (index < 0xA000)
  let port := index / 2 == 0x1300 / 2
  (chan && ((off == 0x01) || (off == 0x21 && sub == 1) || (off == 0x24 && sub == 19))) ||
    (decide (0xB000 ≤ index) && decide (index < 0xB040) && sub == 2) || (index == 0x2010 && sub == 4) ||
    (index == 0x2001 && sub == 1) || index == 0x2003 || (index == 0x2400 && sub == 1) || (port && sub == 13) ||
    (index == 0x2401 && sub == 14) || (index == 0x2410 && sub == 1) || (index == 0x2305 && sub == 2) ||
    (index == 0x2011 && sub == 2) || index == 0x2201 || index == 0xF001 || index == 0xF042 || index == 0xF050

/-- An entry refused: counted and reported (R479). -/
def Dev.refuseEntry (d : Dev) (e : Entry) : Dev :=
  (d.bump D.IMG_REFUSED 0 16 1).report 0x383B 0 (0x100 * e.index + e.sub)

/-- An entry written as the boot writes it, and the answer (R479). -/
def State.putEntry (s : State) (e : Entry) : State × Status :=
  let t := s.on Dev.asRunning
  let r := if e.isDomain then t.writeDomain .console e.index e.sub e.bytes else t.writeTyped .console e.index e.sub e.bytes
  (r.on fun x => x.asBefore s.dev, r.dev.status)

/-- An entry written, or refused. -/
def State.applyEntry (s : State) (e : Entry) : State :=
  let r := s.putEntry e
  if r.2 = .ok then r.1 else s.on fun d => d.refuseEntry e

/-- A PD_CMD entry: the state wanted of its domain, for the stove phase (R479). -/
def Dev.wantDomain (d : Dev) (n : Nat) (on : Bool) : Dev :=
  let rest := d.boot.wantOff.filter (· ≠ n)
  { d with boot := { d.boot with wantOff := if on then rest else rest ++ [n] } }

/-- Whether an entry waits for its domain (R480). -/
def Dev.waits (d : Dev) (e : Entry) : Bool :=
  match objDomain e.index with
  | some n => !d.pdOn n
  | none => false

/-- One entry of the image: refused, recorded, held, or applied. `t` is the state with every domain on, in which a held
entry is checked against rules that do not depend on its domain (R479, R480). -/
def State.imageEntry (st : State × State) (e : Entry) : State × State :=
  let s := st.1
  let t := st.2
  if entryRefused e.index e.sub then (s.on fun d => d.refuseEntry e, t)
  else if e.index = 0x2020 && e.sub = 1 then
    let v := leNat e.bytes
    if e.isDomain || e.bytes.length ≠ 2 || decide (299 ≤ v % 512) then (s.on fun d => d.refuseEntry e, t)
    else (s.on fun d => d.wantDomain (v % 512) (bit v 15), t)
  else if s.dev.waits e then
    let r := t.putEntry e
    let t1 := if r.2 = .ok then r.1 else t
    if r.2 = .ok || r.2 = .state || r.2 = .busy then
      (s.on fun d => { d with boot := { d.boot with entries := d.boot.entries ++ [e] } }, t1)
    else (s.on fun d => d.refuseEntry e, t)
  else
    let r := t.putEntry e
    (s.applyEntry e, if r.2 = .ok then r.1 else t)

/-- The entries of an image in order (R479). -/
def State.applyImage (s : State) (es : List Entry) : State :=
  (es.foldl State.imageEntry (s, s.on fun d => { d with pd := 2 ^ 300 - 1 })).1

/-- The held entries that wait for domains that are on now, applied in the image's order (R480). -/
def State.applyHeld (s : State) : State :=
  let go := s.dev.boot.entries.filter fun e => !s.dev.waits e
  let s1 := s.on fun d => { d with boot := { d.boot with entries := d.boot.entries.filter d.waits } }
  go.foldl State.applyEntry s1

/-! ### Switches of domains (R466, R467, R480) -/

/-- A domain off: the waveform memory's contents go with it (R466). -/
def State.domainOff (s : State) (n : Nat) : State :=
  { s with dev := s.dev.pdLeave n, wmem := if n = 298 then [] else s.wmem }

/-- A domain on: entries held for it, then what coming on does (R466, R480). -/
def State.domainOn (s : State) (n : Nat) : State :=
  let s1 := (s.on fun d => { d with pd := setBit d.pd n true }).applyHeld
  s1.on fun d => d.pdEnter n

/-- The switch in progress completes and the next one begins (R467). -/
def State.switchDone (s : State) : State :=
  match s.dev.pwr.switches with
  | [] => s
  | (n, on) :: rest =>
    let s1 := s.on fun d => d.reachCc d.pwr.switchDue
    let s2 := if on == s1.dev.pdOn n then s1 else if on then s1.domainOn n else s1.domainOff n
    s2.on fun d =>
      let due := match rest with
        | [] => 0
        | x :: _ => d.clk.cc + d.pdTime x.1 x.2
      { d with pwr := { d.pwr with switches := rest, switchDue := due } }

/-- DOMAIN_SWITCH_DONE (R467). -/
def execDomainSwitchDone (s : State) : Host.Outcome State Fault Refusal := .next s.switchDone

/-! ### The calibration bank (R420) -/

/-- Whether SEQ `a` is newer than `b`, as serial numbers (R420). -/
def seqNewer (a b : Nat) : Bool :=
  let x := (a + 2 ^ 32 - b % 2 ^ 32) % 2 ^ 32
  decide (1 ≤ x) && decide (x < 2 ^ 31)

/-- The bank to be in force of two, A and B, by their SEQ where they are valid: 1 A, 2 B, 0 none (R420). -/
def newestBank (a b : Option Nat) : Nat :=
  match a, b with
  | none, none => 0
  | some _, none => 1
  | none, some _ => 2
  | some x, some y => if seqNewer y x then 2 else 1

/-- SEQ of a valid bank. -/
def Bank.seq? : Bank → Option Nat
  | .valid q _ _ => some q
  | _ => none

/-- SEQ of the header of a bank that a store left. -/
def Bank.tornSeq : Bank → Option Nat
  | .torn h => h
  | _ => none

/-- Whether a bank is neither valid nor erased. -/
def Bank.isTorn : Bank → Bool
  | .torn _ => true
  | _ => false

/-- The factors of every channel formed from the shadow at T_NOW and put in force (R420). -/
def Dev.formEvery (d : Dev) : Dev :=
  (List.range 256).foldl (fun e u =>
    (e.modMeas u fun m => { m with fact := e.formAll u (e.rd C.T_NOW u), pend := none }).wr C.T_APPLIED u (e.rd C.T_NOW u)) d

/-- The outcome of the selection, with the bank in force, its content and the other's: LOAD_RESULT (R420). -/
def loadResult (now : Nat) (force other : Bank) : Nat :=
  match force with
  | .valid q serial _ =>
    if now = 0 then 0
    else if other.tornSeq.any fun h => seqNewer h q then 2
    else if serial ≠ Config.serial then 3
    else 1
  | _ => 0

/-- The calibration bank selected and loaded (R420). -/
def Dev.loadCal (d : Dev) : Dev :=
  let now := newestBank d.bankA.seq? d.bankB.seq?
  let force := if now = 1 then d.bankA else if now = 2 then d.bankB else .erased
  let other := if now = 1 then d.bankB else d.bankA
  let torn := other.isTorn || (now == 0 && d.bankB.isTorn)
  let lr := loadResult now force other
  let d1 := { d with shadow := force.sets }.formEvery
  let d2 := ((d1.wr D.BANK_NOW 0 now).wr D.SEQ_NOW 0 (force.seq?.getD 0)).wr D.LOAD_RESULT 0 lr
  let d3 := if lr = 1 then d2 else d2.report 0x3732 0 lr
  if torn then (d3.wr D.STORE_RESULT 0 4).report 0x3733 0 0 else d3

/-! ### The image (R478, R479) -/

/-- SEQ and LENGTH of image bank `b` where it is valid; of a bank that an erase or a commit was cut off in, that is open:
one free bit a bank (R478, log 14). -/
def State.imgValid (s : State) (b : Nat) : Option (Nat × Nat) :=
  if bit s.dev.imgTorn b && !bit (s.dev.freeBits 2) b then none else s.imgCommit b

/-- The image bank to be in force, 0 for none, and its entries (R478). -/
def State.imgSelect (s : State) : Nat × List Entry :=
  let now := newestBank ((s.imgValid 0).map Prod.fst) ((s.imgValid 1).map Prod.fst)
  if now = 0 then (0, [])
  else match s.imgValid (now - 1) with
    | some (_, len) => (now, (entriesOf len (s.flashAt (imgBase (now - 1) + 16) (len - 16))).1)
    | none => (0, [])

/-- The image selected and applied (R478–R480). -/
def State.loadImage (s : State) : State :=
  let x := s.imgSelect
  if x.1 = 0 then s.on fun d => d.drawn.wr D.IMG_RESULT 0 3
  else
    let seq := ((s.imgValid (x.1 - 1)).map Prod.fst).getD 0
    let newer := s.imgValid (2 - x.1) = none && (s.imgHeaderSeq (2 - x.1)).any fun h => seqNewer h seq
    (s.on fun d => (((d.drawn.wr D.IMG_BANK_NOW 0 x.1).wr D.IMG_SEQ_NOW 0 seq).wr D.IMG_RESULT 0 (if newer then 2 else 1)).wr
      D.IMG_REFUSED 0 0).applyImage x.2

/-- Core cycles of a time in µs. -/
def Dev.us (d : Dev) (n : Nat) : Nat := n * (d.clk.fcore / 1000000)

/-- Core cycles that reading and applying the image takes: 50 MB/s, 20 µs an entry, 20 ns a value byte (R482). -/
def State.imageCc (s : State) : Nat :=
  let x := s.imgSelect
  let vals := x.2.foldl (fun a (e : Entry) => a + e.bytes.length) 0
  let all := x.2.foldl (fun a (e : Entry) => a + 8 + (e.bytes.length + 3) / 4 * 4) 0
  s.dev.us (20 * x.2.length) + (20 * all + 20 * vals) * s.dev.clk.fcore / 1000000000

/-! ### The phases (R482, R483) -/

/-- Typical core cycles of the phase in progress (R482). -/
def State.phaseCc (s : State) : Nat :=
  let d := s.dev
  let core := d.boot.core
  match d.rdN D.DS_PHASE 0 with
  | 1 => d.us 2000
  | 2 => d.us 6000
  | 3 => if core then 0 else d.us 100000
  | 4 =>
    if !d.pwr.flash then d.us 2000
    else if d.rd D.BOOT_MODE 0 = 1 then d.us (if core then 2000 else 14000) + s.imageCc
    else if core then 0 else d.us 12000
  | 5 => d.us 40000
  | _ => 0

/-- Phase 1: both PLLs lock; the service-only boot ends here, everything else off (R482, R483). -/
def Dev.phaseClocks (d : Dev) : Dev :=
  let d1 := (d.wr D.CORE_LOCK 0 1).wr D.CV_LOCK 0 1
  if d1.rd D.BOOT_MODE 0 = 3 then
    ({ d1 with pd := 0 }.wr D.DS_STATE 0 2).wr D.BOOT_RESULT 0 (if d1.rd D.BOOT_SRC 0 = 2 then 4 else 3)
  else d1.wr D.DS_PHASE 0 2

/-- Domains the firmware phase switches on: the cluster, port logic and lanes (R464, R482). -/
def bootDomains : List Nat := [299, 280, 281] ++ (List.range 8).map (272 + ·)

/-- Domains switched on. -/
def Dev.powerUp (d : Dev) (ns : List Nat) : Dev := ns.foldl (fun e n => { e with pd := setBit e.pd n true }) d

/-- The newest record of the ring whose check holds (R442). -/
def History.newestRec (h : History) : Option HSlot :=
  h.records.foldl (fun a x => match a with
    | none => some x
    | some y => if seqNewer x.rseq y.rseq then some x else some y) none

/-- A power-on is counted from the newest record and gets a record of its own (R443, R444). -/
def Dev.bootHistory (d : Dev) : Dev :=
  if !d.boot.powerOn then d
  else
    let last := match d.flt.pending.getLast? with
      | some r => some r.boot
      | none => d.hist.newestRec.map fun x => x.rcd.boot
    let n := match last with
      | some b => (b + 1) % 2 ^ 16
      | none => 1
    let d1 := d.wr D.H_BOOTS 0 (n : Nat)
    d1.remember (d1.markRec 0 0x40)

/-- Phase 2: the firmware, its ports training; after a core reset the domains are as they were kept (R469, R482). -/
def Dev.phaseFirmware (d : Dev) : Dev :=
  let d1 := if d.boot.core then d.powerUp [299] else d.powerUp bootDomains
  (((d1.restartLink 0).restartLink 1).bootHistory).wr D.DS_PHASE 0 3

/-- Phase 3: memory tested and left zero, its domains on (R464, R482). -/
def State.phaseMemory (s : State) : State :=
  let next := fun (d : Dev) => d.wr D.DS_PHASE 0 4
  if s.dev.boot.core then s.on next
  else { s with
    wmem := [],
    dev := next { s.dev.powerUp ((List.range 17).map (282 + ·)) with qmem := [] } }

/-- A boot without flash starts with an empty shadow (R420, R476). -/
def Dev.noCal (d : Dev) : Dev :=
  ({ d with shadow := [] }.formEvery.wr D.LOAD_RESULT 0 0).report 0x3732 0 0

/-- Phase 4: the calibration bank, and the image of a boot that loads from flash (R420, R479, R482). -/
def State.phaseFlash (s : State) : State :=
  let flash := s.dev.pwr.flash
  let s1 := if s.dev.boot.core then s else if flash then s.on Dev.loadCal else s.on Dev.noCal
  let s2 := if flash && s.dev.rd D.BOOT_MODE 0 = 1 then s1.loadImage else s1
  s2.on fun d => d.wr D.DS_PHASE 0 5

/-- The domains of channels and stoves the boot leaves off: those recorded off, and channels of such a stove
(R27, R479, R482). -/
def Dev.leftOff (d : Dev) (n : Nat) : Bool :=
  d.boot.wantOff.contains n || (decide (n < 256) && d.boot.wantOff.contains (256 + stoveOf n))

/-- A domain that is neither a stove's nor a channel's switched as the image records it, or refused (R466, R479). -/
def State.recordedOff (s : State) (n : Nat) : State :=
  if n < 272 || !s.dev.pdOn n then s
  else if s.dev.pdState n false then s.domainOff n
  else s.on fun d => d.refuseEntry ⟨0x2020, 1, false, []⟩

/-- Phase 5: stoves and channels on but those recorded off, held entries applied, INIT transfers and aux scans
(R102, R480, R482). -/
def State.phaseStoves (s : State) : State :=
  let on := (List.range 272).filter fun n => !s.dev.leftOff n
  let off := (List.range 272).filter s.dev.leftOff
  let fresh := on.filter fun n => !s.dev.pdOn n
  let s1 := (s.dev.boot.wantOff.foldl State.recordedOff s).on fun d => off.foldl (fun e n => if e.pdOn n then e.pdLeave n else e) d
  let s2 := (s1.on fun d => d.powerUp fresh).applyHeld
  let ks := (List.range 16).filter fun k => s2.dev.pdOn (256 + k)
  s2.on fun d =>
    let d1 := (fresh.filter (· < 256)).foldl Dev.pdEnter d
    let d2 := ks.foldl (fun (e : Dev) k => e.pdEnter (256 + k)) d1
    (d2.selfcal .console).wr D.DS_PHASE 0 6

/-- What the stand-alone monitor boot puts in force for a channel (R393). -/
def Dev.standAloneCh (d : Dev) (u : Nat) : Dev :=
  if !d.pdOn u then d
  else
    let iR := d.rd C.I_RANGES u - 1
    let vR := d.rd C.V_RANGES u - 1
    let len := (2 * d.clk.fcv + 1000) / 2000
    let d1 := ((d.chCmd .console u 2).rangeWrite .console u false iR).rangeWrite .console u true vR
    ((((d1.wr C.AR_I u 0).wr C.AR_V u 0).wr C.AP_MODE u 0).wr C.AP_LENGTH u len).setApRun u 1

/-- What the stand-alone monitor boot puts in force for a stove (R393). -/
def Dev.standAloneSt (d : Dev) (k : Nat) : Dev :=
  if d.pdOn (256 + k) then (d.wr S.SE_CMD k 0).rotEnable k true else d

/-- The end of a boot's work by its mode: R393, autorun, or nothing (R223, R224, R482). -/
def Dev.enterMode (d : Dev) : Dev :=
  match d.rdN D.BOOT_MODE 0 with
  | 0 =>
    let d1 := (List.range 16).foldl Dev.standAloneSt d.asRunning
    ((List.range 256).foldl Dev.standAloneCh d1).asBefore d
  | 1 =>
    if !d.flag D.AR_EN 0 || decide (d.rd D.IMG_RESULT 0 = 3) || !d.pwr.flash then d
    else if d.rd D.AR_TRIGGER 0 = 0 then d.autorun {}
    else d.wr D.AR_STATUS 0 1
  | _ => d

/-- Phase 7: the boot completes (R440, R482, R485). -/
def Dev.phaseEntry (d : Dev) : Dev :=
  let d1 := (d.enterMode.wr D.DS_STATE 0 1).wr D.BOOT_RESULT 0 1
  let ms := (d1.clk.cc - d1.boot.from_) / (d1.clk.fcore / 1000)
  let d2 := (d1.wr D.BOOT_MS 0 (ms : Nat)).wr D.WD_RESETS 0 0
  (d2.raise (srcDev 3)).fltEval.rescope

/-- Whether the boot goes on: nothing holds it, and the present phase can end. Clocks need CVCLK, self-calibration its
end (R160, R482, R484). -/
def Dev.booting (d : Dev) : Bool :=
  !d.held && !d.boot.rstLow && !d.boot.jtag && decide (d.rd D.DS_STATE 0 = 0) && decide (1 ≤ d.rd D.DS_PHASE 0) &&
    !(d.rd D.DS_PHASE 0 == 1 && d.pwr.cvLost) && !(d.rd D.DS_PHASE 0 == 6 && d.cals.any fun r => r.selfcal)

/-- The end of the phase in progress (R482). -/
def State.phaseEnd (s : State) : State :=
  if !s.dev.booting then s
  else
    let n := s.dev.rdN D.DS_PHASE 0
    let s1 := s.on fun d => d.reachCc (d.boot.phaseAt + s.phaseCc)
    let s2 := match n with
      | 1 => s1.on Dev.phaseClocks
      | 2 => s1.on Dev.phaseFirmware
      | 3 => s1.phaseMemory
      | 4 => s1.phaseFlash
      | 5 => s1.phaseStoves
      | 6 => s1.on fun d => d.wr D.DS_PHASE 0 7
      | _ => s1.on Dev.phaseEntry
    s2.on fun d => { d with boot := { d.boot with phaseAt := d.clk.cc } }.rescope

/-- BOOT_PHASE_END (R482). -/
def execBootPhaseEnd (s : State) : Host.Outcome State Fault Refusal := .next s.phaseEnd

/-- BOOT_CLOCK_TIMEOUT: clocks not locked 10 ms into phase 1; the boot stops with DS_STATE 3 (R484). -/
def Dev.clockTimeout (d : Dev) : Dev :=
  if d.held || d.boot.rstLow || d.boot.jtag || d.rd D.DS_STATE 0 ≠ 0 || d.rd D.DS_PHASE 0 ≠ 1 then d
  else (((d.reachCc (d.boot.phaseAt + d.us 10000)).wr D.DS_STATE 0 3).wr D.BOOT_RESULT 0 2).rescope

/-- BOOT_CLOCK_TIMEOUT (R484). -/
def execBootClockTimeout (s : State) : Host.Outcome State Fault Refusal := .next (s.on Dev.clockTimeout)

end Sys2Proof.Machine
end

