-- ==== Sys2Proof/Machine/Console.lean ====
section
/-! DEFINITION. The Kettle console: its commands and the lines it sends (R486–R494, R504). -/

namespace Sys2Proof.Machine

open Sys2Proof

/-! ### Text (R381, R504) -/

/-- A number in decimal with at least `w` digits. -/
def padDec (w n : Nat) : String :=
  let s := (Nat.toDigits 10 n)
  String.ofList (List.replicate (w - s.length) '0' ++ s)

/-- One hexadecimal digit in capitals. -/
def hexDigit (n : Nat) : Char := if n < 10 then Char.ofNat (48 + n) else Char.ofNat (55 + n)

/-- A number below 2^16 in hexadecimal with four digits. -/
def hex4 (n : Nat) : String :=
  String.ofList ['0', 'x', hexDigit (n / 4096 % 16), hexDigit (n / 256 % 16), hexDigit (n / 16 % 16), hexDigit (n % 16)]

/-- A target of FAULT_CLEAR as the console writes it (R445, R491). -/
def targetText (t : Nat) : String :=
  if t < 256 then "CH" ++ padDec 3 t
  else if t < 384 then "VC" ++ padDec 3 t
  else if 0x1000 ≤ t && decide (t < 0x1010) then "ST" ++ padDec 1 (t % 16)
  else if t = 0x2000 then "PA"
  else if t = 0x2001 then "PB"
  else if t = 0x2100 then "WEST"
  else if t = 0x2101 then "EAST"
  else "DEV"

/-- The unit of a record as the console writes it (R504). -/
def unitText (code unit : Nat) : String :=
  match (fSource code).map FSource.kind with
  | some .chan => targetText unit
  | some .virt => targetText unit
  | some .stove => targetText (0x1000 + unit)
  | some .port => targetText (0x2000 + unit)
  | some .half => targetText (0x2100 + unit)
  | some .tb => "TB" ++ padDec 1 unit
  | some .queue => "Q" ++ padDec 1 unit
  | some _ => "DEV"
  | none => targetText unit

/-- The name of a fault code (R426–R428). -/
def codeName (code : Nat) : List String :=
  match fSource code with
  | some x => [x.name]
  | none => []

/-- The severity letter of a record's flags and the words after it (R504). -/
def flagWords (f : Nat) : List String :=
  (match f % 4 with
   | 1 => ["T"]
   | 2 => ["M"]
   | 3 => ["S"]
   | _ => []) ++
    (if bit f 2 then ["INJ"] else []) ++ (if bit f 3 then ["REAL"] else []) ++ (if bit f 4 then ["RCT"] else []) ++
    (if bit f 5 then ["CLR"] else []) ++ (if bit f 6 then ["BOOT"] else [])

/-- The line of a record; `seq` is none for one still in the retention RAM (R504). -/
def histText (seq : Option Nat) (r : FRec) : String :=
  let mark := match seq with
    | some n => "#" ++ padDec 1 n
    | none => "P"
  let time := padDec 1 (r.time / 1000000000) ++ "." ++ padDec 9 (r.time % 1000000000)
  " ".intercalate ([mark, "B" ++ padDec 1 r.boot, time, hex4 r.code] ++ codeName r.code ++
    [if bit r.flags 5 then targetText r.unit else unitText r.code r.unit] ++ flagWords r.flags ++
    ["x" ++ padDec 1 r.count, "D=" ++ padDec 1 r.detail])

/-- The line of a slot of the ring (R504). -/
def slotText (x : HSlot) : String :=
  if x.good then histText (some x.rseq) x.rcd else "#" ++ padDec 1 x.rseq ++ " BAD"

/-! ### A command and its answer (R489–R491) -/

/-- A command given in its scopes, its result lines and then its status line; out of them STATE; without VSRV no answer
(R489, R490, R491). -/
def State.command (s : State) (scopes : List Nat) (f : State → State) : State :=
  if !s.dev.pwr.vsrv then s.on fun d => d.say .noAnswer
  else
    let t := if scopes.contains s.dev.scope then f s else s.on fun d => d.say .state
    t.on fun d => d.line (.status d.status)

/-- A line that the console cannot parse (R489). -/
def State.malformed (s : State) : State := s.on fun d => d.say .malformed

/-- The value of an object as a result line. -/
def Dev.showObj (d : Dev) (m : Mem) (x : Nat × Nat) : Dev :=
  match lookupObj x.1 x.2 with
  | some f => d.line (.val x.1 x.2 (.num (d.numOf m .console f x.1 x.2)))
  | none => d

/-- The values of objects, one line each. -/
def State.showObjs (s : State) (xs : List (Nat × Nat)) : State :=
  s.on fun d => (xs.foldl (fun (e : Dev) x => e.showObj s.wmem x) d).say .ok

/-! ### Rate (R487, R488) -/

/-- CONSOLE_AUTOBAUD: the first character received, a carriage return at one of the rates, sets CON_RATE (R487). -/
def Dev.autobaud (d : Dev) (rate : Nat) : Dev :=
  if !d.pwr.vsrv || !d.isl.measuring || !d.flag D.CON_AUTOBAUD 0 then d
  else
    let d1 := { d with isl := { d.isl with measuring := false } }
    if D.CON_RATE.dom.accepts rate then d1.wr D.CON_RATE 0 rate else d1

/-- CONSOLE_AUTOBAUD (R487). -/
def execConsoleAutobaud (rate : Nat) (s : State) : Host.Outcome State Fault Refusal := .next (s.on fun d => d.autobaud rate)

/-- CONSOLE_LINE_BREAK: the measurement starts again (R487). -/
def execConsoleLineBreak (s : State) : Host.Outcome State Fault Refusal :=
  .next (s.on fun d => if d.pwr.vsrv then { d with isl := { d.isl with measuring := true } } else d)

/-- CONSOLE_RATE (R488, R491). -/
def execConsoleRate (rate : Nat) (s : State) : Host.Outcome State Fault Refusal :=
  .next (s.command [0, 1, 2, 3] fun t => t.putNum .console 0x2603 1 rate)

/-! ### HELP, ID, STATUS (R491) -/

/-- Commands and the scopes they work in (R491). -/
def commandNames : List (String × List Nat) := [
  ("HELP", [0, 1, 2, 3]), ("ID", [0, 1, 2, 3]), ("STATUS", [0, 1, 2, 3]), ("HIST", [0, 1, 2, 3]),
  ("FLASH VERIFY", [0, 1, 3]), ("FLASH READ", [0, 1, 3]), ("TP", [0, 1, 2, 3]), ("CONT", [0]), ("RD", [2, 3]),
  ("WR", [2, 3]), ("DRD", [3]), ("DWR", [3]), ("FAULTS", [3]), ("CLEAR", [3]), ("FENCE", [3]), ("TEST", [3]),
  ("ENTER", [3]), ("METER", [3]), ("RATE", [0, 1, 2, 3]), ("BOOT", [1, 2, 3]), ("RESET", [1, 2, 3])]

/-- CONSOLE_HELP (R491). -/
def execConsoleHelp (s : State) : Host.Outcome State Fault Refusal :=
  .next (s.command [0, 1, 2, 3] fun t => t.on fun d =>
    ((commandNames.filter fun x => x.2.contains d.scope).foldl (fun (e : Dev) x => e.line (.text x.1)) d).say .ok)

/-- What ID prints: in island scope what the island holds itself (R491, R492). -/
def idObjs (scope : Nat) : List (Nat × Nat) :=
  ((List.range 12).map fun i => (0x1000, i + 1)) ++
    if scope = 0 then [(0x1001, 2)] else (List.range 4).map fun i => (0x1001, i + 1)

/-- CONSOLE_ID (R491). -/
def execConsoleId (s : State) : Host.Outcome State Fault Refusal :=
  .next (s.command [0, 1, 2, 3] fun t => t.showObjs (idObjs t.dev.scope))

/-- What STATUS prints (R491). -/
def statusObjs (scope : Nat) : List (Nat × Nat) :=
  [(0x2603, 4), (0x2021, 9)] ++
    if scope = 0 then []
    else ((List.range 8).map fun i => (0x2021, i + 1)) ++ [(0x2000, 1)] ++ ((List.range 7).map fun i => (0x2002, i + 1)) ++
      [(0x2306, 2), (0x2300, 5)]

/-- CONSOLE_STATUS (R491). -/
def execConsoleStatus (s : State) : Host.Outcome State Fault Refusal :=
  .next (s.command [0, 1, 2, 3] fun t => t.showObjs (statusObjs t.dev.scope))

/-! ### The flash (R477, R491, R493, R504) -/

/-- Records newest first: those still in the retention RAM, then the ring from its last slot back (R504). -/
def Dev.histLines (d : Dev) : List String :=
  let pend := d.flt.pending.reverse.map (histText none)
  let at_ := fun (i : Nat) => d.hist.ring.look ((d.hist.next + 2 * ringSlots - 1 - i) % ringSlots)
  let ring := if d.pwr.flash then (List.range ringSlots).filterMap at_ else []
  pend ++ ring.map slotText

/-- The commit record of a calibration bank and its bytes (R417, R418). -/
def calBankBytes (seq serial : Nat) (sets : SMap CalSet) : List Byte :=
  natLe 2 1 ++ natLe 2 0 ++ natLe 8 serial ++ natLe 4 seq ++ natLe 240 0 ++ (List.range 256).flatMap (recordBytes sets)

/-- MAGIC of a calibration bank (R418). -/
def calMagic : Nat := 0x5ABEC0A1

/-- Byte `o` of a calibration bank; `fr` where a store that was cut off leaves it open (R417–R419). -/
def Bank.byte (b : Bank) (o : Nat) (fr : Byte) : Byte :=
  match b with
  | .erased => 0xFF
  | .torn _ => fr
  | .valid seq serial sets =>
    if o < 256 then (calBankBytes seq serial []).getD o 0
    else if o < 0x90100 then
      (setBytes (sets.look ((o - 256) / 2304 * 96 + (o - 256) % 2304 / 24))).getD ((o - 256) % 24) 0
    else if 0xFF000 ≤ o && decide (o < 0xFF020) then
      (commitBytes calMagic seq 0x90100 (crc32 (calBankBytes seq serial sets)) serial).getD (o - 0xFF000) 0
    else 0xFF

/-- Byte at a flash address; `fr` where the flash holds what a cut-off erase, program or store left (R477). -/
def State.flashByte (s : State) (a : Nat) (fr : Byte) : Byte :=
  if a < 0x200000 then (if bit s.dev.imgTorn (a / 0x100000) then fr else Mem.byte 0xFF s.flash a)
  else if a < 0x300000 then s.dev.bankA.byte (a - 0x200000) fr
  else if a < 0x400000 then s.dev.bankB.byte (a - 0x300000) fr
  else if a < 0x421000 then
    match s.dev.hist.ring.look ((a - 0x400000) / 32) with
    | none => 0xFF
    | some x => if x.good then (recBytes x.rseq x.rcd).getD (a % 32) 0 else fr
  else Mem.byte 0xFF s.flash a

/-- Bytes of the flash from an address; open ones are taken from one free value (log 8). -/
def State.flashDump (s : State) (a n : Nat) : List Byte :=
  let f := s.dev.freeBits (8 * n)
  (List.range n).map fun i => s.flashByte (a + i) (BitVec.ofNat 8 (f / 2 ^ (8 * i)))

/-- What FLASH VERIFY says of an image bank; of an open one by a free bit (R491). -/
def State.imgVerdict (s : State) (b : Nat) : String :=
  if (s.imgValid b).isSome then "valid"
  else if bit s.dev.imgTorn b then "invalid"
  else if s.flash.any fun e => decide (imgBase b ≤ e.1) && decide (e.1 < imgBase b + 0x100000) then "invalid"
  else "erased"

/-- What FLASH VERIFY says of a calibration bank (R491). -/
def Bank.verdict : Bank → String
  | .erased => "erased"
  | .torn _ => "invalid"
  | .valid _ _ _ => "valid"

/-- Result lines of a flash command (R491, R504). -/
def State.flashLines (s : State) : FlashCmd → List Line
  | .hist n => (s.dev.histLines.take n).map Line.text
  | .dump a n => [.hex (s.flashDump a n)]
  | .verify =>
    let bad := (s.dev.hist.ring.filter fun e => !e.2.good).length
    [.text ("image A " ++ s.imgVerdict 0), .text ("image B " ++ s.imgVerdict 1),
     .text ("calibration A " ++ s.dev.bankA.verdict), .text ("calibration B " ++ s.dev.bankB.verdict),
     .text ("history valid " ++ padDec 1 (s.dev.hist.ring.length - bad) ++ " invalid " ++ padDec 1 bad)]

/-- A flash command served. -/
def State.flashServe (s : State) (c : FlashCmd) : State :=
  s.on fun d => ((s.flashLines c).foldl (fun (e : Dev) x => e.line x) d.drawn).say .ok

/-- Whether a flash command waits: a calibration store, or the erase or commit of an image, is in progress in the scopes
in which the firmware reads the flash (R493). -/
def Dev.flashBusy (d : Dev) : Bool := decide (d.scope ≠ 0) && (d.storing.isSome || d.imgRuns)

/-- What a flash command answers before it reads: a dump outside 1 to 4,096 bytes VALUE, no flash STATE (log 6). -/
def Dev.flashCheck (d : Dev) : FlashCmd → Status
  | .hist _ => .ok
  | .verify => Status.state.when (!d.pwr.flash)
  | .dump a n => firstOf [Status.value.when (n == 0 || decide (4096 < n) || decide (2 ^ 32 < a + n)), Status.state.when (!d.pwr.flash)]

/-- A flash command: refused, served, or put behind what runs (R491, R493). -/
def State.flashCmd (s : State) (scopes : List Nat) (c : FlashCmd) : State :=
  if s.dev.pwr.vsrv && scopes.contains s.dev.scope && decide (s.dev.flashCheck c = .ok) && s.dev.flashBusy then
    s.on fun d => { d with isl := { d.isl with waits := d.isl.waits ++ [c], measuring := false } }
  else s.command scopes fun t => match t.dev.flashCheck c with
    | .ok => t.flashServe c
    | x => t.on fun d => d.say x

/-- Flash commands that waited served, once nothing runs any more (R493). -/
def State.flashFree (s : State) : State :=
  if s.dev.flashBusy then s
  else
    let t := s.on fun d => { d with isl := { d.isl with waits := [] } }
    let u := s.dev.isl.waits.foldl (fun (x : State) c => (x.flashServe c).on fun d => d.line (.status .ok)) t
    u.on fun d => { d with status := s.dev.status }

/-- HIST (R491, R504). -/
def execHist (n : Nat) (s : State) : Host.Outcome State Fault Refusal := .next (s.flashCmd [0, 1, 2, 3] (.hist n))

/-- FLASH_VERIFY (R491). -/
def execFlashVerify (s : State) : Host.Outcome State Fault Refusal := .next (s.flashCmd [0, 1, 3] .verify)

/-- FLASH_READ (R491). -/
def execFlashRead (addr n : Nat) (s : State) : Host.Outcome State Fault Refusal := .next (s.flashCmd [0, 1, 3] (.dump addr n))

/-- CAL_STORE_COMPLETE; console commands that waited for it are served (R419, R493). -/
def execCalStoreComplete (ok : Bool) (s : State) : Host.Outcome State Fault Refusal :=
  .next (s.on fun d => d.storeDone ok).flashFree

/-- IMAGE_FLASH_DONE; console commands that waited for it are served (R481, R493). -/
def execImageFlashDone (ok : Bool) (s : State) : Host.Outcome State Fault Refusal := .next (s.imgDone ok).flashFree

/-! ### Objects (R484, R491, R492) -/

/-- Objects the island serves RD of by itself (R492). -/
def islandReads (index sub : Nat) : Bool :=
  index == 0x1000 || (index == 0x1001 && sub == 2) || (index == 0x2021 && sub == 9) ||
    (index == 0x2304 && (decide (1 ≤ sub) && decide (sub ≤ 5) || sub == 8)) || index == 0x2600 || index == 0x2602 ||
    index == 0x2603

/-- A value read as a result line. -/
def Dev.showRead (d : Dev) (index sub : Nat) : Dev :=
  match d.status, d.value with
  | .ok, some (.bytes b) => d.line (.hex b)
  | .ok, some v => d.line (.val index sub v)
  | _, _ => d

/-- CONSOLE_RD (R484, R491, R492). -/
def execConsoleRd (index sub : Nat) (s : State) : Host.Outcome State Fault Refusal :=
  .next (s.command [0, 2, 3] fun t => t.on fun d =>
    if d.scope = 0 && !islandReads index sub then d.say .state
    else (d.readAny t.wmem .console index sub).showRead index sub)

/-- CONSOLE_WR (R484, R491). -/
def execConsoleWr (index sub : Nat) (v : Val) (s : State) : Host.Outcome State Fault Refusal :=
  .next (s.command [2, 3] fun t => match v with
    | .num x => t.writeAny .console index sub x
    | .bytes _ => t.malformed)

/-- CONSOLE_DRD (R491). -/
def execConsoleDrd (index sub n : Nat) (s : State) : Host.Outcome State Fault Refusal :=
  .next (s.command [3] fun t => t.on fun d => (d.readDomain t.wmem .console index sub n).showRead index sub)

/-- CONSOLE_DWR: at most 512 bytes (R491). -/
def execConsoleDwr (index sub : Nat) (bytes : List Byte) (s : State) : Host.Outcome State Fault Refusal :=
  .next (s.command [3] fun t => if 512 < bytes.length then t.malformed else t.writeDomain .console index sub bytes)

/-! ### Commands of the device (R491) -/

/-- Objects FAULTS prints: the summary, and STANDING of channels and stoves where it is above 0 (R491). -/
def Dev.faultObjs (d : Dev) : List (Nat × Nat) :=
  ((List.range 12).map fun i => (0x2300, i + 1)) ++
    ((List.range 384).filter fun u => decide (0 < d.standing u)).map (fun u => (C.STANDING.index u, 9)) ++
    ((List.range 16).filter fun k => decide (0 < d.standing (0x1000 + k))).map fun k => (S.STANDING.index k, 9)

/-- CONSOLE_FAULTS (R491). -/
def execConsoleFaults (s : State) : Host.Outcome State Fault Refusal :=
  .next (s.command [3] fun t => t.showObjs t.dev.faultObjs)

/-- CLR_CMD `v` for a target, at the console (R445, R491). -/
def State.clearCommand (s : State) (target : Nat) (v : Int) : State :=
  s.command [3] fun t =>
    if targetOk target then
      let u := t.putNum .console 0x2305 1 target
      if u.dev.status = .ok then u.putNum .console 0x2305 2 v else u
    else t.malformed

/-- CONSOLE_CLEAR (R491). -/
def execConsoleClear (target : Nat) (s : State) : Host.Outcome State Fault Refusal := .next (s.clearCommand target 1)

/-- CONSOLE_FENCE (R491). -/
def execConsoleFence (target : Nat) (s : State) : Host.Outcome State Fault Refusal := .next (s.clearCommand target 2)

/-- CONSOLE_ENTER: F64 bits of a reading, to FT_ENTRY (R491). -/
def execConsoleEnter (v : Int) (s : State) : Host.Outcome State Fault Refusal :=
  .next (s.command [3] fun t => t.putNum .console 0x2601 11 v)

/-- CONSOLE_METER: F64 bits of a reading, to CM_ENTRY (R491). -/
def execConsoleMeter (v : Int) (s : State) : Host.Outcome State Fault Refusal :=
  .next (s.command [3] fun t => t.putNum .console 0x2402 5 v)

/-- CONSOLE_BOOT (R491). -/
def execConsoleBoot (v : Nat) (s : State) : Host.Outcome State Fault Refusal :=
  .next (s.command [1, 2, 3] fun t => t.putNum .console 0x2001 2 v)

/-- CONSOLE_RESET: FULL 1, CORE 2, CHANNEL 3 (R491). -/
def execConsoleReset (level : Nat) (s : State) : Host.Outcome State Fault Refusal :=
  .next (s.command [1, 2, 3] fun t =>
    if 1 ≤ level && decide (level ≤ 3) then t.putNum .console 0x2001 1 level else t.malformed)

end Sys2Proof.Machine
end

