-- ==== Sys2Proof/Machine/Dispatch.lean ====
section
/-! DEFINITION. One arm per command: a direct call of its meaning. -/

namespace Sys2Proof.Machine

open Sys2Proof

def exec (i : Instr) (s : State) : Host.Outcome State Fault Refusal :=
  match i with
  | .chCmdOff p u => Sys2Proof.Machine.execChCmdOff p u s
  | .chCmdMonitor p u => Sys2Proof.Machine.execChCmdMonitor p u s
  | .chCmdSource p u => Sys2Proof.Machine.execChCmdSource p u s
  | .chCmdHold p u => Sys2Proof.Machine.execChCmdHold p u s
  | .chCmdResume p u => Sys2Proof.Machine.execChCmdResume p u s
  | .chCmdCalibrate p u => Sys2Proof.Machine.execChCmdCalibrate p u s
  | .sampleCorrected u vIn iIn spare => Sys2Proof.Machine.execSampleCorrected u vIn iIn spare s
  | .engineDecision u => Sys2Proof.Machine.execEngineDecision u s
  | .idleForced u => Sys2Proof.Machine.execIdleForced u s
  | .deferredEdge u => Sys2Proof.Machine.execDeferredEdge u s
  | .bandLockTimeout u => Sys2Proof.Machine.execBandLockTimeout u s
  | .coefficientWrite p u code v => Sys2Proof.Machine.execCoefficientWrite p u code v s
  | .ffDataWrite p u v => Sys2Proof.Machine.execFfDataWrite p u v s
  | .ffDataRead p u => Sys2Proof.Machine.execFfDataRead p u s
  | .oscDetection u => Sys2Proof.Machine.execOscDetection u s
  | .fbStuckDetect u => Sys2Proof.Machine.execFbStuckDetect u s
  | .kelvinHalfPeriod u => Sys2Proof.Machine.execKelvinHalfPeriod u s
  | .fbSatDetect u => Sys2Proof.Machine.execFbSatDetect u s
  | .injModeStart p u mode => Sys2Proof.Machine.execInjModeStart p u mode s
  | .injModeStop p u => Sys2Proof.Machine.execInjModeStop p u s
  | .injCountEnd u => Sys2Proof.Machine.execInjCountEnd u s
  | .counterClearWrite p index sub v => Sys2Proof.Machine.execCounterClearWrite p index sub v s
  | .stickyFlagClear p index sub v => Sys2Proof.Machine.execStickyFlagClear p index sub v s
  | .rangeWrite p u volt r => Sys2Proof.Machine.execRangeWrite p u volt r s
  | .autorangeUp u volt => Sys2Proof.Machine.execAutorangeUp u volt s
  | .autorangeDown u volt => Sys2Proof.Machine.execAutorangeDown u volt s
  | .rangeLinkTransferStart k => Sys2Proof.Machine.execRangeLinkTransferStart k s
  | .rangeLinkCheckDone k load ret => Sys2Proof.Machine.execRangeLinkCheckDone k load ret s
  | .tMakeElapsed u volt => Sys2Proof.Machine.execTMakeElapsed u volt s
  | .refreshTransfer k => Sys2Proof.Machine.execRefreshTransfer k s
  | .seCmdWrite p k v => Sys2Proof.Machine.execSeCmdWrite p k v s
  | .stageEnMismatch k => Sys2Proof.Machine.execStageEnMismatch k s
  | .ilkNLow k => Sys2Proof.Machine.execIlkNLow k s
  | .ilkNHigh k => Sys2Proof.Machine.execIlkNHigh k s
  | .memberWrite p h e v => Sys2Proof.Machine.execMemberWrite p h e v s
  | .hearthReshare h => Sys2Proof.Machine.execHearthReshare h s
  | .lpModeWrite p u v => Sys2Proof.Machine.execLpModeWrite p u v s
  | .lpSettleEnd u => Sys2Proof.Machine.execLpSettleEnd u s
  | .apertureEnd u => Sys2Proof.Machine.execApertureEnd u s
  | .lineTimeout u => Sys2Proof.Machine.execLineTimeout u s
  | .apRunWrite p u v => Sys2Proof.Machine.execApRunWrite p u v s
  | .accRun p u energy => Sys2Proof.Machine.execAccRun p u energy s
  | .accStop p u energy => Sys2Proof.Machine.execAccStop p u energy s
  | .accClear p u energy => Sys2Proof.Machine.execAccClear p u energy s
  | .accClearAndRun p u energy => Sys2Proof.Machine.execAccClearAndRun p u energy s
  | .lockinSettleEnd u => Sys2Proof.Machine.execLockinSettleEnd u s
  | .lockinWindowEnd u => Sys2Proof.Machine.execLockinWindowEnd u s
  | .selfcalStart p => Sys2Proof.Machine.execSelfcalStart p s
  | .selfcalComplete failed => Sys2Proof.Machine.execSelfcalComplete failed s
  | .rotationStart k => Sys2Proof.Machine.execRotationStart k s
  | .rotEnWrite p k v => Sys2Proof.Machine.execRotEnWrite p k v s
  | .spareCalDone k pass => Sys2Proof.Machine.execSpareCalDone k pass s
  | .matchComplete k => Sys2Proof.Machine.execMatchComplete k s
  | .converterSwap k => Sys2Proof.Machine.execConverterSwap k s
  | .freedCalDone k pass => Sys2Proof.Machine.execFreedCalDone k pass s
  | .substitution k => Sys2Proof.Machine.execSubstitution k s
  | .auxStart p k => Sys2Proof.Machine.execAuxStart p k s
  | .auxEntryEnd k code => Sys2Proof.Machine.execAuxEntryEnd k code s
  | .urgCmd p k => Sys2Proof.Machine.execUrgCmd p k s
  | .urgEntryEnd k code => Sys2Proof.Machine.execUrgEntryEnd k code s
  | .comparatorCrossing k c high => Sys2Proof.Machine.execComparatorCrossing k c high s
  | .testDacRouteWrite p k v => Sys2Proof.Machine.execTestDacRouteWrite p k v s
  | .segDataWrite p bytes => Sys2Proof.Machine.execSegDataWrite p bytes s
  | .segDescWrite p sub v => Sys2Proof.Machine.execSegDescWrite p sub v s
  | .filledWrite p v => Sys2Proof.Machine.execFilledWrite p v s
  | .sqCmdStart p u => Sys2Proof.Machine.execSqCmdStart p u s
  | .sqCmdStop p u => Sys2Proof.Machine.execSqCmdStop p u s
  | .sqCmdJump p u => Sys2Proof.Machine.execSqCmdJump p u s
  | .stepForce u => Sys2Proof.Machine.execStepForce u s
  | .stepRamp u => Sys2Proof.Machine.execStepRamp u s
  | .rampEnd u => Sys2Proof.Machine.execRampEnd u s
  | .stepSine u => Sys2Proof.Machine.execStepSine u s
  | .sineDurationEnd u => Sys2Proof.Machine.execSineDurationEnd u s
  | .stepSweep u => Sys2Proof.Machine.execStepSweep u s
  | .sweepPointStart u => Sys2Proof.Machine.execSweepPointStart u s
  | .pointDelayEnd u => Sys2Proof.Machine.execPointDelayEnd u s
  | .pointComplete u => Sys2Proof.Machine.execPointComplete u s
  | .stepDwell u => Sys2Proof.Machine.execStepDwell u s
  | .dwellEnd u => Sys2Proof.Machine.execDwellEnd u s
  | .stepMeasure u => Sys2Proof.Machine.execStepMeasure u s
  | .measureComplete u => Sys2Proof.Machine.execMeasureComplete u s
  | .stepWait u => Sys2Proof.Machine.execStepWait u s
  | .waitConditionMet u => Sys2Proof.Machine.execWaitConditionMet u s
  | .waitTimeout u => Sys2Proof.Machine.execWaitTimeout u s
  | .stepPost u => Sys2Proof.Machine.execStepPost u s
  | .stepJump u => Sys2Proof.Machine.execStepJump u s
  | .stepEnd u => Sys2Proof.Machine.execStepEnd u s
  | .stepPlay u => Sys2Proof.Machine.execStepPlay u s
  | .stepLoop u => Sys2Proof.Machine.execStepLoop u s
  | .stepLoopEnd u => Sys2Proof.Machine.execStepLoopEnd u s
  | .stepCall u => Sys2Proof.Machine.execStepCall u s
  | .stepReturn u => Sys2Proof.Machine.execStepReturn u s
  | .segmentBoundary u => Sys2Proof.Machine.execSegmentBoundary u s
  | .starvedSegmentStart u => Sys2Proof.Machine.execStarvedSegmentStart u s
  | .acqCmdArm p u => Sys2Proof.Machine.execAcqCmdArm p u s
  | .acqCmdDisarm p u => Sys2Proof.Machine.execAcqCmdDisarm p u s
  | .acqCmdForce p u => Sys2Proof.Machine.execAcqCmdForce p u s
  | .waitSpaceGrant u => Sys2Proof.Machine.execWaitSpaceGrant u s
  | .acqSample u => Sys2Proof.Machine.execAcqSample u s
  | .captureCommit u => Sys2Proof.Machine.execCaptureCommit u s
  | .rearmEnd u => Sys2Proof.Machine.execRearmEnd u s
  | .maskStopSequence u => Sys2Proof.Machine.execMaskStopSequence u s
  | .tgCmdArm p g => Sys2Proof.Machine.execTgCmdArm p g s
  | .tgCmdDisarm p g => Sys2Proof.Machine.execTgCmdDisarm p g s
  | .tgCmdForce p g => Sys2Proof.Machine.execTgCmdForce p g s
  | .groupTriggerDelivery g => Sys2Proof.Machine.execGroupTriggerDelivery g s
  | .queueAppend q item => Sys2Proof.Machine.execQueueAppend q item s
  | .reservationRequest q cls words => Sys2Proof.Machine.execReservationRequest q cls words s
  | .reservationClose q used => Sys2Proof.Machine.execReservationClose q used s
  | .queueReadWord p => Sys2Proof.Machine.execQueueReadWord p s
  | .queueReadBlock p bytes => Sys2Proof.Machine.execQueueReadBlock p bytes s
  | .qcCmdFlush p => Sys2Proof.Machine.execQcCmdFlush p s
  | .qcCmdSkip p => Sys2Proof.Machine.execQcCmdSkip p s
  | .qcCmdMark p => Sys2Proof.Machine.execQcCmdMark p s
  | .queueEnableWrite p v => Sys2Proof.Machine.execQueueEnableWrite p v s
  | .quotaWrite p cls v => Sys2Proof.Machine.execQuotaWrite p cls v s
  | .flueFire p v => Sys2Proof.Machine.execFlueFire p v s
  | .flueFireBits p v => Sys2Proof.Machine.execFlueFireBits p v s
  | .flueDelivery => Sys2Proof.Machine.execFlueDelivery s
  | .flueConverterArrival => Sys2Proof.Machine.execFlueConverterArrival s
  | .freezeEnd u => Sys2Proof.Machine.execFreezeEnd u s
  | .eviEdge pin high => Sys2Proof.Machine.execEviEdge pin high s
  | .eviCfgWrite p pin v => Sys2Proof.Machine.execEviCfgWrite p pin v s
  | .evoPulseEnd pin => Sys2Proof.Machine.execEvoPulseEnd pin s
  | .stepAbs p t v => Sys2Proof.Machine.execStepAbs p t v s
  | .stepRel p t v => Sys2Proof.Machine.execStepRel p t v s
  | .stepUnlock p t => Sys2Proof.Machine.execStepUnlock p t s
  | .tbIncWrite p t v => Sys2Proof.Machine.execTbIncWrite p t v s
  | .timeAcceptStep p t => Sys2Proof.Machine.execTimeAcceptStep p t s
  | .timeAcceptSlew p t => Sys2Proof.Machine.execTimeAcceptSlew p t s
  | .tbNowRead p t => Sys2Proof.Machine.execTbNowRead p t s
  | .servoOffset t offset interval => Sys2Proof.Machine.execServoOffset t offset interval s
  | .announceTimeout t => Sys2Proof.Machine.execAnnounceTimeout t s
  | .syncTimeout t => Sys2Proof.Machine.execSyncTimeout t s
  | .masterQualified t master => Sys2Proof.Machine.execMasterQualified t master s
  | .ptpMessageRx port msg => Sys2Proof.Machine.execPtpMessageRx port msg s
  | .ptpMessageTx port kind => Sys2Proof.Machine.execPtpMessageTx port kind s
  | .ptpCfgWrite p port sub v => Sys2Proof.Machine.execPtpCfgWrite p port sub v s
  | .txTsqEntry port tag => Sys2Proof.Machine.execTxTsqEntry port tag s
  | .tsqHeadRead p port => Sys2Proof.Machine.execTsqHeadRead p port s
  | .lqFrameWrite p port bytes => Sys2Proof.Machine.execLqFrameWrite p port bytes s
  | .launchTime port => Sys2Proof.Machine.execLaunchTime port s
  | .lqFlush p port => Sys2Proof.Machine.execLqFlush p port s
  | .compareMatch j => Sys2Proof.Machine.execCompareMatch j s
  | .capTimeRead p j => Sys2Proof.Machine.execCapTimeRead p j s
  | .syncArm p => Sys2Proof.Machine.execSyncArm p s
  | .syncDisarm p => Sys2Proof.Machine.execSyncDisarm p s
  | .syncInEdge => Sys2Proof.Machine.execSyncInEdge s
  | .syncLoad => Sys2Proof.Machine.execSyncLoad s
  | .syncOutPulse => Sys2Proof.Machine.execSyncOutPulse s
  | .syncOutPulseEnd => Sys2Proof.Machine.execSyncOutPulseEnd s
  | .portCfgWrite p port sub v => Sys2Proof.Machine.execPortCfgWrite p port sub v s
  | .linkUp port => Sys2Proof.Machine.execLinkUp port s
  | .linkDown port => Sys2Proof.Machine.execLinkDown port s
  | .frameRx port frame => Sys2Proof.Machine.execFrameRx port frame s
  | .samovarRequest port src bytes => Sys2Proof.Machine.execSamovarRequest port src bytes s
  | .tlvRead p index sub => Sys2Proof.Machine.execTlvRead p index sub s
  | .tlvWrite p index sub bytes => Sys2Proof.Machine.execTlvWrite p index sub bytes s
  | .tlvDomainRead p index sub len => Sys2Proof.Machine.execTlvDomainRead p index sub len s
  | .tlvDomainWrite p index sub bytes => Sys2Proof.Machine.execTlvDomainWrite p index sub bytes s
  | .timeRead p => Sys2Proof.Machine.execTimeRead p s
  | .limturReadWords port r ch n => Sys2Proof.Machine.execLimturReadWords port r ch n s
  | .limturWriteWords port r ch words => Sys2Proof.Machine.execLimturWriteWords port r ch words s
  | .dictWrite p index sub v => Sys2Proof.Machine.execDictWrite p index sub v s
  | .streamFrameSend port => Sys2Proof.Machine.execStreamFrameSend port s
  | .streamHoldoffExpiry port n => Sys2Proof.Machine.execStreamHoldoffExpiry port n s
  | .stEnableWrite p port v => Sys2Proof.Machine.execStEnableWrite p port v s
  | .stCmdFlush p port => Sys2Proof.Machine.execStCmdFlush p port s
  | .stCmdSkip p port => Sys2Proof.Machine.execStCmdSkip p port s
  | .ownClaimClaim p expect => Sys2Proof.Machine.execOwnClaimClaim p expect s
  | .ownClaimRelease p expect => Sys2Proof.Machine.execOwnClaimRelease p expect s
  | .ownClaimHandOver p expect => Sys2Proof.Machine.execOwnClaimHandOver p expect s
  | .leaseExpiry port => Sys2Proof.Machine.execLeaseExpiry port s
  | .ownershipCheck => Sys2Proof.Machine.execOwnershipCheck s
  | .arbResolve p v => Sys2Proof.Machine.execArbResolve p v s
  | .grantPortsWrite p v => Sys2Proof.Machine.execGrantPortsWrite p v s
  | .grantExpiry => Sys2Proof.Machine.execGrantExpiry s
  | .tempPoll u => Sys2Proof.Machine.execTempPoll u s
  | .tempSourceStale u => Sys2Proof.Machine.execTempSourceStale u s
  | .factorsApplyIdle u => Sys2Proof.Machine.execFactorsApplyIdle u s
  | .crCmdStart p => Sys2Proof.Machine.execCrCmdStart p s
  | .crCmdAbort p => Sys2Proof.Machine.execCrCmdAbort p s
  | .calSettleEnd => Sys2Proof.Machine.execCalSettleEnd s
  | .calPairComplete => Sys2Proof.Machine.execCalPairComplete s
  | .cmEntryWrite p v => Sys2Proof.Machine.execCmEntryWrite p v s
  | .cmTimeout => Sys2Proof.Machine.execCmTimeout s
  | .calFactorsWrite p sub bytes => Sys2Proof.Machine.execCalFactorsWrite p sub bytes s
  | .calStore p => Sys2Proof.Machine.execCalStore p s
  | .calStoreComplete ok => Sys2Proof.Machine.execCalStoreComplete ok s
  | .calReload p => Sys2Proof.Machine.execCalReload p s
  | .faultReport r => Sys2Proof.Machine.execFaultReport r s
  | .watchdogExpiry east => Sys2Proof.Machine.execWatchdogExpiry east s
  | .faultClearCmd p => Sys2Proof.Machine.execFaultClearCmd p s
  | .faultFenceCmd p => Sys2Proof.Machine.execFaultFenceCmd p s
  | .faultStickyCmd p => Sys2Proof.Machine.execFaultStickyCmd p s
  | .eraseHistoryCmd p => Sys2Proof.Machine.execEraseHistoryCmd p s
  | .historyProgram ok => Sys2Proof.Machine.execHistoryProgram ok s
  | .faultInjectArm p v => Sys2Proof.Machine.execFaultInjectArm p v s
  | .powerOnReset => Sys2Proof.Machine.execPowerOnReset s
  | .railBrownout rail => Sys2Proof.Machine.execRailBrownout rail s
  | .supplySample rail uv => Sys2Proof.Machine.execSupplySample rail uv s
  | .dieTempSample die mc => Sys2Proof.Machine.execDieTempSample die mc s
  | .pllLockLoss core => Sys2Proof.Machine.execPllLockLoss core s
  | .cvclkLoss => Sys2Proof.Machine.execCvclkLoss s
  | .refclkLoss port => Sys2Proof.Machine.execRefclkLoss port s
  | .sysclkMeasure hz => Sys2Proof.Machine.execSysclkMeasure hz s
  | .cvClockWrite p sub v => Sys2Proof.Machine.execCvClockWrite p sub v s
  | .cvPllRelock => Sys2Proof.Machine.execCvPllRelock s
  | .pdCmdOn p domain => Sys2Proof.Machine.execPdCmdOn p domain s
  | .pdCmdOff p domain => Sys2Proof.Machine.execPdCmdOff p domain s
  | .domainSwitchDone => Sys2Proof.Machine.execDomainSwitchDone s
  | .rstNLow => Sys2Proof.Machine.execRstNLow s
  | .rstNRise straps => Sys2Proof.Machine.execRstNRise straps s
  | .rstCmdFull p => Sys2Proof.Machine.execRstCmdFull p s
  | .rstCmdCore p => Sys2Proof.Machine.execRstCmdCore p s
  | .rstCmdChannel p => Sys2Proof.Machine.execRstCmdChannel p s
  | .softResetAct => Sys2Proof.Machine.execSoftResetAct s
  | .bootPhaseEnd => Sys2Proof.Machine.execBootPhaseEnd s
  | .bootClockTimeout => Sys2Proof.Machine.execBootClockTimeout s
  | .imgCmdErase p => Sys2Proof.Machine.execImgCmdErase p s
  | .imgCmdCommit p => Sys2Proof.Machine.execImgCmdCommit p s
  | .imgDataWrite p bytes => Sys2Proof.Machine.execImgDataWrite p bytes s
  | .imageFlashDone ok => Sys2Proof.Machine.execImageFlashDone ok s
  | .consoleAutobaud rate => Sys2Proof.Machine.execConsoleAutobaud rate s
  | .consoleLineBreak => Sys2Proof.Machine.execConsoleLineBreak s
  | .consoleHelp => Sys2Proof.Machine.execConsoleHelp s
  | .consoleId => Sys2Proof.Machine.execConsoleId s
  | .consoleStatus => Sys2Proof.Machine.execConsoleStatus s
  | .hist n => Sys2Proof.Machine.execHist n s
  | .flashVerify => Sys2Proof.Machine.execFlashVerify s
  | .flashRead addr n => Sys2Proof.Machine.execFlashRead addr n s
  | .tpSelect b src stove => Sys2Proof.Machine.execTpSelect b src stove s
  | .cont ball => Sys2Proof.Machine.execCont ball s
  | .ctMeasure p => Sys2Proof.Machine.execCtMeasure p s
  | .ctMeasureDone uv => Sys2Proof.Machine.execCtMeasureDone uv s
  | .ctAbandon => Sys2Proof.Machine.execCtAbandon s
  | .consoleRd index sub => Sys2Proof.Machine.execConsoleRd index sub s
  | .consoleWr index sub v => Sys2Proof.Machine.execConsoleWr index sub v s
  | .consoleDrd index sub n => Sys2Proof.Machine.execConsoleDrd index sub n s
  | .consoleDwr index sub bytes => Sys2Proof.Machine.execConsoleDwr index sub bytes s
  | .consoleFaults => Sys2Proof.Machine.execConsoleFaults s
  | .consoleClear target => Sys2Proof.Machine.execConsoleClear target s
  | .consoleFence target => Sys2Proof.Machine.execConsoleFence target s
  | .consoleEnter v => Sys2Proof.Machine.execConsoleEnter v s
  | .consoleMeter v => Sys2Proof.Machine.execConsoleMeter v s
  | .consoleRate rate => Sys2Proof.Machine.execConsoleRate rate s
  | .consoleBoot v => Sys2Proof.Machine.execConsoleBoot v s
  | .consoleReset level => Sys2Proof.Machine.execConsoleReset level s
  | .consoleScopeChange => Sys2Proof.Machine.execConsoleScopeChange s
  | .ftStart p => Sys2Proof.Machine.execFtStart p s
  | .ftStop p => Sys2Proof.Machine.execFtStop p s
  | .ftEntryWrite p v => Sys2Proof.Machine.execFtEntryWrite p v s
  | .ftStepDone value => Sys2Proof.Machine.execFtStepDone value s
  | .ftEntryTimeout => Sys2Proof.Machine.execFtEntryTimeout s
  | .jtagInstruction => Sys2Proof.Machine.execJtagInstruction s
  | .jtagInstructionEnd => Sys2Proof.Machine.execJtagInstructionEnd s
  | .cvclkRestored => Sys2Proof.Machine.execCvclkRestored s
  | .portReferenceRestored port => Sys2Proof.Machine.execPortReferenceRestored port s
  | .pllLockRegained core => Sys2Proof.Machine.execPllLockRegained core s
  | .islandResetRelease => Sys2Proof.Machine.execIslandResetRelease s
  | .vsrvLoss => Sys2Proof.Machine.execVsrvLoss s
  | .mainRailsInWindow => Sys2Proof.Machine.execMainRailsInWindow s
  | .stoveDomainSupplyOut k => Sys2Proof.Machine.execStoveDomainSupplyOut k s
  | .coreTrap east => Sys2Proof.Machine.execCoreTrap east s
  | .mailboxTimeout => Sys2Proof.Machine.execMailboxTimeout s

end Sys2Proof.Machine
end

