-- ==== Sys2Proof/Machine/Step.lean ====
section
/-! DEFINITION. One step of the block: the command at the front of the queue, or one core cycle where none waits. -/

namespace Sys2Proof.Machine

open Sys2Proof

/-- One step: the front command carried out with the rest of the queue waiting; on an empty queue one core cycle passes:
the clocks count and the staging buffers drain (R18, R23, R313; log 2). -/
def step (s : State) : Host.Outcome State Fault Refusal :=
  match s.pending with
  | [] => .next (s.on fun d => d.advCc 1)
  | c :: rest => exec c { s with pending := rest }

/-- The command that a word spells, put at the front of the queue; the state as it is where the word spells none. -/
def State.withFetchWord (s : State) (nbits w : Nat) : State :=
  match decodeTableWord nbits w with
  | some c => { s with pending := c :: s.pending }
  | none => s

end Sys2Proof.Machine
end

