-- ==== Sys2Proof/Safety.lean ====
section
/-! DEFINITION. The terms the claims are stated in: the device as a command finds it, an access that is accepted, what a
command leads to, and the invariant of the two large memories. -/

namespace Sys2Proof.Machine

open Sys2Proof

/-- The device as a command finds it: every command of a hearth that is due by now has been carried out (R124). -/
def State.found (s : State) : Dev := s.dev.settle

/-- Command `c` answers a next state of which `P` holds. -/
def State.leads (s : State) (c : Instr) (P : State → Prop) : Prop := ∃ t, exec c s = .next t ∧ P t

/-- A party's write of `v` to place `i` of an object of unit `u` is accepted: it is served, the object is there and may be
written, the party holds the level, the object takes the value, and no state refuses it (R347–R354). -/
def State.accepts (s : State) (p : Party) (o : Obj) (u i : Nat) (v : Int) : Prop :=
  s.found.writeStatus p o u i v .ok = .ok

/-- What of the device lies outside the objects of the dictionary, the records of its channels, its clocks, and the traffic
of events, reports and accesses: stoves, hearths, sequences, acquisition units, queues and their memory, ports, flues, pins,
calibration store, fault collector, supplies and the rest. -/
def Dev.outside (d : Dev) : Dev :=
  { d with dict := [], chans := [], clk := {}, tb := [], srcCount := [], evts := [], reports := [], conss := [],
           status := .ok, value := none, free := 0 }

/-- What of the device no work of channels, ranges, samples, engines, acquisition units and queues touches: the calibration
store, ownership grants, the host ports and what they hold, the hearths' membership, fences of ports and halves, the flue
routes, supplies and power domains, event pins, the fault collector and its history, the boot and the service island. -/
def Dev.beyond (d : Dev) : Dev :=
  { d with dict := [], chans := [], clk := {}, tb := [], srcCount := [], evts := [], reports := [], conss := [],
           status := .ok, value := none, free := 0, stoves := [], stagedCc := 0, stagedLast := [], hearths := [],
           segs := [], seqs := [], acqs := [], grps := [], cr := none, crRest := [], cals := [], own := [],
           queues := [], qmem := [], use := [], ft := none, olds := {} }

/-- Whether a place of the dictionary is none of those that raising an event writes: FL_FLAGS, LOOP_FLUE, LOOPS_CUT. -/
def Obj.plain (o : Obj) (u i : Nat) : Prop :=
  o.key u i ≠ D.FL_FLAGS.key 0 0 ∧ o.key u i ≠ D.LOOP_FLUE.key 0 0 ∧ o.key u i ≠ D.LOOPS_CUT.key 0 0

/-- A place that watching the cuts does not write either: no HS_FLAGS. -/
def Obj.plainHs (o : Obj) (u i : Nat) : Prop := o.plain u i ∧ ∀ h, o.key u i ≠ C.HS_FLAGS.key h 0

/-- The canonical form of the waveform memory and of the flash: addresses strictly rising, and no entry equal to what an
unlisted byte reads as. -/
def State.memOk (s : State) : Prop := Mem.wf 0 s.wmem = true ∧ Mem.wf 0xFF s.flash = true

end Sys2Proof.Machine
end

