-- ==== Sys2Proof/Certificates/Slice0/Obligations.lean ====
section
/-! DEFINITION. The statements for the provers. A statement speaks of a command by what it leads to (`State.leads`): exec answers
a next state, and of it the clauses hold; `s.found` is the device as the command finds it, with what was due carried out. -/

open Sys2Proof Sys2Proof.Machine

/-- A step takes the command at the front of the queue and carries it out on the state with the queue's rest. -/
def Obligations.step_runs_the_front_command : Prop :=
  ∀ (s : State) (c : Instr) (cs : List Instr), s.pending = c :: cs → step s = exec c { s with pending := cs }

/-- Where no command waits, a step lets one core cycle pass: the core cycle count grows by one, each time base adds its
increment, and objects, channels, memories and the queue stay (R18, R313; the model's choice of log 2). -/
def Obligations.an_empty_queue_passes_one_core_cycle : Prop :=
  ∀ (s : State), s.pending = [] → ∃ t, step s = .next t ∧
    t.dev.clk.cc = s.found.clk.cc + 1 ∧ t.dev.clk = s.found.clk.adv 1 ∧
    (∀ n, n < 4 → t.dev.tbase n = { s.found.tbase n with acc := (s.found.tbase n).acc + (s.found.tbase n).inc }) ∧
    t.dev.dict = s.found.dict ∧ t.dev.chans = s.found.chans ∧ t.dev.outside = s.found.outside ∧
    t.wmem = s.wmem ∧ t.flash = s.flash ∧ t.pending = []

/-- Every command completes: it answers a next state, never a fault nor a refusal, and leaves the queue of commands to the
step. -/
def Obligations.every_command_completes_and_leaves_the_queue : Prop :=
  ∀ (s : State) (c : Instr), s.leads c fun t => t.pending = s.pending

/-- The state of power-on reset (R454, R456, R469): every object reads its default, every channel is Off, every engine and
unit Idle, every queue descriptor at its default, every switched domain is off, the main device is held, and nothing stands in memory. -/
def Obligations.reset_leaves_defaults : Prop :=
  (∀ (o : Obj) (u i : Nat), State.reset.dev.rdi o u i = o.default u i) ∧
  (∀ u, (State.reset.dev.ch u).ctl.st = .off ∧ (State.reset.dev.ch u).ctl.out = .idle ∧
    ((State.reset.dev.ch u).rng false).now = 7 ∧ ((State.reset.dev.ch u).rng true).now = 3 ∧
    (State.reset.dev.sq u).st = .idle ∧ (State.reset.dev.aq u).st = .idle) ∧
  (∀ q, State.reset.dev.qu q = Queue.initial q) ∧ (∀ n, State.reset.dev.pdOn n = false) ∧
  State.reset.dev.held = true ∧ State.reset.dev.fltLow = true ∧
  (∀ a, Mem.byte 0 State.reset.wmem a = 0 ∧ Mem.byte 0 State.reset.dev.qmem a = 0) ∧ State.reset.pending = []

/-- Right after reset the two large memories have their canonical form. -/
def Obligations.reset_memories_are_canonical : Prop := State.reset.memOk

/-- Every step keeps the canonical form of the waveform memory and of the flash: addresses strictly rising, and no entry that
equals what an unlisted byte reads as. -/
def Obligations.every_step_keeps_the_memories_canonical : Prop :=
  ∀ (s t : State), s.memOk → step s = .next t → t.memOk

/-- The code of a refused write (R349). An access that is not served at all answers what its gate answers; where it is served
and names an object, the write is accepted exactly where no reason refuses it; and a refusal carries one of the reasons'
codes, none of which is lower in the table of R349. -/
def Obligations.a_write_answers_the_first_code_of_r349 : Prop :=
  ∀ (d : Dev) (p : Party) (o : Obj) (u i : Nat) (v : Int) (extra : Status),
    (d.gate p (o.index u) true ≠ .ok → d.writeStatus p o u i v extra = d.gate p (o.index u) true) ∧
    (d.gate p (o.index u) true = .ok → o.there u i = false → d.writeStatus p o u i v extra = .noObject) ∧
    (d.gate p (o.index u) true = .ok → o.there u i = true → ∀ why : List Status,
      why = [Status.access.when (o.acc == .ro || o.acc == .const_ || hearthRo o u), d.levelOk p o u,
        Status.value.when (!o.ty.holds v || !o.dom.accepts v), d.stateOk o u v, extra] →
      (d.writeStatus p o u i v extra = .ok ↔ ∀ x ∈ why, x = .ok) ∧
      (d.writeStatus p o u i v extra ≠ .ok → d.writeStatus p o u i v extra ∈ why ∧
        ∀ x ∈ why, x ≠ .ok → (d.writeStatus p o u i v extra).code ≤ x.code))

/-- A command that writes an object and is refused changes nothing: the device is as it was but for the status, which is the
refusal's (R347, R349). `x` is what the rule of the object's own chapter answers. -/
def Obligations.a_refused_write_changes_the_status_alone : Prop :=
  ∀ (s : State) (d : Dev) (p : Party) (u i n : Nat) (v : Int) (volt : Bool), d = s.found →
    ∀ c ∈ ([(.chCmdOff p u, C.CH_CMD, u, 0, 1, d.chCheck u .off), (.chCmdMonitor p u, C.CH_CMD, u, 0, 2, d.chCheck u .monitor),
        (.chCmdSource p u, C.CH_CMD, u, 0, 3, d.chCheck u .source), (.chCmdHold p u, C.CH_CMD, u, 0, 4, d.chCheck u .hold),
        (.chCmdResume p u, C.CH_CMD, u, 0, 5, d.chCheck u .resume),
        (.chCmdCalibrate p u, C.CH_CMD, u, 0, 6, d.chCheck u .calibrate),
        (.ffDataWrite p u v, C.FF_DATA, u, 0, v, .ok), (.injModeStart p u v, C.INJ_MODE, u, 0, v, d.injCheck u v),
        (.injModeStop p u, C.INJ_MODE, u, 0, 0, d.injCheck u 0), (.rangeWrite p u volt v, oRange volt, u, 0, v, d.rangeCheck u volt v),
        (.seCmdWrite p u v, S.SE_CMD, u, 0, v, d.seCheck u v), (.memberWrite p u i v, C.MEMBER, u, i, v, d.memberCheck p u i v),
        (.lpModeWrite p u v, C.LP_MODE, u, 0, v, Status.state.when (decide (256 ≤ u))), (.apRunWrite p u v, C.AP_RUN, u, 0, v, .ok),
        (.accRun p u false, C.Q_ACC_CMD, u, 0, 1, .ok), (.accStop p u true, C.E_ACC_CMD, u, 0, 2, .ok),
        (.accClear p u false, C.Q_ACC_CMD, u, 0, 3, .ok), (.accClearAndRun p u true, C.E_ACC_CMD, u, 0, 4, .ok),
        (.selfcalStart p, D.SC_CMD, 0, 0, 1, Status.busy.when (d.rd D.SC_STATUS 0 = 1)), (.rotEnWrite p u v, S.ROT_EN, u, 0, v, .ok),
        (.auxStart p u, S.AUX_START, u, 0, 1, .ok), (.urgCmd p u, S.URG_CMD, u, 0, 1, .ok),
        (.testDacRouteWrite p u v, S.TD_ROUTE, u, 0, v, d.tdCheck p u v),
        (.sqCmdStart p u, C.SQ_CMD, u, 0, 1, d.startCheck u), (.sqCmdStop p u, C.SQ_CMD, u, 0, 2, .ok),
        (.sqCmdJump p u, C.SQ_CMD, u, 0, 3, .ok), (.acqCmdArm p u, C.ACQ_CMD, u, 0, 1, Status.busy.when (d.ftHolds u)),
        (.acqCmdDisarm p u, C.ACQ_CMD, u, 0, 2, .ok), (.acqCmdForce p u, C.ACQ_CMD, u, 0, 3, .ok),
        (.tgCmdArm p u, D.TG_CMD, u, 0, 1, d.groupCheck p u), (.tgCmdDisarm p u, D.TG_CMD, u, 0, 2, d.groupCheck p u),
        (.tgCmdForce p u, D.TG_CMD, u, 0, 3, d.groupCheck p u),
        (.quotaWrite p i v, D.QUOTA, 0, i, v, .ok), (.flueFire p v, D.FIRE, 0, 0, v, .ok),
        (.flueFireBits p v, D.FIRE_BITS, 0, 0, v, .ok),
        (.eviCfgWrite p i v, D.EVI_CFG, 0, i, v, Status.value.when (bits v.toNat 13 12 == 3)),
        (.stepUnlock p n, D.STEP_UNLOCK, n, 0, 1, tbLevel p n),
        (.lqFlush p n, D.LQ_FLUSH, n, 0, 1, .ok), (.syncArm p, D.SYNC_ARM, 0, 0, 1, Status.state.when (!d.enginesRest)),
        (.syncDisarm p, D.SYNC_ARM, 0, 0, 2, .ok), (.grantPortsWrite p v, D.GRANT_PORTS, 0, 0, v, .ok),
        (.arbResolve p v, D.ARB_RESOLVE, 0, 0, v, Status.state.when (d.arbUnits.any d.isMember)),
        (.cmEntryWrite p v, D.CM_ENTRY, 0, 0, v, d.cmCheck p v),
        (.rstCmdFull p, D.RST_CMD, 0, 0, 1, .ok), (.rstCmdCore p, D.RST_CMD, 0, 0, 2, .ok), (.rstCmdChannel p, D.RST_CMD, 0, 0, 3, .ok),
        (.ctMeasure p, D.CT_CMD, 0, 0, 1, d.ctCheck),
        (.ftEntryWrite p v, D.FT_ENTRY, 0, 0, v, Status.state.when (d.rd D.FT_STATE 0 ≠ 2))] :
          List (Instr × Obj × Nat × Nat × Int × Status)),
      ∀ y, y = d.writeStatus p c.2.1 c.2.2.1 c.2.2.2.1 c.2.2.2.2.1 c.2.2.2.2.2 → y ≠ .ok →
        s.leads c.1 fun t => t.dev = d.say y ∧ t.wmem = s.wmem ∧ t.flash = s.flash

/-- CH_CMD to a physical channel (R36–R42): accepted where the party may write it, no calibration run holds the channel, it
is no member, and R38 lists the command for its state (R40's conditions for SOURCE) or names the state it is in; the channel
is then in the state the command names, and no other channel has changed its state. -/
def Obligations.channel_command_reaches_its_state : Prop :=
  ∀ (s : State) (p : Party) (u : Nat) (c : Instr) (x : ChCmd) (y : ChState),
    (c, x, y) ∈ [(Instr.chCmdOff p u, ChCmd.off, ChState.off), (.chCmdMonitor p u, .monitor, .monitor),
      (.chCmdSource p u, .source, .source), (.chCmdHold p u, .hold, .hold), (.chCmdResume p u, .resume, .source),
      (.chCmdCalibrate p u, .calibrate, .calibrating)] →
    u < 256 → s.accepts p C.CH_CMD u 0 x.code → s.found.crOf u = none → s.found.isMember u = false →
    (x.target = some (s.found.ch u).ctl.st ∨
      (x.listed (s.found.ch u).ctl.st = true ∧ (x = .source → s.found.ftHolds u = false ∧ s.found.sourceOk u = true))) →
    s.leads c fun t => t.dev.status = .ok ∧
      (fun v => (t.dev.ch v).ctl.st) = fun v => if v = u then y else (s.found.ch v).ctl.st

/-- CH_CMD to a hearth whose active leaves lie in more than one stove: the command is on its way to them and lands 2 cv
later, and no channel has changed its state yet (R124, R125). -/
def Obligations.hearth_command_lands_two_cv_later : Prop :=
  ∀ (s : State) (p : Party) (h : Nat) (c : Instr) (x : ChCmd),
    (c, x) ∈ [(Instr.chCmdOff p h, ChCmd.off), (.chCmdMonitor p h, .monitor), (.chCmdSource p h, .source),
      (.chCmdHold p h, .hold), (.chCmdResume p h, .resume), (.chCmdCalibrate p h, .calibrate)] →
    256 ≤ h → s.accepts p C.CH_CMD h 0 x.code → s.found.crOf h = none → s.found.chCheck h x = .ok →
    x.target ≠ some (s.found.stateFor h) → s.found.inStoves h = true →
    (x = .off → (s.found.active h).any s.found.ftHolds = false) →
    s.leads c fun t => t.dev.status = .ok ∧
      (t.dev.he h).cmds = (s.found.he h).cmds ++
        [⟨x.code, (s.found.stateFor h).code, false, {}, s.found.clk.tick + 2⟩] ∧
      t.dev.chans = s.found.chans

/-- A pair of codes at the correction stage (R136, R139, R140, R143): of a physical channel whose converters deliver, at full
rate and with no aperture full, the corrected pair of the sample edge stands for every consumer, the raw codes are
shown, and the sample waits for the control engine; of a hearth all of whose active leaves have a sample of the edge, the
sums stand for every consumer (R130). -/
def Obligations.sample_is_corrected_and_given_to_the_consumers : Prop :=
  ∀ (s : State) (u : Nat) (cV cI : BitVec 16) (spare : Option (BitVec 16)),
    (u < 256 → ∀ d, d = s.found.reachSlot u s.found.clk.tick →
      s.found.flag C.LP_MODE u = false → d.delivers u = true →
      (∀ a, (s.found.ch u).meas.ap = some a → a.full = false) →
      s.leads (.sampleCorrected u cV cI spare) fun t =>
        let n := d.edgeNow u
        let y := fun (volt : Bool) (code : Int) =>
          satQ231 (correct (d.conv (stoveOf u) (d.holder (stoveOf u) (roleOf u volt)))
            (d.factor u volt (((d.ch u).rng volt).at n) n) code)
        let m := (t.dev.ch u).meas
        m.got = true ∧ m.edge = n ∧ m.yV = y true cV.toInt ∧ m.yI = y false cI.toInt ∧ m.cV = cV.toInt ∧
          m.cI = cI.toInt ∧ m.stale = false ∧ (t.dev.ch u).ctl.fresh = some n) ∧
    (256 ≤ u → ∀ d l, d = s.found → d.leaderOf u = some l → (d.ch u).ctl.st ≠ .calibrating →
      (∀ a, (d.ch u).meas.ap = some a → a.full = false) →
      ((d.ch u).meas.got = true → (d.ch u).meas.edge < d.sumEdge u l) →
      (∀ v ∈ d.active u, ((d.ch v).meas.sampleAt (d.sumEdge u l)).isSome = true) →
      s.leads (.sampleCorrected u cV cI spare) fun t =>
        let m := (t.dev.ch u).meas
        m.got = true ∧ m.edge = d.sumEdge u l ∧ m.stale = false)

/-- A decision in the slot of a switching channel that is no member, with a fresh sample and a full history, no coefficient
written in the same cv, no generator, no injection and no limit in force or coming into force: the errors of R50 against the
target decide the commanded switch state by R51, the sample is used up and no miss is counted (R49–R51). -/
def Obligations.decision_commands_the_switch_state_of_r51 : Prop :=
  ∀ (s : State) (u : Nat) (d : Dev) (c : Ctl) (n : Nat) (w : Law) (b : Int) (pv pi : Int × Int × Bool),
    u < 256 → d = s.found.reachSlot u s.found.clk.tick → c = (d.ch u).ctl → w = d.ownLaw u → b = d.bandNow u →
    pv = predict 0 c.hv → pi = predict 0 c.hi →
    d.isMember u = false → c.regulating = true → d.rd C.STAGE_KIND u = 0 → d.olds.at_ ≠ d.clk.tick →
    d.genTarget u d.clk.tick = none → c.inj.on = false → c.fresh = some n → c.swapSlot = false →
    4 ≤ c.hv.length → 4 ≤ c.hi.length → c.limit = none →
    (∀ L : Int × Int × Bool, L = (if w.fi then pv else pi) → ∀ e : Int × Int × Bool,
      e = errors w.target (if w.fi then pi else pv).1 (if w.fi then pi else pv).2.1 →
      nextLimit none w.hi w.lo L.2.1 e.1 (d.rd C.RETURN_MARGIN u) b = none →
      s.leads (.engineDecision u) fun t =>
        (t.dev.ch u).ctl.sw = (decideSw c.sw e.1 e.2.1 b).getD c.sw ∧ (t.dev.ch u).ctl.fresh = none ∧
          (t.dev.ch u).ctl.missRun = 0)

/-- A slot without a sample, of a channel that is no member, with no coefficient written in the same cv, no generator and no
injection: the decision is missed. No edge is commanded and a pending one still stands, the DAC code is held, CTL_MISS is set,
MISS_COUNT grows and the cause is kept; after the fourth such slot in a row a switching channel is commanded idle at the
edge of the following cv (R64, R65). -/
def Obligations.missed_decisions_hold_then_force_idle : Prop :=
  ∀ (s : State) (u : Nat) (d : Dev) (c : Ctl),
    u < 256 → c = (d.ch u).ctl → c.regulating = true →
    (d = s.found.reachSlot u s.found.clk.tick → d.isMember u = false → d.olds.at_ ≠ d.clk.tick →
      d.genTarget u d.clk.tick = none → c.inj.on = false → c.fresh = none → c.swapSlot = false →
      s.leads (.engineDecision u) fun t =>
        let x := (t.dev.ch u).ctl
        x.sw = c.sw ∧ x.pend = c.pend ∧ x.out = c.out ∧ x.dac = c.dac ∧ x.missRun = c.missRun + 1 ∧
        x.sticky = c.sticky ||| 2 ^ fCtlMiss ∧ t.dev.rd C.MISS_COUNT u = min (d.rd C.MISS_COUNT u + 1) (2 ^ 32 - 1) ∧
        t.dev.rd C.LAST_MISS_CAUSE u = 0 ∧ t.dev.outside = d.outside ∧ ∀ v, v ≠ u → t.dev.ch v = d.ch v) ∧
    (d = s.found → 4 ≤ c.missRun → c.idled = false → d.rd C.STAGE_KIND u = 0 →
      s.leads (.idleForced u) fun t =>
        let x := (t.dev.ch u).ctl
        x.sw = .idle ∧ x.out = .idle ∧ x.pend = none ∧ x.highs = [] ∧ x.idled = true ∧ x.dac = c.dac ∧
        t.dev.dict = d.dict ∧ t.dev.outside = d.outside ∧ t.dev.clk = (d.reach (d.clk.tick + 1)).clk ∧
        ∀ v, v ≠ u → t.dev.ch v = d.ch v)

/-- A pending edge lands at its time: the outgoing gate falls, the switch state is the commanded one and nothing is pending
any more (R54, R55). BAND_LOCKED clears when no edge to high has come for 16 target periods (R61). -/
def Obligations.pending_edge_lands_and_lock_times_out : Prop :=
  ∀ (s : State) (u : Nat) (c : Ctl), c = (s.found.ch u).ctl →
    (∀ t64, c.pend = some t64 → s.leads (.deferredEdge u) fun t =>
      let x := (t.dev.ch u).ctl
      x.out = c.sw ∧ x.sw = c.sw ∧ x.prior = c.out ∧ x.edgeAt = some t64 ∧ x.pend = none ∧ x.dac = c.dac ∧
      t.dev.dict = s.found.dict ∧ t.dev.clk = (s.found.reach (t64 / 64)).clk) ∧
    (∀ h hs, c.highs = h :: hs → c.locked = true → s.leads (.bandLockTimeout u) fun t =>
      (t.dev.ch u).ctl = { c with locked := false } ∧ t.dev.dict = s.found.dict ∧ t.dev.outside = s.found.outside ∧
      ∀ v, v ≠ u → t.dev.ch v = s.found.ch v)

/-- A coefficient's write that is accepted is stored, on a hearth's leaves as well where the object is copied to them; a
SETPOINT is also the target in force, unless the channel is on Hold (R41, R72, R133). Every other object that no event or
capacity cut writes is as it was. -/
def Obligations.coefficient_write_is_stored : Prop :=
  ∀ (s : State) (p : Party) (o : Obj) (u i : Nat) (v : Int),
    findObj objectsC o.off (o.sub + i) = some o → isCoef o = true → o ≠ C.FF_DATA → o ≠ C.INJ_MODE →
    s.accepts p o u i v →
    s.leads (.coefficientWrite p u (256 * o.off + (o.sub + i)) v) fun t =>
      t.dev.status = .ok ∧ t.dev.rdi o u i = o.dom.kept (s.found.rdi o u i) v ∧
      (o = C.SETPOINT → (t.dev.ch u).ctl.tgt = if (s.found.ch u).ctl.st = .hold then (s.found.ch u).ctl.tgt else v) ∧
      (256 ≤ u → leafCopied o = true → ∀ l ∈ s.found.leaves u, t.dev.rdi o l i = o.dom.kept (s.found.rdi o l i) v) ∧
      (∀ (o' : Obj) (u' i' : Nat), o'.plainHs u' i' → (∀ w, o'.key u' i' ≠ o.key w i) →
        t.dev.rdi o' u' i' = s.found.rdi o' u' i') ∧
      (∀ w, (t.dev.ch w).ctl.st = (s.found.ch w).ctl.st ∧ (t.dev.ch w).meas = (s.found.ch w).meas)

/-- An accepted write of FF_DATA changes the entry that FF_SEL selects, and no other, and with FF_AUTOINC ENTRY goes on by
one, from 255 to 0, or from 63 to 0 in the phase table; a read returns the entry and advances ENTRY alike (R58, R59). -/
def Obligations.ff_data_reaches_the_selected_entry : Prop :=
  ∀ (s : State) (p : Party) (u : Nat), u < 256 →
    (∀ v, s.accepts p C.FF_DATA u 0 v → s.leads (.ffDataWrite p u v) fun t =>
      t.dev.status = .ok ∧
      (∀ k, SMap.get 0 (t.dev.ch u).ctl.ff k =
        if k = s.found.ffPlace u then v.toNat else SMap.get 0 (s.found.ch u).ctl.ff k) ∧
      t.dev.rd C.FF_SEL u =
        if s.found.flag C.FF_AUTOINC u then (ffNext (s.found.rdN C.FF_SEL u) : Int) else s.found.rd C.FF_SEL u) ∧
    (s.found.readStatus p C.FF_DATA u 0 = .ok → s.leads (.ffDataRead p u) fun t =>
      t.dev.status = .ok ∧ t.dev.value = some (.num (SMap.get 0 (s.found.ch u).ctl.ff (s.found.ffPlace u) : Nat)) ∧
      t.dev.rd C.FF_SEL u =
        (if s.found.flag C.FF_AUTOINC u then (ffNext (s.found.rdN C.FF_SEL u) : Int) else s.found.rd C.FF_SEL u) ∧
      t.dev.chans = s.found.chans ∧ t.dev.outside = s.found.outside)

/-- An oscillation detection of a regulating channel: OSC_COUNT grows, OSC_DETECT is set and the cycles are counted anew;
reaction 1 adds 1 to LOCK_SHIFT, up to 15, reaction 2 fences the channel, reaction 0 does no more (R76). -/
def Obligations.oscillation_detection_reacts : Prop :=
  ∀ (s : State) (u : Nat) (c : Ctl), c = (s.found.ch u).ctl → c.regulating = true → s.found.flag C.OSC_EN u = true →
    s.found.rdN C.OSC_CYCLES u ≤ c.oscRun →
    (s.found.rdN C.OSC_REACT u ≠ 2 → s.leads (.oscDetection u) fun t =>
      (t.dev.ch u).ctl = { c with sticky := c.sticky ||| 2 ^ fOscDetect, oscRun := 0 } ∧
      t.dev.rd C.OSC_COUNT u = min (s.found.rd C.OSC_COUNT u + 1) (2 ^ 16 - 1) ∧
      t.dev.rd C.LOCK_SHIFT u = (if s.found.rdN C.OSC_REACT u = 1 then min 15 (s.found.rd C.LOCK_SHIFT u + 1)
        else s.found.rd C.LOCK_SHIFT u) ∧
      t.dev.outside = s.found.outside ∧ ∀ v, v ≠ u → t.dev.ch v = s.found.ch v) ∧
    (s.found.rdN C.OSC_REACT u = 2 → s.found.crOf u = none → s.leads (.oscDetection u) fun t =>
      (fun v => (t.dev.ch v).ctl.st) = fun v => if v = u then .fenced else (s.found.ch v).ctl.st)

/-- A detector of lost feedback fences its channel, sets its sticky flag and changes the state of no other channel: a
converter code that stood still for STUCK_COUNT samples with edges (R79), the Kelvin window failed in a second full
period (R80), SAT_COUNT saturated samples (R81, R82); the first half of a Kelvin period only reverses the current. -/
def Obligations.lost_feedback_fences_the_channel : Prop :=
  ∀ (s : State) (u : Nat) (c : Ctl), c = (s.found.ch u).ctl → s.found.crOf u = none → c.regulating = true →
    ((s.found.stuck u true = true ∨ s.found.stuck u false = true) → s.leads (.fbStuckDetect u) fun t =>
      bit (t.dev.ch u).ctl.sticky fFbStuck = true ∧
      (fun v => (t.dev.ch v).ctl.st) = fun v => if v = u then .fenced else (s.found.ch v).ctl.st) ∧
    (s.found.rdN C.SAT_COUNT u ≤ c.satRun → s.leads (.fbSatDetect u) fun t =>
      bit (t.dev.ch u).ctl.sticky fFbSat = true ∧
      (fun v => (t.dev.ch v).ctl.st) = fun v => if v = u then .fenced else (s.found.ch v).ctl.st) ∧
    (s.found.flag C.KELVIN_EN u = true → 8192 ≤ c.kelN →
      (c.kelHalf = none → s.leads (.kelvinHalfPeriod u) fun t =>
        (t.dev.ch u).ctl = { c with kelN := 0, kelSum := 0, kelHalf := some c.kelSum, kelRev := !c.kelRev } ∧
        t.dev.dict = s.found.dict ∧ t.dev.outside = s.found.outside ∧ ∀ v, v ≠ u → t.dev.ch v = s.found.ch v) ∧
      (∀ h, c.kelHalf = some h → (c.kelSum - h).natAbs ≤ s.found.rd C.KELVIN_WINDOW u * 8192 →
        s.leads (.kelvinHalfPeriod u) fun t =>
          (t.dev.ch u).ctl = { c with kelN := 0, kelSum := 0, kelHalf := none, kelRev := !c.kelRev, kelBad := 0 } ∧
          t.dev.dict = s.found.dict ∧ t.dev.outside = s.found.outside) ∧
      (∀ h, c.kelHalf = some h → s.found.rd C.KELVIN_WINDOW u * 8192 < (c.kelSum - h).natAbs → 1 ≤ c.kelBad →
        s.leads (.kelvinHalfPeriod u) fun t =>
          bit (t.dev.ch u).ctl.sticky fFbKelvin = true ∧
          (fun v => (t.dev.ch v).ctl.st) = fun v => if v = u then .fenced else (s.found.ch v).ctl.st))

/-- Injection: a write of a non-zero INJ_MODE in Source starts a run with the next cv, INJ_STATUS 1; a write of 0 ends a run
with INJ_STATUS 2, and so does INJ_COUNT; INJ_MODE then reads 0 (R86, R87). -/
def Obligations.injection_starts_and_ends : Prop :=
  ∀ (s : State) (p : Party) (u : Nat) (c : Ctl), c = (s.found.ch u).ctl →
    (∀ m : Int, m ≠ 0 → s.accepts p C.INJ_MODE u 0 m → c.st = .source → c.inj.on = false →
      ((m = 1 ∨ m = 2) → 2 ≤ s.found.rdN C.INJ_PERIOD u) → (256 ≤ u → s.found.rdN C.INJ_QUEUE u ≤ 65535) →
      (∀ e ∈ s.found.acqs, e.2.st ≠ .idle → s.found.rd C.ACQ_QUEUE e.1 ≠ s.found.rdN C.INJ_QUEUE u) →
      s.leads (.injModeStart p u m) fun t =>
        t.dev.status = .ok ∧ t.dev.rd C.INJ_MODE u = m ∧ t.dev.rd C.INJ_STATUS u = 1 ∧
        (t.dev.ch u).ctl.inj =
          { on := true, from_ := s.found.clk.tick + 1, prbs := 2 ^ s.found.rdN C.INJ_PRBS u - 1 } ∧
        (t.dev.ch u).ctl.st = .source ∧ t.dev.outside = s.found.outside ∧ ∀ v, v ≠ u → t.dev.ch v = s.found.ch v) ∧
    (c.inj.on = true → s.accepts p C.INJ_MODE u 0 0 → s.leads (.injModeStop p u) fun t =>
      t.dev.status = .ok ∧ t.dev.rd C.INJ_MODE u = 0 ∧ t.dev.rd C.INJ_STATUS u = 2 ∧ (t.dev.ch u).ctl.inj = {} ∧
      (t.dev.ch u).ctl.st = c.st) ∧
    (c.inj.on = true → 0 < s.found.rdN C.INJ_COUNT u → s.found.rdN C.INJ_COUNT u ≤ c.inj.k →
      s.leads (.injCountEnd u) fun t =>
        t.dev.rd C.INJ_MODE u = 0 ∧ t.dev.rd C.INJ_STATUS u = 2 ∧ (t.dev.ch u).ctl.inj = {} ∧
        (t.dev.ch u).ctl.st = c.st)

/-- Counters of channels and stoves that a write of 0 clears: an accepted 0 leaves the counter 0 and every other object of
another name as it was; any other value is refused with VALUE and nothing changes (R7, R534). -/
def Obligations.counters_clear_by_zero_alone : Prop :=
  ∀ (s : State) (p : Party) (index sub : Nat) (f : Found) (o : Obj), lookupObj index sub = some f → o = f.o →
    f.o.there f.unit f.i = true →
    o ∈ [C.MISS_COUNT, C.HANDOVER_COUNT, C.OSC_COUNT, C.ABANDONED, C.STARVES, C.VIOL_COUNT, C.TRIG_MISSED, C.ARM_WAITS,
      S.RETRIES, S.UPSETS, S.ILK_EVENTS, S.MATCH_FAILS, S.OVERRUNS, S.URG_OVERRUNS, S.SLOT_OVERRUNS] →
    s.accepts p o f.unit f.i 0 →
    (s.leads (.counterClearWrite p index sub 0) fun t => t.dev.status = .ok ∧ t.dev.rdi o f.unit f.i = 0 ∧
      (∀ (o' : Obj) (u' i' : Nat), o'.plainHs u' i' → (∀ w, o'.key u' i' ≠ o.key w f.i) →
        t.dev.rdi o' u' i' = s.found.rdi o' u' i') ∧ t.dev.chans = s.found.chans ∧ t.dev.outside = s.found.outside) ∧
    ∀ v, v ≠ 0 → s.leads (.counterClearWrite p index sub v) fun t => t.dev = s.found.say .value

/-- Sticky flags that a write of 1 clears: an accepted write clears those of the writable ones in which it has a 1, and no
others (R63, R534). -/
def Obligations.sticky_flags_clear_by_ones : Prop :=
  ∀ (s : State) (p : Party) (index sub : Nat) (f : Found) (v : Int), lookupObj index sub = some f →
    f.o.there f.unit f.i = true → s.accepts p f.o f.unit f.i v →
    (f.o = C.SQ_FLAGS → s.leads (.stickyFlagClear p index sub v) fun t => t.dev.status = .ok ∧
      t.dev.rdiN C.SQ_FLAGS f.unit f.i =
        s.found.rdiN C.SQ_FLAGS f.unit f.i - (s.found.rdiN C.SQ_FLAGS f.unit f.i &&& v.toNat &&& 0x000F) ∧
      t.dev.chans = s.found.chans ∧ t.dev.outside = s.found.outside) ∧
    (f.o = C.CTL_FLAGS → f.unit < 256 → s.found.genTarget f.unit (s.found.lastSlot f.unit) = none →
      s.leads (.stickyFlagClear p index sub v) fun t => t.dev.status = .ok ∧
        (t.dev.ch f.unit).ctl =
          { (s.found.ch f.unit).ctl with
            sticky := (s.found.ch f.unit).ctl.sticky - ((s.found.ch f.unit).ctl.sticky &&& v.toNat) } ∧
        t.dev.outside = s.found.outside ∧ ∀ w, w ≠ f.unit → t.dev.ch w = s.found.ch w)

/-- Physical channel n belongs to stove n div 16 at position n mod 16, and the short forms of objects resolve to full indices
(R8, R9). -/
def Obligations.channels_lie_in_stoves_and_indices_resolve : Prop :=
  (∀ n, n < 256 → stoveOf n = n / 16 ∧ posOf n = n % 16) ∧
  (∀ (o : Obj) (n : Nat), o.blk = .chan → (n < 256 → o.index n = 0x4000 + 0x40 * n + o.off) ∧
    (256 ≤ n → n ≤ 383 → o.index n = 0x8000 + 0x40 * (n - 256) + o.off)) ∧
  (∀ (o : Obj) (k : Nat), o.blk = .stove → o.index k = 0x3000 + 0x10 * k + o.off)

/-- The TLVs of a request with ABORT_ON_ERROR set (R348): those before the first whose status is not OK are executed, and it
itself; every later one is answered with NOT_DONE and changes nothing. Where none fails, all are executed. -/
def Obligations.abort_on_error_ends_the_execution : Prop :=
  ∀ (s : State) (n at_ : Nat) (out : List Tlv),
    (∀ (t : Tlv) (ts : List Tlv) (x : TlvDone), x = s.tlv n at_ t →
      (x.status ≠ .ok → State.tlvs s n at_ true (t :: ts) false out =
        (x.st.on fun d => d.countAcc n x.accs,
          (out ++ [⟨t.ty ||| 0x80, x.val⟩]) ++ ts.map fun r => ⟨r.ty ||| 0x80, tlvHead r .notDone⟩)) ∧
      (x.status = .ok → State.tlvs s n at_ true (t :: ts) false out =
        State.tlvs (x.st.on fun d => d.countAcc n x.accs) n at_ true ts false (out ++ [⟨t.ty ||| 0x80, x.val⟩]))) ∧
    State.tlvs s n at_ true [] false out = (s, out)

/-- A read of any object is an Observer-level access: it is served to either port and to the console, whatever the ownership
(R352). -/
def Obligations.reads_are_served_whatever_the_ownership : Prop :=
  ∀ (d : Dev) (p : Party) (o : Obj) (u i : Nat) (own : SMap Own),
    (d.gate p (o.index u) false = .ok → o.there u i = true → o.acc ≠ .wo → d.readStatus p o u i = .ok) ∧
    { d with own := own }.readStatus p o u i = d.readStatus p o u i

/-- Range requests to a physical channel (R93–R97, R104). A write of I_RANGE or V_RANGE that R93 allows, and the up- and
down-requests of a free autorange, set the requested range; the change is pending, held during a running change, cancelled
for the range in force, or held back by range lock, a sweep or a freeze. An up-condition at the highest range sets only
OVER_TOP. Once T_MAKE has elapsed the change waits for its BREAK transfer. -/
def Obligations.range_requests_become_pending_changes : Prop :=
  ∀ (s : State) (u : Nat) (volt : Bool) (d : Dev) (r : Rng), u < 256 → d = s.found → r = (d.ch u).rng volt →
    (∀ (p : Party) (j : Nat), s.accepts p (oRange volt) u 0 j → d.rangeCheck u volt j = .ok →
      s.leads (.rangeWrite p u volt j) fun t =>
        t.dev.status = .ok ∧ t.dev.rd (oRange volt) u = j ∧
        (t.dev.ch u).rng volt =
          (if r.ph.busy then { r with held := some j, deferred := none }
          else if j = r.now then { r with ph := .steady, deferred := none }
          else if d.heldBack u false then { r with deferred := some (j, false) }
          else { r with ph := .pending j, deferred := none }) ∧
        t.dev.outside = d.outside ∧ ∀ v, v ≠ u → t.dev.ch v = d.ch v) ∧
    (d.arFree u volt = true → d.rdN C.AR_UP_COUNT u ≤ r.up →
      (r.now + 1 < d.ranges u volt → s.leads (.autorangeUp u volt) fun t =>
        t.dev.rd (oRange volt) u = r.now + 1 ∧
        (t.dev.ch u).rng volt = (if d.heldBack u true then { r with deferred := some (r.now + 1, true) }
          else { r with ph := .pending (r.now + 1), deferred := none }) ∧
        t.dev.outside = d.outside ∧ ∀ v, v ≠ u → t.dev.ch v = d.ch v) ∧
      (d.ranges u volt ≤ r.now + 1 → s.leads (.autorangeUp u volt) fun t =>
        (t.dev.ch u).rng volt = { r with overTop := true } ∧ t.dev.dict = d.dict ∧
        (r.overTop = true → t.dev.reports = d.reports) ∧ t.dev.outside = d.outside ∧ ∀ v, v ≠ u → t.dev.ch v = d.ch v)) ∧
    (∀ at_, r.below = some at_ → d.arFree u volt = true → 0 < r.now →
      (d.reach (at_ + d.rdN C.AR_DWELL u)).downOk u volt (r.now - 1) = true →
      s.leads (.autorangeDown u volt) fun t =>
        t.dev.rd (oRange volt) u = (r.now - 1 : Nat) ∧
        (t.dev.ch u).rng volt = (if d.heldBack u true then { r with deferred := some (r.now - 1, false) }
          else { r with ph := .pending (r.now - 1), deferred := none }) ∧
        t.dev.outside = d.outside ∧ ∀ v, v ≠ u → t.dev.ch v = d.ch v) ∧
    (∀ old since, r.ph = .made old since → s.leads (.tMakeElapsed u volt) fun t =>
      (t.dev.ch u).rng volt = { r with ph := .breakDue old } ∧ t.dev.dict = d.dict ∧ t.dev.outside = d.outside ∧
      t.dev.clk = (d.reach (since + d.rdN C.T_MAKE u)).clk ∧ ∀ v, v ≠ u → t.dev.ch v = d.ch v)

/-- Transfers of a range link (R98–R106). One starts where a change waits for it or where REFRESH cv have gone by, at the end of
the one before it at the earliest: LOAD carries the patterns of the 16 positions, each change at its point joins it, and
its end is due 10,240 cc later; an INIT transfer carries the ranges in force and no change joins. Where CHECK brings back
other bits than were sent, the first attempt is repeated: RETRIES grows and FIRST_BAD_BIT tells the stage. -/
def Obligations.range_link_transfers_start_and_repeat : Prop :=
  ∀ (s : State) (k : Nat) (d : Dev), d = s.found → d.linkUp k = true →
    (∀ (c : Instr) (e : Dev), (c, e) ∈ [(.rangeLinkTransferStart k, d.reachCc (d.st k).link.lastCc),
        (.refreshTransfer k, (d.reach ((d.st k).link.lastTick + d.rdN S.REFRESH k)).reachCc (d.st k).link.lastCc)] →
      (d.st k).link.xfer = none →
      (c = .rangeLinkTransferStart k → ((d.st k).link.initDue || d.wantsTransfer k) = true) →
      (c = .refreshTransfer k → 0 < d.rdN S.REFRESH k) →
      s.leads c fun t =>
        (t.dev.st k).link = { (d.st k).link with
          xfer := some { pats := t.dev.stovePatterns k (d.st k).link.initDue, again := false,
                         init := (d.st k).link.initDue, due := e.clk.cc + 10240 }, initDue := false } ∧
        (∀ v volt, (t.dev.ch v).rng volt = if (!(d.st k).link.initDue && decide (stoveOf v = k)) = true
          then ((d.ch v).rng volt).join else (d.ch v).rng volt) ∧
        t.dev.clk = e.clk ∧ t.dev.dict = d.dict ∧ ∀ m, m ≠ k → t.dev.st m = d.st m) ∧
    (∀ (x : Transfer) (load ret : BitVec 128), (d.st k).link.xfer = some x → x.again = false →
      ret.toNat ≠ frameBits x.pats → (d.reachCc x.due).injArmed .rangeLink k = false →
      s.leads (.rangeLinkCheckDone k load ret) fun t =>
        (∃ y, (t.dev.st k).link = { (d.st k).link with xfer := some y } ∧ y.again = true ∧ y.pats = x.pats ∧
          y.init = x.init ∧ y.due = x.due + 10240) ∧
        t.dev.rd S.FIRST_BAD_BIT k = firstBadBit (frameBits x.pats) ret.toNat ∧
        t.dev.rd S.RETRIES k = min (d.rd S.RETRIES k + 1) (2 ^ 32 - 1) ∧
        t.dev.chans = d.chans ∧ t.dev.clk = (d.reachCc x.due).clk)

/-- STAGE_EN and ILK_N (R109–R114, R126). A write of SE_CMD that R110 allows stores it; where it drops the pin, and where
the pin is found low from outside or ILK_N of the stove is low, every channel of the stove that regulates goes Off, or is fenced
if it is a member, and no other channel changes its state. ILK_N low clears SE_CMD, counts in ILK_EVENTS and stamps ILK_LAST;
on its return nothing restarts. -/
def Obligations.stage_enable_and_interlock_drop_the_stove : Prop :=
  ∀ (s : State) (p : Party) (k : Nat) (d : Dev), d = s.found → k < 16 →
    (∀ v : Int, s.accepts p S.SE_CMD k 0 v → d.seCheck k v = .ok →
      (∀ u, stoveOf u = k → (d.ch u).ctl.st.reg = false) →
      s.leads (.seCmdWrite p k v) fun t =>
        t.dev.status = .ok ∧ t.dev.rd S.SE_CMD k = v ∧ t.dev.chans = d.chans ∧ t.dev.outside = d.outside) ∧
    (∀ c : Instr, c ∈ [Instr.seCmdWrite p k 0, .stageEnMismatch k, .ilkNLow k] → d.cr = none →
      (c = .seCmdWrite p k 0 → s.accepts p S.SE_CMD k 0 0 ∧ d.sePin k = true ∧ (d.wr S.SE_CMD k 0).sePin k = false) →
      (c = .stageEnMismatch k → d.sePin k = true) → (c = .ilkNLow k → (d.st k).ilk = true) →
      s.leads c fun t =>
        ((fun v => (t.dev.ch v).ctl.st) = fun v =>
          if stoveOf v = k ∧ (d.ch v).ctl.st.reg = true then (if d.isMember v then .fenced else .off) else (d.ch v).ctl.st) ∧
        t.dev.beyond = d.beyond) ∧
    ((d.st k).ilk = true → (∀ u, stoveOf u = k → (d.ch u).ctl.st.reg = false) → d.ftOnStove k = false →
      s.leads (.ilkNLow k) fun t =>
        t.dev.st k = { d.st k with ilk := false } ∧ t.dev.rd S.SE_CMD k = 0 ∧
        t.dev.rd S.ILK_EVENTS k = min (d.rd S.ILK_EVENTS k + 1) (2 ^ 32 - 1) ∧ t.dev.rd S.ILK_LAST k = d.now2 ∧
        t.dev.chans = d.chans ∧ t.dev.beyond = d.beyond) ∧
    s.leads (.ilkNHigh k) fun t =>
      t.dev.st k = { d.st k with ilk := true } ∧ t.dev.dict = d.dict ∧ t.dev.chans = d.chans ∧
      t.dev.beyond = d.beyond ∧ ∀ m, m ≠ k → t.dev.st m = d.st m

/-- A write of a MEMBER entry that R117 allows (R116–R118, R371): the unit that was there leaves the hearth without an
owner, and the named one, its engine idle, belongs to the hearth. A next active set comes into force when its slots come:
the leaves that left are out, those that rejoined are in, and no channel changes its state while every minimum holds (R128,
R132). -/
def Obligations.members_join_and_leave_a_hearth : Prop :=
  ∀ (s : State) (p : Party) (h : Nat) (d : Dev), d = s.found →
    (∀ (e : Nat) (v : Int), s.accepts p C.MEMBER h e v → d.memberCheck p h e v = .ok →
      d.rdi C.MEMBER h e ≠ v → (v ≠ 0xFFFF → (d.sq v.toNat).st.active = false) →
      s.leads (.memberWrite p h e v) fun t =>
        t.dev.status = .ok ∧
        (v ≠ 0xFFFF → t.dev.parentOf v.toNat = h ∧ (t.dev.ownRec v.toNat).west.owner = 0 ∧
          (t.dev.ownRec v.toNat).east.owner = 0) ∧
        (∀ m, d.member h e = some m → m ≠ v.toNat → t.dev.parentOf m = 0 ∧
          (t.dev.ownRec m).west = ⟨0, (d.epoch m + 1) % 2 ^ 16⟩ ∧ (t.dev.ownRec m).east = ⟨0, (d.epoch m + 1) % 2 ^ 16⟩) ∧
        (∀ w, w ≠ v.toNat → d.member h e ≠ some w → t.dev.parentOf w = d.parentOf w ∧ t.dev.ownRec w = d.ownRec w) ∧
        (fun v => (t.dev.ch v).ctl.st) = fun v => (d.ch v).ctl.st) ∧
    (∀ (due : Nat) (e : Dev), (d.he h).due = some due →
      e = (d.reach due).modHe h Hearth.next →
      (∀ g, g ∈ e.hearthsIn h → e.rdN C.MIN_MEMBERS g ≤ (e.active g).length) →
      s.leads (.hearthReshare h) fun t =>
        t.dev.he h = (d.he h).next ∧ ((fun v => (t.dev.ch v).ctl.st) = fun v => (d.ch v).ctl.st) ∧ t.dev.clk = (d.reach due).clk ∧
        t.dev.beyond = d.beyond)

/-- A complete aperture of a physical channel is published (R145–R149): VALUE of the voltage, and of both variables MFLAGS with VALID, SEQNO,
START and COUNT, and no aperture runs; one of AP_MODE 1 whose line event failed to come for LINE_TIMEOUT is published with
NO_LINE. A write of 0 to AP_RUN abandons the free-running aperture unpublished and counts it; a write of 1 lets one start at
the next edge. A write of LP_MODE lets the converters settle for 4,096 cv, and at the end of them they deliver again (R138). -/
def Obligations.apertures_are_published_or_abandoned : Prop :=
  ∀ (s : State) (u : Nat) (d : Dev) (m : Meas), u < 256 → d = s.found → m = (d.ch u).meas →
    (∀ (c : Instr) (a b : Ap) (e : Dev), m.ap = some a →
      (c, b, e) ∈ [(Instr.apertureEnd u, a, d),
        (.lineTimeout u, { a with flagV := a.flagV ||| 2 ^ mNoLine, flagI := a.flagI ||| 2 ^ mNoLine, ended := true },
          d.reach a.lineDue)] →
      (c = .apertureEnd u → a.full = true) → (c = .lineTimeout u → a.mode = 1 ∧ a.ended = false) →
      s.leads c fun t =>
        t.dev.rd C.V_VALUE u = meanF32 a.sumV a.n (d.fs u true ((d.ch u).rngV.at a.edge0)) ∧
        t.dev.rd C.V_MFLAGS u = (b.flagV ||| 1 : Nat) ∧ t.dev.rd C.I_MFLAGS u = (b.flagI ||| 1 : Nat) ∧
        t.dev.rd C.V_COUNT u = (a.n % 2 ^ 32 : Nat) ∧ t.dev.rd C.I_COUNT u = (a.n % 2 ^ 32 : Nat) ∧
        t.dev.rd C.V_START u = a.start ∧ t.dev.rd C.I_START u = a.start ∧
        t.dev.rd C.V_SEQNO u = (d.rd C.V_SEQNO u + 1) % 2 ^ 32 ∧ t.dev.rd C.I_SEQNO u = (d.rd C.I_SEQNO u + 1) % 2 ^ 32 ∧
        (t.dev.ch u).meas.ap = none ∧ t.dev.clk = e.clk ∧ t.dev.beyond = d.beyond) ∧
    (∀ (p : Party) (v : Int), s.accepts p C.AP_RUN u 0 v →
      (v = 0 → ∀ a, m.ap = some a → a.owner = .free → s.leads (.apRunWrite p u v) fun t =>
        t.dev.status = .ok ∧ t.dev.rd C.AP_RUN u = 0 ∧ t.dev.rd C.ABANDONED u = min (d.rd C.ABANDONED u + 1) (2 ^ 32 - 1) ∧
        (t.dev.ch u).meas = { m with ap := none, freeNext := false } ∧ (t.dev.ch u).ctl = (d.ch u).ctl ∧
        t.dev.outside = d.outside) ∧
      (v ≠ 0 → d.flag C.AP_RUN u = false → m.ap = none → m.stepNext = none → (d.ch u).ctl.st.integrates = true →
        s.leads (.apRunWrite p u v) fun t =>
          t.dev.status = .ok ∧ t.dev.rd C.AP_RUN u = v ∧
          (t.dev.ch u).meas = { m with freeNext := true, freeFrom := d.clk.tick + 1, lineSeen := false } ∧
          (t.dev.ch u).ctl = (d.ch u).ctl ∧ t.dev.outside = d.outside)) ∧
    (∀ (p : Party) (v : Int), s.accepts p C.LP_MODE u 0 v → s.leads (.lpModeWrite p u v) fun t =>
      t.dev.status = .ok ∧ t.dev.rd C.LP_MODE u = v ∧ (t.dev.ch u).meas.settle = some (d.clk.tick + 4096) ∧
      (t.dev.ch u).meas.stale = true ∧ t.dev.outside = d.outside ∧ ∀ w, w ≠ u → t.dev.ch w = d.ch w) ∧
    (∀ due, m.settle = some due → s.leads (.lpSettleEnd u) fun t =>
      (t.dev.ch u).meas = { m with settle := none } ∧ t.dev.clk = (d.reach due).clk ∧ t.dev.dict = d.dict ∧
      t.dev.outside = d.outside ∧ ∀ w, w ≠ u → t.dev.ch w = d.ch w)

/-- Accumulators and the lock-in (R152–R157). A write of Q_ACC_CMD or E_ACC_CMD is kept with the stamp of the next edge, at
which it takes effect, and no other command's place changes. A window of the lock-in starts once the settle turns have gone
by; a complete one is published: LI_SEQNO grows and the result is valid. -/
def Obligations.accumulator_commands_wait_and_lockin_windows_publish : Prop :=
  ∀ (s : State) (u : Nat) (d : Dev) (m : Meas), d = s.found → m = (d.ch u).meas →
    (∀ (p : Party) (energy : Bool) (c : Instr) (v : Nat),
      (c, v) ∈ [(Instr.accRun p u energy, 1), (.accStop p u energy, 2), (.accClear p u energy, 3), (.accClearAndRun p u energy, 4)] →
      s.accepts p (if energy then C.E_ACC_CMD else C.Q_ACC_CMD) u 0 v →
      s.leads c fun t =>
        t.dev.status = .ok ∧
        (t.dev.ch u).meas = (if energy
          then { m with e := { m.e with cmds := m.e.cmds ++ [(d.clk.tick + 1, v, d.stamp 2 (d.clk.tick + 1))] } }
          else { m with q := { m.q with cmds := m.q.cmds ++ [(d.clk.tick + 1, v, d.stamp 2 (d.clk.tick + 1))] } }) ∧
        (t.dev.ch u).ctl = (d.ch u).ctl ∧ t.dev.outside = d.outside ∧ ∀ w, w ≠ u → t.dev.ch w = d.ch w) ∧
    (m.li.ph = .settled → s.leads (.lockinSettleEnd u) fun t =>
      (t.dev.ch u).meas = { m with li := { m.li with ph := .integrating } } ∧ t.dev.dict = d.dict ∧
      t.dev.outside = d.outside ∧ ∀ w, w ≠ u → t.dev.ch w = d.ch w) ∧
    (∀ r, m.li.done = some r → s.leads (.lockinWindowEnd u) fun t =>
      t.dev.rd C.LI_SEQNO u = (d.rd C.LI_SEQNO u + 1) % 2 ^ 32 ∧
      t.dev.rd C.Z_FREQ u = (Rat2.mk (r.f * d.clk.fcv : Nat) (2 ^ 48)).f64 ∧
      (∃ weak, (t.dev.ch u).meas = { m with li := { m.li with done := none, valid := true, weak := weak } } ∧
        (weak = true → t.dev.rd C.Z_MAG u = d.rd C.Z_MAG u ∧ t.dev.rd C.Z_PHASE u = d.rd C.Z_PHASE u)) ∧
      (t.dev.ch u).ctl = (d.ch u).ctl ∧ t.dev.clk = d.clk ∧ t.dev.beyond = d.beyond ∧ ∀ w, w ≠ u → t.dev.ch w = d.ch w)

/-- The auxiliary scan, the comparators and the test DAC of a stove (R175–R186). A start of an idle scan begins its first entry
at the second aux clock edge with a copy of AUX_SEQ; an entry's end keeps its code and goes on with the next entry, the last
one counts the sequence; an urgent conversion lets the sequence wait and the entry it broke into run again. A comparator's
output follows its crossing; TD_ROUTE is stored where R186 allows it. -/
def Obligations.auxiliary_scan_comparators_and_test_dac : Prop :=
  ∀ (s : State) (p : Party) (k : Nat) (d : Dev) (a : Aux), d = s.found → a = (d.st k).aux → k < 16 → d.pdOn (256 + k) = true →
    (s.accepts p S.AUX_START k 0 1 → a.ph = .idle → s.leads (.auxStart p k) fun t =>
      t.dev.status = .ok ∧
      (t.dev.st k).aux = { a with
        ph := .seq 1, copy := d.auxCopy k, start := d.timeOf2 (d.auxEdge k),
        due := d.auxEdge k + d.auxTime k ((d.auxCopy k).headD 0), gen := {}, heldStart := false } ∧
      t.dev.chans = d.chans ∧ t.dev.beyond = d.beyond ∧ ∀ j, j ≠ k → t.dev.st j = d.st j) ∧
    (s.accepts p S.AUX_START k 0 1 → a.ph ≠ .idle → a.ph ≠ .urgent → s.leads (.auxStart p k) fun t =>
      t.dev.status = .ok ∧ t.dev.st = d.st ∧ t.dev.rd S.OVERRUNS k = min (d.rd S.OVERRUNS k + 1) (2 ^ 32 - 1) ∧
      t.dev.chans = d.chans ∧ t.dev.beyond = d.beyond) ∧
    (∀ n code, a.ph = .seq n → n - 1 < 16 → s.leads (.auxEntryEnd k code) fun t =>
      t.dev.rdi S.AUX_CODE k (n - 1) = min code 16383 ∧
      (n < a.copy.length → (t.dev.st k).aux = { a with
        upd := SMap.ins a.upd n (d.reach a.due).clk.cc, ph := .seq (n + 1),
        due := a.due + d.auxTime k (a.copy.getD n 0) }) ∧
      (a.copy.length ≤ n → d.flag S.REPEAT k = false →
        (t.dev.st k).aux = { a with upd := SMap.ins a.upd n (d.reach a.due).clk.cc, ph := .idle } ∧
        t.dev.rd S.SEQ_COUNT k = (d.rd S.SEQ_COUNT k + 1) % 2 ^ 32 ∧ t.dev.rd S.SEQ_START k = a.start) ∧
      t.dev.chans = d.chans ∧ t.dev.clk = (d.reach a.due).clk ∧ t.dev.beyond = d.beyond) ∧
    (∀ y : AuxPhase, (a.ph = .idle ∧ y = .urgent) ∨ (∃ n, a.ph = .seq n ∧ y = .urgentIn n) → s.accepts p S.URG_CMD k 0 1 →
      s.leads (.urgCmd p k) fun t =>
        t.dev.status = .ok ∧
        (t.dev.st k).aux = { a with
          ph := y, urg := d.rdN S.URG_ENTRY k,
          due := d.auxEdge k + d.auxTime k (d.rdN S.URG_ENTRY k), genU := {} } ∧
        t.dev.chans = d.chans ∧ t.dev.beyond = d.beyond) ∧
    (∀ code, s.leads (.urgEntryEnd k code) fun t =>
      (∀ n, a.ph = .urgentIn n → (t.dev.st k).aux = { a with ph := .seq n, due := a.due + d.auxTime k (a.copy.getD (n - 1) 0) }) ∧
      (a.ph = .urgent → a.heldStart = false → (t.dev.st k).aux = { a with ph := .idle }) ∧
      (a.ph = .urgent ∨ (∃ n, a.ph = .urgentIn n) → t.dev.rd S.URG_CODE k = min code 16383) ∧
      t.dev.chans = d.chans ∧ t.dev.beyond = d.beyond) ∧
    (∀ c high, c < 12 → bit (d.rdiN S.CMP k c) 15 = true → bit (d.st k).cmp c = !high → bit (d.rdN S.CMP_START k) c = false →
      s.leads (.comparatorCrossing k c high) fun t =>
        (t.dev.st k) = { d.st k with cmp := setBit (d.st k).cmp c high } ∧ t.dev.chans = d.chans ∧ t.dev.beyond = d.beyond) ∧
    (∀ v : Int, s.accepts p S.TD_ROUTE k 0 v → d.tdCheck p k v = .ok → s.leads (.testDacRouteWrite p k v) fun t =>
      t.dev.status = .ok ∧ t.dev.rd S.TD_ROUTE k = v ∧ t.dev.chans = d.chans ∧ t.dev.outside = d.outside)
end

