-- ==== Sys2Proof/Laws/SMap.lean ====
section
/-! SUPPORT. Laws of sparse maps and memories: a read after a write, and the canonical form that every operation keeps. -/

namespace Sys2Proof.Machine

/-! ### Reading -/

/-- An inserted value is read back. -/
@[simp] theorem SMap.get_ins_same {α : Type} (d : α) (m : SMap α) (k : Nat) (v : α) :
    SMap.get d (SMap.ins m k v) k = v := by
  induction m with
  | nil => simp [SMap.ins, SMap.get]
  | cons e m ih =>
    obtain ⟨j, w⟩ := e
    unfold SMap.ins
    split
    · simp [SMap.get]
    · split
      · simp [SMap.get]
      · rename_i h1 h2
        simpa only [SMap.get, if_neg h1] using ih

/-- An insertion leaves every other key as it reads. -/
theorem SMap.get_ins_other {α : Type} (d : α) (m : SMap α) (k l : Nat) (v : α) (h : l ≠ k) :
    SMap.get d (SMap.ins m k v) l = SMap.get d m l := by
  induction m with
  | nil => simp [SMap.ins, SMap.get, h]
  | cons e m ih =>
    obtain ⟨j, w⟩ := e
    unfold SMap.ins
    split
    · rename_i h1
      subst h1
      simp [SMap.get, h]
    · split
      · simp [SMap.get, h]
      · simp only [SMap.get, ih]

/-- A key that has been deleted reads as the default. -/
@[simp] theorem SMap.get_del_same {α : Type} (d : α) (m : SMap α) (k : Nat) : SMap.get d (SMap.del m k) k = d := by
  induction m with
  | nil => rfl
  | cons e m ih =>
    obtain ⟨j, w⟩ := e
    unfold SMap.del
    split
    · exact ih
    · rename_i h1
      simpa only [SMap.get, if_neg h1] using ih

/-- A deletion leaves every other key as it reads. -/
theorem SMap.get_del_other {α : Type} (d : α) (m : SMap α) (k l : Nat) (h : l ≠ k) :
    SMap.get d (SMap.del m k) l = SMap.get d m l := by
  induction m with
  | nil => rfl
  | cons e m ih =>
    obtain ⟨j, w⟩ := e
    unfold SMap.del
    split
    · rename_i h1
      subst h1
      simpa [SMap.get, h] using ih
    · simp only [SMap.get, ih]

/-- A written value is read back. -/
@[simp] theorem SMap.get_set_same {α : Type} [DecidableEq α] (d : α) (m : SMap α) (k : Nat) (v : α) :
    SMap.get d (SMap.set d m k v) k = v := by
  unfold SMap.set
  split
  · rename_i hv
    rw [hv]
    exact SMap.get_del_same d m k
  · exact SMap.get_ins_same d m k v

/-- A write leaves every other key as it reads, whatever the default it is read with. -/
theorem SMap.get_set_other {α : Type} [DecidableEq α] (d d' : α) (m : SMap α) (k l : Nat) (v : α) (h : l ≠ k) :
    SMap.get d' (SMap.set d m k v) l = SMap.get d' m l := by
  unfold SMap.set
  split
  · exact SMap.get_del_other d' m k l h
  · exact SMap.get_ins_other d' m k l v h

/-! ### The canonical form -/

/-- A lower bound may be lowered. -/
theorem SMap.sortedFrom_weaken {α : Type} (m : SMap α) (lo : Nat) (h : SMap.sortedFrom (some lo) m = true) :
    SMap.sortedFrom none m = true := by
  cases m with
  | nil => rfl
  | cons e m =>
    obtain ⟨j, w⟩ := e
    simp only [SMap.sortedFrom, Bool.and_eq_true, Bool.true_and] at h ⊢
    exact h.2

/-- A lower bound may be lowered to any smaller one. -/
theorem SMap.sortedFrom_mono {α : Type} (m : SMap α) (a b : Nat) (hab : a ≤ b)
    (h : SMap.sortedFrom (some b) m = true) : SMap.sortedFrom (some a) m = true := by
  cases m with
  | nil => rfl
  | cons e m =>
    obtain ⟨j, w⟩ := e
    simp only [SMap.sortedFrom, Bool.and_eq_true, decide_eq_true_eq] at h ⊢
    exact ⟨by omega, h.2⟩

/-- Keys stay rising through an insertion above the bound. -/
theorem SMap.sortedFrom_ins {α : Type} (m : SMap α) (k : Nat) (v : α) (lo : Option Nat)
    (hl : ∀ l, lo = some l → l < k) (h : SMap.sortedFrom lo m = true) : SMap.sortedFrom lo (SMap.ins m k v) = true := by
  induction m generalizing lo with
  | nil =>
    cases lo with
    | none => rfl
    | some l => simp [SMap.ins, SMap.sortedFrom, hl l rfl]
  | cons e m ih =>
    obtain ⟨j, w⟩ := e
    unfold SMap.ins
    split
    · rename_i h1
      subst h1
      simpa [SMap.sortedFrom] using h
    · split
      · rename_i h1 h2
        simp only [SMap.sortedFrom, Bool.and_eq_true, decide_eq_true_eq] at h ⊢
        refine ⟨?_, h2, h.2⟩
        cases lo with
        | none => rfl
        | some l => simpa using hl l rfl
      · rename_i h1 h2
        simp only [SMap.sortedFrom, Bool.and_eq_true] at h ⊢
        refine ⟨h.1, ih (some j) ?_ h.2⟩
        intro l hl'
        injection hl' with hl'
        omega

/-- Keys stay rising through a deletion. -/
theorem SMap.sortedFrom_del {α : Type} (m : SMap α) (k : Nat) (lo : Option Nat) (h : SMap.sortedFrom lo m = true) :
    SMap.sortedFrom lo (SMap.del m k) = true := by
  induction m generalizing lo with
  | nil => rfl
  | cons e m ih =>
    obtain ⟨j, w⟩ := e
    have hm : SMap.sortedFrom (some j) m = true := by
      simp only [SMap.sortedFrom, Bool.and_eq_true] at h
      exact h.2
    unfold SMap.del
    split
    · cases lo with
      | none => exact SMap.sortedFrom_weaken _ j (ih (some j) hm)
      | some l =>
        simp only [SMap.sortedFrom, Bool.and_eq_true, decide_eq_true_eq] at h
        exact SMap.sortedFrom_mono _ l j (by omega) (ih (some j) hm)
    · simp only [SMap.sortedFrom, Bool.and_eq_true] at h ⊢
      exact ⟨h.1, ih (some j) h.2⟩

/-- Keys stay rising in a part of a map picked out by a filter. -/
theorem SMap.sortedFrom_filter {α : Type} (m : SMap α) (p : Nat × α → Bool) (lo : Option Nat)
    (h : SMap.sortedFrom lo m = true) : SMap.sortedFrom lo (m.filter p) = true := by
  induction m generalizing lo with
  | nil => rfl
  | cons e m ih =>
    obtain ⟨j, w⟩ := e
    have hm : SMap.sortedFrom (some j) m = true := by
      simp only [SMap.sortedFrom, Bool.and_eq_true] at h
      exact h.2
    rw [List.filter_cons]
    split
    · simp only [SMap.sortedFrom, Bool.and_eq_true] at h ⊢
      exact ⟨h.1, ih (some j) h.2⟩
    · cases lo with
      | none => exact SMap.sortedFrom_weaken _ j (ih (some j) hm)
      | some l =>
        simp only [SMap.sortedFrom, Bool.and_eq_true, decide_eq_true_eq] at h
        exact SMap.sortedFrom_mono _ l j (by omega) (ih (some j) hm)

/-- Entries of a map with one more entry are the entry or old ones. -/
theorem SMap.mem_ins {α : Type} (m : SMap α) (k : Nat) (v : α) (e : Nat × α) (h : e ∈ SMap.ins m k v) :
    e = (k, v) ∨ e ∈ m := by
  induction m with
  | nil => simpa [SMap.ins] using h
  | cons x m ih =>
    obtain ⟨j, w⟩ := x
    unfold SMap.ins at h
    split at h
    · rcases List.mem_cons.1 h with h | h
      · exact .inl h
      · exact .inr (List.mem_cons_of_mem _ h)
    · split at h
      · rcases List.mem_cons.1 h with h | h
        · exact .inl h
        · exact .inr h
      · rcases List.mem_cons.1 h with h | h
        · exact .inr (h ▸ List.mem_cons_self)
        · rcases ih h with h | h
          · exact .inl h
          · exact .inr (List.mem_cons_of_mem _ h)

/-- Entries of a map with one entry fewer are old ones. -/
theorem SMap.mem_del {α : Type} (m : SMap α) (k : Nat) (e : Nat × α) (h : e ∈ SMap.del m k) : e ∈ m := by
  induction m with
  | nil => simp [SMap.del] at h
  | cons x m ih =>
    obtain ⟨j, w⟩ := x
    unfold SMap.del at h
    split at h
    · exact List.mem_cons_of_mem _ (ih h)
    · rcases List.mem_cons.1 h with h | h
      · exact h ▸ List.mem_cons_self
      · exact List.mem_cons_of_mem _ (ih h)

/-- The two halves of the canonical form. -/
theorem SMap.wf_iff {α : Type} [DecidableEq α] (d : α) (m : SMap α) :
    SMap.wf d m = true ↔ SMap.sortedFrom none m = true ∧ ∀ e ∈ m, e.2 ≠ d := by
  simp [SMap.wf]

/-- A write keeps the canonical form. -/
theorem SMap.wf_set {α : Type} [DecidableEq α] (d : α) (m : SMap α) (k : Nat) (v : α) (h : SMap.wf d m = true) :
    SMap.wf d (SMap.set d m k v) = true := by
  rw [SMap.wf_iff] at h ⊢
  unfold SMap.set
  split
  · exact ⟨SMap.sortedFrom_del m k none h.1, fun e he => h.2 e (SMap.mem_del m k e he)⟩
  · rename_i hv
    refine ⟨SMap.sortedFrom_ins m k v none (by simp) h.1, fun e he => ?_⟩
    rcases SMap.mem_ins m k v e he with rfl | he
    · exact hv
    · exact h.2 e he

/-- A filter keeps the canonical form. -/
theorem SMap.wf_filter {α : Type} [DecidableEq α] (d : α) (m : SMap α) (p : Nat × α → Bool) (h : SMap.wf d m = true) :
    SMap.wf d (m.filter p) = true := by
  rw [SMap.wf_iff] at h ⊢
  exact ⟨SMap.sortedFrom_filter m p none h.1, fun e he => h.2 e (List.mem_filter.1 he).1⟩

/-- A write keeps the keys rising. -/
theorem SMap.sorted_set {α : Type} [DecidableEq α] (d : α) (m : SMap α) (k : Nat) (v : α)
    (h : SMap.sortedFrom none m = true) : SMap.sortedFrom none (SMap.set d m k v) = true := by
  unfold SMap.set
  split
  · exact SMap.sortedFrom_del m k none h
  · exact SMap.sortedFrom_ins m k v none (by simp) h

/-! ### Memories -/

/-- Storing bytes keeps the canonical form of a memory. -/
theorem Mem.wf_write (d : BitVec 8) (m : Mem) (a : Nat) (bs : List (BitVec 8)) (h : Mem.wf d m = true) :
    Mem.wf d (Mem.write d m a bs) = true := by
  induction bs generalizing m a with
  | nil => exact h
  | cons b bs ih => exact ih _ _ (SMap.wf_set d m a b h)

/-- Storing bytes leaves every byte outside them as it reads. -/
theorem Mem.byte_write_other (d : BitVec 8) (m : Mem) (a : Nat) (bs : List (BitVec 8)) (x : Nat)
    (hx : x < a ∨ a + bs.length ≤ x) : Mem.byte d (Mem.write d m a bs) x = Mem.byte d m x := by
  induction bs generalizing m a with
  | nil => rfl
  | cons b bs ih =>
    simp only [List.length_cons] at hx
    have := ih (SMap.set d m a b) (a + 1) (by omega)
    simp only [Mem.write, Mem.byte] at this ⊢
    rw [this]
    exact SMap.get_set_other d d m a x b (by omega)

/-- Stored bytes are read back. -/
theorem Mem.bytes_write_same (d : BitVec 8) (m : Mem) (a : Nat) (bs : List (BitVec 8)) :
    Mem.bytes d (Mem.write d m a bs) a bs.length = bs := by
  induction bs generalizing m a with
  | nil => rfl
  | cons b bs ih =>
    simp only [Mem.write, List.length_cons, Mem.bytes, List.cons.injEq]
    refine ⟨?_, ih (SMap.set d m a b) (a + 1)⟩
    have := Mem.byte_write_other d (SMap.set d m a b) (a + 1) bs a (by omega)
    simp only [Mem.byte] at this
    rw [this]
    exact SMap.get_set_same d m a b

/-- No byte listed: the canonical form. -/
theorem Mem.wf_nil (d : BitVec 8) : Mem.wf d [] = true := rfl

end Sys2Proof.Machine
end

