-- ==== Sys2Proof/Laws/State.lean ====
section
/-! SUPPORT. One lemma per field per update of the state: what each named update writes is read back, and it leaves every
other field as it is. -/

namespace Sys2Proof.Machine

open Sys2Proof

/-- What `wri` leaves as it is. -/
@[simp] theorem Dev.wri_frame (d : Dev) (o : Obj) (u i : Nat) (v : Int) :
    (d.wri o u i v).clk = d.clk ∧ (d.wri o u i v).tb = d.tb ∧ (d.wri o u i v).tbase = d.tbase ∧
    (d.wri o u i v).chans = d.chans ∧ (d.wri o u i v).ch = d.ch ∧ (d.wri o u i v).stoves = d.stoves ∧
    (d.wri o u i v).st = d.st ∧ (d.wri o u i v).stagedCc = d.stagedCc ∧ (d.wri o u i v).stagedLast = d.stagedLast ∧
    (d.wri o u i v).hearths = d.hearths ∧ (d.wri o u i v).he = d.he ∧ (d.wri o u i v).segs = d.segs ∧
    (d.wri o u i v).seg = d.seg ∧ (d.wri o u i v).seqs = d.seqs ∧ (d.wri o u i v).sq = d.sq ∧
    (d.wri o u i v).acqs = d.acqs ∧ (d.wri o u i v).aq = d.aq ∧ (d.wri o u i v).grps = d.grps ∧
    (d.wri o u i v).gr = d.gr ∧ (d.wri o u i v).shadow = d.shadow ∧ (d.wri o u i v).bankA = d.bankA ∧
    (d.wri o u i v).bankB = d.bankB ∧ (d.wri o u i v).storing = d.storing ∧ (d.wri o u i v).imgTorn = d.imgTorn ∧
    (d.wri o u i v).cr = d.cr ∧ (d.wri o u i v).crRest = d.crRest ∧ (d.wri o u i v).cals = d.cals ∧
    (d.wri o u i v).own = d.own ∧ (d.wri o u i v).grantDue = d.grantDue ∧
    (d.wri o u i v).ownChecked = d.ownChecked ∧ (d.wri o u i v).ports = d.ports ∧ (d.wri o u i v).port = d.port ∧
    (d.wri o u i v).cvs = d.cvs ∧ (d.wri o u i v).capFrac = d.capFrac ∧ (d.wri o u i v).parent = d.parent ∧
    (d.wri o u i v).parentOf = d.parentOf ∧ (d.wri o u i v).isMember = d.isMember ∧
    (d.wri o u i v).portFenced = d.portFenced ∧ (d.wri o u i v).halfFenced = d.halfFenced ∧
    (d.wri o u i v).queues = d.queues ∧ (d.wri o u i v).qu = d.qu ∧ (d.wri o u i v).qmem = d.qmem ∧
    (d.wri o u i v).use = d.use ∧ (d.wri o u i v).routes = d.routes ∧ (d.wri o u i v).srcCount = d.srcCount ∧
    (d.wri o u i v).held = d.held ∧ (d.wri o u i v).pd = d.pd ∧ (d.wri o u i v).pdOn = d.pdOn ∧
    (d.wri o u i v).reports = d.reports ∧ (d.wri o u i v).conss = d.conss ∧ (d.wri o u i v).cons = d.cons ∧
    (d.wri o u i v).flues = d.flues ∧ (d.wri o u i v).evts = d.evts ∧ (d.wri o u i v).evtsCv = d.evtsCv ∧
    (d.wri o u i v).evi = d.evi ∧ (d.wri o u i v).evo = d.evo ∧ (d.wri o u i v).fltLow = d.fltLow ∧
    (d.wri o u i v).flt = d.flt ∧ (d.wri o u i v).hist = d.hist ∧ (d.wri o u i v).pwr = d.pwr ∧
    (d.wri o u i v).boot = d.boot ∧ (d.wri o u i v).isl = d.isl ∧ (d.wri o u i v).ft = d.ft ∧
    (d.wri o u i v).olds = d.olds ∧ (d.wri o u i v).free = d.free ∧ (d.wri o u i v).status = d.status ∧
    (d.wri o u i v).value = d.value := by
  and_intros <;> rfl

/-- What `wr` leaves as it is. -/
@[simp] theorem Dev.wr_frame (d : Dev) (o : Obj) (u : Nat) (v : Int) :
    (d.wr o u v).clk = d.clk ∧ (d.wr o u v).tb = d.tb ∧ (d.wr o u v).tbase = d.tbase ∧
    (d.wr o u v).chans = d.chans ∧ (d.wr o u v).ch = d.ch ∧ (d.wr o u v).stoves = d.stoves ∧
    (d.wr o u v).st = d.st ∧ (d.wr o u v).stagedCc = d.stagedCc ∧ (d.wr o u v).stagedLast = d.stagedLast ∧
    (d.wr o u v).hearths = d.hearths ∧ (d.wr o u v).he = d.he ∧ (d.wr o u v).segs = d.segs ∧
    (d.wr o u v).seg = d.seg ∧ (d.wr o u v).seqs = d.seqs ∧ (d.wr o u v).sq = d.sq ∧ (d.wr o u v).acqs = d.acqs ∧
    (d.wr o u v).aq = d.aq ∧ (d.wr o u v).grps = d.grps ∧ (d.wr o u v).gr = d.gr ∧ (d.wr o u v).shadow = d.shadow ∧
    (d.wr o u v).bankA = d.bankA ∧ (d.wr o u v).bankB = d.bankB ∧ (d.wr o u v).storing = d.storing ∧
    (d.wr o u v).imgTorn = d.imgTorn ∧ (d.wr o u v).cr = d.cr ∧ (d.wr o u v).crRest = d.crRest ∧
    (d.wr o u v).cals = d.cals ∧ (d.wr o u v).own = d.own ∧ (d.wr o u v).grantDue = d.grantDue ∧
    (d.wr o u v).ownChecked = d.ownChecked ∧ (d.wr o u v).ports = d.ports ∧ (d.wr o u v).port = d.port ∧
    (d.wr o u v).cvs = d.cvs ∧ (d.wr o u v).capFrac = d.capFrac ∧ (d.wr o u v).parent = d.parent ∧
    (d.wr o u v).parentOf = d.parentOf ∧ (d.wr o u v).isMember = d.isMember ∧
    (d.wr o u v).portFenced = d.portFenced ∧ (d.wr o u v).halfFenced = d.halfFenced ∧
    (d.wr o u v).queues = d.queues ∧ (d.wr o u v).qu = d.qu ∧ (d.wr o u v).qmem = d.qmem ∧
    (d.wr o u v).use = d.use ∧ (d.wr o u v).routes = d.routes ∧ (d.wr o u v).srcCount = d.srcCount ∧
    (d.wr o u v).held = d.held ∧ (d.wr o u v).pd = d.pd ∧ (d.wr o u v).pdOn = d.pdOn ∧
    (d.wr o u v).reports = d.reports ∧ (d.wr o u v).conss = d.conss ∧ (d.wr o u v).cons = d.cons ∧
    (d.wr o u v).flues = d.flues ∧ (d.wr o u v).evts = d.evts ∧ (d.wr o u v).evtsCv = d.evtsCv ∧
    (d.wr o u v).evi = d.evi ∧ (d.wr o u v).evo = d.evo ∧ (d.wr o u v).fltLow = d.fltLow ∧
    (d.wr o u v).flt = d.flt ∧ (d.wr o u v).hist = d.hist ∧ (d.wr o u v).pwr = d.pwr ∧ (d.wr o u v).boot = d.boot ∧
    (d.wr o u v).isl = d.isl ∧ (d.wr o u v).ft = d.ft ∧ (d.wr o u v).olds = d.olds ∧ (d.wr o u v).free = d.free ∧
    (d.wr o u v).status = d.status ∧ (d.wr o u v).value = d.value := by
  and_intros <;> rfl

/-- What `wrp` leaves as it is. -/
@[simp] theorem Dev.wrp_frame (d : Dev) (p : Party) (o : Obj) (u : Nat) (v : Int) :
    (d.wrp p o u v).clk = d.clk ∧ (d.wrp p o u v).tb = d.tb ∧ (d.wrp p o u v).tbase = d.tbase ∧
    (d.wrp p o u v).chans = d.chans ∧ (d.wrp p o u v).ch = d.ch ∧ (d.wrp p o u v).stoves = d.stoves ∧
    (d.wrp p o u v).st = d.st ∧ (d.wrp p o u v).stagedCc = d.stagedCc ∧ (d.wrp p o u v).stagedLast = d.stagedLast ∧
    (d.wrp p o u v).hearths = d.hearths ∧ (d.wrp p o u v).he = d.he ∧ (d.wrp p o u v).segs = d.segs ∧
    (d.wrp p o u v).seg = d.seg ∧ (d.wrp p o u v).seqs = d.seqs ∧ (d.wrp p o u v).sq = d.sq ∧
    (d.wrp p o u v).acqs = d.acqs ∧ (d.wrp p o u v).aq = d.aq ∧ (d.wrp p o u v).grps = d.grps ∧
    (d.wrp p o u v).gr = d.gr ∧ (d.wrp p o u v).shadow = d.shadow ∧ (d.wrp p o u v).bankA = d.bankA ∧
    (d.wrp p o u v).bankB = d.bankB ∧ (d.wrp p o u v).storing = d.storing ∧ (d.wrp p o u v).imgTorn = d.imgTorn ∧
    (d.wrp p o u v).cr = d.cr ∧ (d.wrp p o u v).crRest = d.crRest ∧ (d.wrp p o u v).cals = d.cals ∧
    (d.wrp p o u v).own = d.own ∧ (d.wrp p o u v).grantDue = d.grantDue ∧
    (d.wrp p o u v).ownChecked = d.ownChecked ∧ (d.wrp p o u v).ports = d.ports ∧ (d.wrp p o u v).port = d.port ∧
    (d.wrp p o u v).cvs = d.cvs ∧ (d.wrp p o u v).capFrac = d.capFrac ∧ (d.wrp p o u v).parent = d.parent ∧
    (d.wrp p o u v).parentOf = d.parentOf ∧ (d.wrp p o u v).isMember = d.isMember ∧
    (d.wrp p o u v).portFenced = d.portFenced ∧ (d.wrp p o u v).halfFenced = d.halfFenced ∧
    (d.wrp p o u v).queues = d.queues ∧ (d.wrp p o u v).qu = d.qu ∧ (d.wrp p o u v).qmem = d.qmem ∧
    (d.wrp p o u v).use = d.use ∧ (d.wrp p o u v).routes = d.routes ∧ (d.wrp p o u v).srcCount = d.srcCount ∧
    (d.wrp p o u v).held = d.held ∧ (d.wrp p o u v).pd = d.pd ∧ (d.wrp p o u v).pdOn = d.pdOn ∧
    (d.wrp p o u v).reports = d.reports ∧ (d.wrp p o u v).conss = d.conss ∧ (d.wrp p o u v).cons = d.cons ∧
    (d.wrp p o u v).flues = d.flues ∧ (d.wrp p o u v).evts = d.evts ∧ (d.wrp p o u v).evtsCv = d.evtsCv ∧
    (d.wrp p o u v).evi = d.evi ∧ (d.wrp p o u v).evo = d.evo ∧ (d.wrp p o u v).fltLow = d.fltLow ∧
    (d.wrp p o u v).flt = d.flt ∧ (d.wrp p o u v).hist = d.hist ∧ (d.wrp p o u v).pwr = d.pwr ∧
    (d.wrp p o u v).boot = d.boot ∧ (d.wrp p o u v).isl = d.isl ∧ (d.wrp p o u v).ft = d.ft ∧
    (d.wrp p o u v).olds = d.olds ∧ (d.wrp p o u v).free = d.free ∧ (d.wrp p o u v).status = d.status ∧
    (d.wrp p o u v).value = d.value := by
  and_intros <;> rfl

/-- What `bump` leaves as it is. -/
@[simp] theorem Dev.bump_frame (d : Dev) (o : Obj) (u w n : Nat) :
    (d.bump o u w n).clk = d.clk ∧ (d.bump o u w n).tb = d.tb ∧ (d.bump o u w n).tbase = d.tbase ∧
    (d.bump o u w n).chans = d.chans ∧ (d.bump o u w n).ch = d.ch ∧ (d.bump o u w n).stoves = d.stoves ∧
    (d.bump o u w n).st = d.st ∧ (d.bump o u w n).stagedCc = d.stagedCc ∧
    (d.bump o u w n).stagedLast = d.stagedLast ∧ (d.bump o u w n).hearths = d.hearths ∧
    (d.bump o u w n).he = d.he ∧ (d.bump o u w n).segs = d.segs ∧ (d.bump o u w n).seg = d.seg ∧
    (d.bump o u w n).seqs = d.seqs ∧ (d.bump o u w n).sq = d.sq ∧ (d.bump o u w n).acqs = d.acqs ∧
    (d.bump o u w n).aq = d.aq ∧ (d.bump o u w n).grps = d.grps ∧ (d.bump o u w n).gr = d.gr ∧
    (d.bump o u w n).shadow = d.shadow ∧ (d.bump o u w n).bankA = d.bankA ∧ (d.bump o u w n).bankB = d.bankB ∧
    (d.bump o u w n).storing = d.storing ∧ (d.bump o u w n).imgTorn = d.imgTorn ∧ (d.bump o u w n).cr = d.cr ∧
    (d.bump o u w n).crRest = d.crRest ∧ (d.bump o u w n).cals = d.cals ∧ (d.bump o u w n).own = d.own ∧
    (d.bump o u w n).grantDue = d.grantDue ∧ (d.bump o u w n).ownChecked = d.ownChecked ∧
    (d.bump o u w n).ports = d.ports ∧ (d.bump o u w n).port = d.port ∧ (d.bump o u w n).cvs = d.cvs ∧
    (d.bump o u w n).capFrac = d.capFrac ∧ (d.bump o u w n).parent = d.parent ∧
    (d.bump o u w n).parentOf = d.parentOf ∧ (d.bump o u w n).isMember = d.isMember ∧
    (d.bump o u w n).portFenced = d.portFenced ∧ (d.bump o u w n).halfFenced = d.halfFenced ∧
    (d.bump o u w n).queues = d.queues ∧ (d.bump o u w n).qu = d.qu ∧ (d.bump o u w n).qmem = d.qmem ∧
    (d.bump o u w n).use = d.use ∧ (d.bump o u w n).routes = d.routes ∧ (d.bump o u w n).srcCount = d.srcCount ∧
    (d.bump o u w n).held = d.held ∧ (d.bump o u w n).pd = d.pd ∧ (d.bump o u w n).pdOn = d.pdOn ∧
    (d.bump o u w n).reports = d.reports ∧ (d.bump o u w n).conss = d.conss ∧ (d.bump o u w n).cons = d.cons ∧
    (d.bump o u w n).flues = d.flues ∧ (d.bump o u w n).evts = d.evts ∧ (d.bump o u w n).evtsCv = d.evtsCv ∧
    (d.bump o u w n).evi = d.evi ∧ (d.bump o u w n).evo = d.evo ∧ (d.bump o u w n).fltLow = d.fltLow ∧
    (d.bump o u w n).flt = d.flt ∧ (d.bump o u w n).hist = d.hist ∧ (d.bump o u w n).pwr = d.pwr ∧
    (d.bump o u w n).boot = d.boot ∧ (d.bump o u w n).isl = d.isl ∧ (d.bump o u w n).ft = d.ft ∧
    (d.bump o u w n).olds = d.olds ∧ (d.bump o u w n).free = d.free ∧ (d.bump o u w n).status = d.status ∧
    (d.bump o u w n).value = d.value := by
  and_intros <;> rfl

/-- What `wrap` leaves as it is. -/
@[simp] theorem Dev.wrap_frame (d : Dev) (o : Obj) (u w n : Nat) :
    (d.wrap o u w n).clk = d.clk ∧ (d.wrap o u w n).tb = d.tb ∧ (d.wrap o u w n).tbase = d.tbase ∧
    (d.wrap o u w n).chans = d.chans ∧ (d.wrap o u w n).ch = d.ch ∧ (d.wrap o u w n).stoves = d.stoves ∧
    (d.wrap o u w n).st = d.st ∧ (d.wrap o u w n).stagedCc = d.stagedCc ∧
    (d.wrap o u w n).stagedLast = d.stagedLast ∧ (d.wrap o u w n).hearths = d.hearths ∧
    (d.wrap o u w n).he = d.he ∧ (d.wrap o u w n).segs = d.segs ∧ (d.wrap o u w n).seg = d.seg ∧
    (d.wrap o u w n).seqs = d.seqs ∧ (d.wrap o u w n).sq = d.sq ∧ (d.wrap o u w n).acqs = d.acqs ∧
    (d.wrap o u w n).aq = d.aq ∧ (d.wrap o u w n).grps = d.grps ∧ (d.wrap o u w n).gr = d.gr ∧
    (d.wrap o u w n).shadow = d.shadow ∧ (d.wrap o u w n).bankA = d.bankA ∧ (d.wrap o u w n).bankB = d.bankB ∧
    (d.wrap o u w n).storing = d.storing ∧ (d.wrap o u w n).imgTorn = d.imgTorn ∧ (d.wrap o u w n).cr = d.cr ∧
    (d.wrap o u w n).crRest = d.crRest ∧ (d.wrap o u w n).cals = d.cals ∧ (d.wrap o u w n).own = d.own ∧
    (d.wrap o u w n).grantDue = d.grantDue ∧ (d.wrap o u w n).ownChecked = d.ownChecked ∧
    (d.wrap o u w n).ports = d.ports ∧ (d.wrap o u w n).port = d.port ∧ (d.wrap o u w n).cvs = d.cvs ∧
    (d.wrap o u w n).capFrac = d.capFrac ∧ (d.wrap o u w n).parent = d.parent ∧
    (d.wrap o u w n).parentOf = d.parentOf ∧ (d.wrap o u w n).isMember = d.isMember ∧
    (d.wrap o u w n).portFenced = d.portFenced ∧ (d.wrap o u w n).halfFenced = d.halfFenced ∧
    (d.wrap o u w n).queues = d.queues ∧ (d.wrap o u w n).qu = d.qu ∧ (d.wrap o u w n).qmem = d.qmem ∧
    (d.wrap o u w n).use = d.use ∧ (d.wrap o u w n).routes = d.routes ∧ (d.wrap o u w n).srcCount = d.srcCount ∧
    (d.wrap o u w n).held = d.held ∧ (d.wrap o u w n).pd = d.pd ∧ (d.wrap o u w n).pdOn = d.pdOn ∧
    (d.wrap o u w n).reports = d.reports ∧ (d.wrap o u w n).conss = d.conss ∧ (d.wrap o u w n).cons = d.cons ∧
    (d.wrap o u w n).flues = d.flues ∧ (d.wrap o u w n).evts = d.evts ∧ (d.wrap o u w n).evtsCv = d.evtsCv ∧
    (d.wrap o u w n).evi = d.evi ∧ (d.wrap o u w n).evo = d.evo ∧ (d.wrap o u w n).fltLow = d.fltLow ∧
    (d.wrap o u w n).flt = d.flt ∧ (d.wrap o u w n).hist = d.hist ∧ (d.wrap o u w n).pwr = d.pwr ∧
    (d.wrap o u w n).boot = d.boot ∧ (d.wrap o u w n).isl = d.isl ∧ (d.wrap o u w n).ft = d.ft ∧
    (d.wrap o u w n).olds = d.olds ∧ (d.wrap o u w n).free = d.free ∧ (d.wrap o u w n).status = d.status ∧
    (d.wrap o u w n).value = d.value := by
  and_intros <;> rfl

/-- What `setCh` leaves as it is. -/
@[simp] theorem Dev.setCh_frame (d : Dev) (u : Nat) (c : Chan) :
    (d.setCh u c).dict = d.dict ∧ (d.setCh u c).rdi = d.rdi ∧ (d.setCh u c).rd = d.rd ∧ (d.setCh u c).rdN = d.rdN ∧
    (d.setCh u c).rdiN = d.rdiN ∧ (d.setCh u c).flag = d.flag ∧ (d.setCh u c).rdp = d.rdp ∧
    (d.setCh u c).rdpN = d.rdpN ∧ (d.setCh u c).clk = d.clk ∧ (d.setCh u c).tb = d.tb ∧
    (d.setCh u c).tbase = d.tbase ∧ (d.setCh u c).stoves = d.stoves ∧ (d.setCh u c).st = d.st ∧
    (d.setCh u c).stagedCc = d.stagedCc ∧ (d.setCh u c).stagedLast = d.stagedLast ∧
    (d.setCh u c).hearths = d.hearths ∧ (d.setCh u c).he = d.he ∧ (d.setCh u c).segs = d.segs ∧
    (d.setCh u c).seg = d.seg ∧ (d.setCh u c).seqs = d.seqs ∧ (d.setCh u c).sq = d.sq ∧
    (d.setCh u c).acqs = d.acqs ∧ (d.setCh u c).aq = d.aq ∧ (d.setCh u c).grps = d.grps ∧ (d.setCh u c).gr = d.gr ∧
    (d.setCh u c).shadow = d.shadow ∧ (d.setCh u c).bankA = d.bankA ∧ (d.setCh u c).bankB = d.bankB ∧
    (d.setCh u c).storing = d.storing ∧ (d.setCh u c).imgTorn = d.imgTorn ∧ (d.setCh u c).cr = d.cr ∧
    (d.setCh u c).crRest = d.crRest ∧ (d.setCh u c).cals = d.cals ∧ (d.setCh u c).own = d.own ∧
    (d.setCh u c).grantDue = d.grantDue ∧ (d.setCh u c).ownChecked = d.ownChecked ∧ (d.setCh u c).ports = d.ports ∧
    (d.setCh u c).port = d.port ∧ (d.setCh u c).cvs = d.cvs ∧ (d.setCh u c).capFrac = d.capFrac ∧
    (d.setCh u c).parent = d.parent ∧ (d.setCh u c).parentOf = d.parentOf ∧ (d.setCh u c).isMember = d.isMember ∧
    (d.setCh u c).portFenced = d.portFenced ∧ (d.setCh u c).halfFenced = d.halfFenced ∧
    (d.setCh u c).queues = d.queues ∧ (d.setCh u c).qu = d.qu ∧ (d.setCh u c).qmem = d.qmem ∧
    (d.setCh u c).use = d.use ∧ (d.setCh u c).routes = d.routes ∧ (d.setCh u c).srcCount = d.srcCount ∧
    (d.setCh u c).held = d.held ∧ (d.setCh u c).pd = d.pd ∧ (d.setCh u c).pdOn = d.pdOn ∧
    (d.setCh u c).reports = d.reports ∧ (d.setCh u c).conss = d.conss ∧ (d.setCh u c).cons = d.cons ∧
    (d.setCh u c).flues = d.flues ∧ (d.setCh u c).evts = d.evts ∧ (d.setCh u c).evtsCv = d.evtsCv ∧
    (d.setCh u c).evi = d.evi ∧ (d.setCh u c).evo = d.evo ∧ (d.setCh u c).fltLow = d.fltLow ∧
    (d.setCh u c).flt = d.flt ∧ (d.setCh u c).hist = d.hist ∧ (d.setCh u c).pwr = d.pwr ∧
    (d.setCh u c).boot = d.boot ∧ (d.setCh u c).isl = d.isl ∧ (d.setCh u c).ft = d.ft ∧
    (d.setCh u c).olds = d.olds ∧ (d.setCh u c).free = d.free ∧ (d.setCh u c).status = d.status ∧
    (d.setCh u c).value = d.value := by
  and_intros <;> rfl

/-- What `modCh` leaves as it is. -/
@[simp] theorem Dev.modCh_frame (d : Dev) (u : Nat) (f : Chan → Chan) :
    (d.modCh u f).dict = d.dict ∧ (d.modCh u f).rdi = d.rdi ∧ (d.modCh u f).rd = d.rd ∧ (d.modCh u f).rdN = d.rdN ∧
    (d.modCh u f).rdiN = d.rdiN ∧ (d.modCh u f).flag = d.flag ∧ (d.modCh u f).rdp = d.rdp ∧
    (d.modCh u f).rdpN = d.rdpN ∧ (d.modCh u f).clk = d.clk ∧ (d.modCh u f).tb = d.tb ∧
    (d.modCh u f).tbase = d.tbase ∧ (d.modCh u f).stoves = d.stoves ∧ (d.modCh u f).st = d.st ∧
    (d.modCh u f).stagedCc = d.stagedCc ∧ (d.modCh u f).stagedLast = d.stagedLast ∧
    (d.modCh u f).hearths = d.hearths ∧ (d.modCh u f).he = d.he ∧ (d.modCh u f).segs = d.segs ∧
    (d.modCh u f).seg = d.seg ∧ (d.modCh u f).seqs = d.seqs ∧ (d.modCh u f).sq = d.sq ∧
    (d.modCh u f).acqs = d.acqs ∧ (d.modCh u f).aq = d.aq ∧ (d.modCh u f).grps = d.grps ∧ (d.modCh u f).gr = d.gr ∧
    (d.modCh u f).shadow = d.shadow ∧ (d.modCh u f).bankA = d.bankA ∧ (d.modCh u f).bankB = d.bankB ∧
    (d.modCh u f).storing = d.storing ∧ (d.modCh u f).imgTorn = d.imgTorn ∧ (d.modCh u f).cr = d.cr ∧
    (d.modCh u f).crRest = d.crRest ∧ (d.modCh u f).cals = d.cals ∧ (d.modCh u f).own = d.own ∧
    (d.modCh u f).grantDue = d.grantDue ∧ (d.modCh u f).ownChecked = d.ownChecked ∧ (d.modCh u f).ports = d.ports ∧
    (d.modCh u f).port = d.port ∧ (d.modCh u f).cvs = d.cvs ∧ (d.modCh u f).capFrac = d.capFrac ∧
    (d.modCh u f).parent = d.parent ∧ (d.modCh u f).parentOf = d.parentOf ∧ (d.modCh u f).isMember = d.isMember ∧
    (d.modCh u f).portFenced = d.portFenced ∧ (d.modCh u f).halfFenced = d.halfFenced ∧
    (d.modCh u f).queues = d.queues ∧ (d.modCh u f).qu = d.qu ∧ (d.modCh u f).qmem = d.qmem ∧
    (d.modCh u f).use = d.use ∧ (d.modCh u f).routes = d.routes ∧ (d.modCh u f).srcCount = d.srcCount ∧
    (d.modCh u f).held = d.held ∧ (d.modCh u f).pd = d.pd ∧ (d.modCh u f).pdOn = d.pdOn ∧
    (d.modCh u f).reports = d.reports ∧ (d.modCh u f).conss = d.conss ∧ (d.modCh u f).cons = d.cons ∧
    (d.modCh u f).flues = d.flues ∧ (d.modCh u f).evts = d.evts ∧ (d.modCh u f).evtsCv = d.evtsCv ∧
    (d.modCh u f).evi = d.evi ∧ (d.modCh u f).evo = d.evo ∧ (d.modCh u f).fltLow = d.fltLow ∧
    (d.modCh u f).flt = d.flt ∧ (d.modCh u f).hist = d.hist ∧ (d.modCh u f).pwr = d.pwr ∧
    (d.modCh u f).boot = d.boot ∧ (d.modCh u f).isl = d.isl ∧ (d.modCh u f).ft = d.ft ∧
    (d.modCh u f).olds = d.olds ∧ (d.modCh u f).free = d.free ∧ (d.modCh u f).status = d.status ∧
    (d.modCh u f).value = d.value := by
  and_intros <;> rfl

/-- What `modCtl` leaves as it is. -/
@[simp] theorem Dev.modCtl_frame (d : Dev) (u : Nat) (f : Ctl → Ctl) :
    (d.modCtl u f).dict = d.dict ∧ (d.modCtl u f).rdi = d.rdi ∧ (d.modCtl u f).rd = d.rd ∧
    (d.modCtl u f).rdN = d.rdN ∧ (d.modCtl u f).rdiN = d.rdiN ∧ (d.modCtl u f).flag = d.flag ∧
    (d.modCtl u f).rdp = d.rdp ∧ (d.modCtl u f).rdpN = d.rdpN ∧ (d.modCtl u f).clk = d.clk ∧
    (d.modCtl u f).tb = d.tb ∧ (d.modCtl u f).tbase = d.tbase ∧ (d.modCtl u f).stoves = d.stoves ∧
    (d.modCtl u f).st = d.st ∧ (d.modCtl u f).stagedCc = d.stagedCc ∧ (d.modCtl u f).stagedLast = d.stagedLast ∧
    (d.modCtl u f).hearths = d.hearths ∧ (d.modCtl u f).he = d.he ∧ (d.modCtl u f).segs = d.segs ∧
    (d.modCtl u f).seg = d.seg ∧ (d.modCtl u f).seqs = d.seqs ∧ (d.modCtl u f).sq = d.sq ∧
    (d.modCtl u f).acqs = d.acqs ∧ (d.modCtl u f).aq = d.aq ∧ (d.modCtl u f).grps = d.grps ∧
    (d.modCtl u f).gr = d.gr ∧ (d.modCtl u f).shadow = d.shadow ∧ (d.modCtl u f).bankA = d.bankA ∧
    (d.modCtl u f).bankB = d.bankB ∧ (d.modCtl u f).storing = d.storing ∧ (d.modCtl u f).imgTorn = d.imgTorn ∧
    (d.modCtl u f).cr = d.cr ∧ (d.modCtl u f).crRest = d.crRest ∧ (d.modCtl u f).cals = d.cals ∧
    (d.modCtl u f).own = d.own ∧ (d.modCtl u f).grantDue = d.grantDue ∧ (d.modCtl u f).ownChecked = d.ownChecked ∧
    (d.modCtl u f).ports = d.ports ∧ (d.modCtl u f).port = d.port ∧ (d.modCtl u f).cvs = d.cvs ∧
    (d.modCtl u f).capFrac = d.capFrac ∧ (d.modCtl u f).parent = d.parent ∧ (d.modCtl u f).parentOf = d.parentOf ∧
    (d.modCtl u f).isMember = d.isMember ∧ (d.modCtl u f).portFenced = d.portFenced ∧
    (d.modCtl u f).halfFenced = d.halfFenced ∧ (d.modCtl u f).queues = d.queues ∧ (d.modCtl u f).qu = d.qu ∧
    (d.modCtl u f).qmem = d.qmem ∧ (d.modCtl u f).use = d.use ∧ (d.modCtl u f).routes = d.routes ∧
    (d.modCtl u f).srcCount = d.srcCount ∧ (d.modCtl u f).held = d.held ∧ (d.modCtl u f).pd = d.pd ∧
    (d.modCtl u f).pdOn = d.pdOn ∧ (d.modCtl u f).reports = d.reports ∧ (d.modCtl u f).conss = d.conss ∧
    (d.modCtl u f).cons = d.cons ∧ (d.modCtl u f).flues = d.flues ∧ (d.modCtl u f).evts = d.evts ∧
    (d.modCtl u f).evtsCv = d.evtsCv ∧ (d.modCtl u f).evi = d.evi ∧ (d.modCtl u f).evo = d.evo ∧
    (d.modCtl u f).fltLow = d.fltLow ∧ (d.modCtl u f).flt = d.flt ∧ (d.modCtl u f).hist = d.hist ∧
    (d.modCtl u f).pwr = d.pwr ∧ (d.modCtl u f).boot = d.boot ∧ (d.modCtl u f).isl = d.isl ∧
    (d.modCtl u f).ft = d.ft ∧ (d.modCtl u f).olds = d.olds ∧ (d.modCtl u f).free = d.free ∧
    (d.modCtl u f).status = d.status ∧ (d.modCtl u f).value = d.value := by
  and_intros <;> rfl

/-- What `modMeas` leaves as it is. -/
@[simp] theorem Dev.modMeas_frame (d : Dev) (u : Nat) (f : Meas → Meas) :
    (d.modMeas u f).dict = d.dict ∧ (d.modMeas u f).rdi = d.rdi ∧ (d.modMeas u f).rd = d.rd ∧
    (d.modMeas u f).rdN = d.rdN ∧ (d.modMeas u f).rdiN = d.rdiN ∧ (d.modMeas u f).flag = d.flag ∧
    (d.modMeas u f).rdp = d.rdp ∧ (d.modMeas u f).rdpN = d.rdpN ∧ (d.modMeas u f).clk = d.clk ∧
    (d.modMeas u f).tb = d.tb ∧ (d.modMeas u f).tbase = d.tbase ∧ (d.modMeas u f).stoves = d.stoves ∧
    (d.modMeas u f).st = d.st ∧ (d.modMeas u f).stagedCc = d.stagedCc ∧ (d.modMeas u f).stagedLast = d.stagedLast ∧
    (d.modMeas u f).hearths = d.hearths ∧ (d.modMeas u f).he = d.he ∧ (d.modMeas u f).segs = d.segs ∧
    (d.modMeas u f).seg = d.seg ∧ (d.modMeas u f).seqs = d.seqs ∧ (d.modMeas u f).sq = d.sq ∧
    (d.modMeas u f).acqs = d.acqs ∧ (d.modMeas u f).aq = d.aq ∧ (d.modMeas u f).grps = d.grps ∧
    (d.modMeas u f).gr = d.gr ∧ (d.modMeas u f).shadow = d.shadow ∧ (d.modMeas u f).bankA = d.bankA ∧
    (d.modMeas u f).bankB = d.bankB ∧ (d.modMeas u f).storing = d.storing ∧ (d.modMeas u f).imgTorn = d.imgTorn ∧
    (d.modMeas u f).cr = d.cr ∧ (d.modMeas u f).crRest = d.crRest ∧ (d.modMeas u f).cals = d.cals ∧
    (d.modMeas u f).own = d.own ∧ (d.modMeas u f).grantDue = d.grantDue ∧
    (d.modMeas u f).ownChecked = d.ownChecked ∧ (d.modMeas u f).ports = d.ports ∧ (d.modMeas u f).port = d.port ∧
    (d.modMeas u f).cvs = d.cvs ∧ (d.modMeas u f).capFrac = d.capFrac ∧ (d.modMeas u f).parent = d.parent ∧
    (d.modMeas u f).parentOf = d.parentOf ∧ (d.modMeas u f).isMember = d.isMember ∧
    (d.modMeas u f).portFenced = d.portFenced ∧ (d.modMeas u f).halfFenced = d.halfFenced ∧
    (d.modMeas u f).queues = d.queues ∧ (d.modMeas u f).qu = d.qu ∧ (d.modMeas u f).qmem = d.qmem ∧
    (d.modMeas u f).use = d.use ∧ (d.modMeas u f).routes = d.routes ∧ (d.modMeas u f).srcCount = d.srcCount ∧
    (d.modMeas u f).held = d.held ∧ (d.modMeas u f).pd = d.pd ∧ (d.modMeas u f).pdOn = d.pdOn ∧
    (d.modMeas u f).reports = d.reports ∧ (d.modMeas u f).conss = d.conss ∧ (d.modMeas u f).cons = d.cons ∧
    (d.modMeas u f).flues = d.flues ∧ (d.modMeas u f).evts = d.evts ∧ (d.modMeas u f).evtsCv = d.evtsCv ∧
    (d.modMeas u f).evi = d.evi ∧ (d.modMeas u f).evo = d.evo ∧ (d.modMeas u f).fltLow = d.fltLow ∧
    (d.modMeas u f).flt = d.flt ∧ (d.modMeas u f).hist = d.hist ∧ (d.modMeas u f).pwr = d.pwr ∧
    (d.modMeas u f).boot = d.boot ∧ (d.modMeas u f).isl = d.isl ∧ (d.modMeas u f).ft = d.ft ∧
    (d.modMeas u f).olds = d.olds ∧ (d.modMeas u f).free = d.free ∧ (d.modMeas u f).status = d.status ∧
    (d.modMeas u f).value = d.value := by
  and_intros <;> rfl

/-- What `modRng` leaves as it is. -/
@[simp] theorem Dev.modRng_frame (d : Dev) (u : Nat) (b : Bool) (f : Rng → Rng) :
    (d.modRng u b f).dict = d.dict ∧ (d.modRng u b f).rdi = d.rdi ∧ (d.modRng u b f).rd = d.rd ∧
    (d.modRng u b f).rdN = d.rdN ∧ (d.modRng u b f).rdiN = d.rdiN ∧ (d.modRng u b f).flag = d.flag ∧
    (d.modRng u b f).rdp = d.rdp ∧ (d.modRng u b f).rdpN = d.rdpN ∧ (d.modRng u b f).clk = d.clk ∧
    (d.modRng u b f).tb = d.tb ∧ (d.modRng u b f).tbase = d.tbase ∧ (d.modRng u b f).stoves = d.stoves ∧
    (d.modRng u b f).st = d.st ∧ (d.modRng u b f).stagedCc = d.stagedCc ∧
    (d.modRng u b f).stagedLast = d.stagedLast ∧ (d.modRng u b f).hearths = d.hearths ∧
    (d.modRng u b f).he = d.he ∧ (d.modRng u b f).segs = d.segs ∧ (d.modRng u b f).seg = d.seg ∧
    (d.modRng u b f).seqs = d.seqs ∧ (d.modRng u b f).sq = d.sq ∧ (d.modRng u b f).acqs = d.acqs ∧
    (d.modRng u b f).aq = d.aq ∧ (d.modRng u b f).grps = d.grps ∧ (d.modRng u b f).gr = d.gr ∧
    (d.modRng u b f).shadow = d.shadow ∧ (d.modRng u b f).bankA = d.bankA ∧ (d.modRng u b f).bankB = d.bankB ∧
    (d.modRng u b f).storing = d.storing ∧ (d.modRng u b f).imgTorn = d.imgTorn ∧ (d.modRng u b f).cr = d.cr ∧
    (d.modRng u b f).crRest = d.crRest ∧ (d.modRng u b f).cals = d.cals ∧ (d.modRng u b f).own = d.own ∧
    (d.modRng u b f).grantDue = d.grantDue ∧ (d.modRng u b f).ownChecked = d.ownChecked ∧
    (d.modRng u b f).ports = d.ports ∧ (d.modRng u b f).port = d.port ∧ (d.modRng u b f).cvs = d.cvs ∧
    (d.modRng u b f).capFrac = d.capFrac ∧ (d.modRng u b f).parent = d.parent ∧
    (d.modRng u b f).parentOf = d.parentOf ∧ (d.modRng u b f).isMember = d.isMember ∧
    (d.modRng u b f).portFenced = d.portFenced ∧ (d.modRng u b f).halfFenced = d.halfFenced ∧
    (d.modRng u b f).queues = d.queues ∧ (d.modRng u b f).qu = d.qu ∧ (d.modRng u b f).qmem = d.qmem ∧
    (d.modRng u b f).use = d.use ∧ (d.modRng u b f).routes = d.routes ∧ (d.modRng u b f).srcCount = d.srcCount ∧
    (d.modRng u b f).held = d.held ∧ (d.modRng u b f).pd = d.pd ∧ (d.modRng u b f).pdOn = d.pdOn ∧
    (d.modRng u b f).reports = d.reports ∧ (d.modRng u b f).conss = d.conss ∧ (d.modRng u b f).cons = d.cons ∧
    (d.modRng u b f).flues = d.flues ∧ (d.modRng u b f).evts = d.evts ∧ (d.modRng u b f).evtsCv = d.evtsCv ∧
    (d.modRng u b f).evi = d.evi ∧ (d.modRng u b f).evo = d.evo ∧ (d.modRng u b f).fltLow = d.fltLow ∧
    (d.modRng u b f).flt = d.flt ∧ (d.modRng u b f).hist = d.hist ∧ (d.modRng u b f).pwr = d.pwr ∧
    (d.modRng u b f).boot = d.boot ∧ (d.modRng u b f).isl = d.isl ∧ (d.modRng u b f).ft = d.ft ∧
    (d.modRng u b f).olds = d.olds ∧ (d.modRng u b f).free = d.free ∧ (d.modRng u b f).status = d.status ∧
    (d.modRng u b f).value = d.value := by
  and_intros <;> rfl

/-- What `modSt` leaves as it is. -/
@[simp] theorem Dev.modSt_frame (d : Dev) (k : Nat) (f : Stove → Stove) :
    (d.modSt k f).dict = d.dict ∧ (d.modSt k f).rdi = d.rdi ∧ (d.modSt k f).rd = d.rd ∧ (d.modSt k f).rdN = d.rdN ∧
    (d.modSt k f).rdiN = d.rdiN ∧ (d.modSt k f).flag = d.flag ∧ (d.modSt k f).rdp = d.rdp ∧
    (d.modSt k f).rdpN = d.rdpN ∧ (d.modSt k f).clk = d.clk ∧ (d.modSt k f).tb = d.tb ∧
    (d.modSt k f).tbase = d.tbase ∧ (d.modSt k f).chans = d.chans ∧ (d.modSt k f).ch = d.ch ∧
    (d.modSt k f).stagedCc = d.stagedCc ∧ (d.modSt k f).stagedLast = d.stagedLast ∧
    (d.modSt k f).hearths = d.hearths ∧ (d.modSt k f).he = d.he ∧ (d.modSt k f).segs = d.segs ∧
    (d.modSt k f).seg = d.seg ∧ (d.modSt k f).seqs = d.seqs ∧ (d.modSt k f).sq = d.sq ∧
    (d.modSt k f).acqs = d.acqs ∧ (d.modSt k f).aq = d.aq ∧ (d.modSt k f).grps = d.grps ∧ (d.modSt k f).gr = d.gr ∧
    (d.modSt k f).shadow = d.shadow ∧ (d.modSt k f).bankA = d.bankA ∧ (d.modSt k f).bankB = d.bankB ∧
    (d.modSt k f).storing = d.storing ∧ (d.modSt k f).imgTorn = d.imgTorn ∧ (d.modSt k f).cr = d.cr ∧
    (d.modSt k f).crRest = d.crRest ∧ (d.modSt k f).cals = d.cals ∧ (d.modSt k f).own = d.own ∧
    (d.modSt k f).grantDue = d.grantDue ∧ (d.modSt k f).ownChecked = d.ownChecked ∧ (d.modSt k f).ports = d.ports ∧
    (d.modSt k f).port = d.port ∧ (d.modSt k f).cvs = d.cvs ∧ (d.modSt k f).capFrac = d.capFrac ∧
    (d.modSt k f).parent = d.parent ∧ (d.modSt k f).parentOf = d.parentOf ∧ (d.modSt k f).isMember = d.isMember ∧
    (d.modSt k f).portFenced = d.portFenced ∧ (d.modSt k f).halfFenced = d.halfFenced ∧
    (d.modSt k f).queues = d.queues ∧ (d.modSt k f).qu = d.qu ∧ (d.modSt k f).qmem = d.qmem ∧
    (d.modSt k f).use = d.use ∧ (d.modSt k f).routes = d.routes ∧ (d.modSt k f).srcCount = d.srcCount ∧
    (d.modSt k f).held = d.held ∧ (d.modSt k f).pd = d.pd ∧ (d.modSt k f).pdOn = d.pdOn ∧
    (d.modSt k f).reports = d.reports ∧ (d.modSt k f).conss = d.conss ∧ (d.modSt k f).cons = d.cons ∧
    (d.modSt k f).flues = d.flues ∧ (d.modSt k f).evts = d.evts ∧ (d.modSt k f).evtsCv = d.evtsCv ∧
    (d.modSt k f).evi = d.evi ∧ (d.modSt k f).evo = d.evo ∧ (d.modSt k f).fltLow = d.fltLow ∧
    (d.modSt k f).flt = d.flt ∧ (d.modSt k f).hist = d.hist ∧ (d.modSt k f).pwr = d.pwr ∧
    (d.modSt k f).boot = d.boot ∧ (d.modSt k f).isl = d.isl ∧ (d.modSt k f).ft = d.ft ∧
    (d.modSt k f).olds = d.olds ∧ (d.modSt k f).free = d.free ∧ (d.modSt k f).status = d.status ∧
    (d.modSt k f).value = d.value := by
  and_intros <;> rfl

/-- What `modHe` leaves as it is. -/
@[simp] theorem Dev.modHe_frame (d : Dev) (h : Nat) (f : Hearth → Hearth) :
    (d.modHe h f).dict = d.dict ∧ (d.modHe h f).rdi = d.rdi ∧ (d.modHe h f).rd = d.rd ∧ (d.modHe h f).rdN = d.rdN ∧
    (d.modHe h f).rdiN = d.rdiN ∧ (d.modHe h f).flag = d.flag ∧ (d.modHe h f).rdp = d.rdp ∧
    (d.modHe h f).rdpN = d.rdpN ∧ (d.modHe h f).clk = d.clk ∧ (d.modHe h f).tb = d.tb ∧
    (d.modHe h f).tbase = d.tbase ∧ (d.modHe h f).chans = d.chans ∧ (d.modHe h f).ch = d.ch ∧
    (d.modHe h f).stoves = d.stoves ∧ (d.modHe h f).st = d.st ∧ (d.modHe h f).stagedCc = d.stagedCc ∧
    (d.modHe h f).stagedLast = d.stagedLast ∧ (d.modHe h f).segs = d.segs ∧ (d.modHe h f).seg = d.seg ∧
    (d.modHe h f).seqs = d.seqs ∧ (d.modHe h f).sq = d.sq ∧ (d.modHe h f).acqs = d.acqs ∧ (d.modHe h f).aq = d.aq ∧
    (d.modHe h f).grps = d.grps ∧ (d.modHe h f).gr = d.gr ∧ (d.modHe h f).shadow = d.shadow ∧
    (d.modHe h f).bankA = d.bankA ∧ (d.modHe h f).bankB = d.bankB ∧ (d.modHe h f).storing = d.storing ∧
    (d.modHe h f).imgTorn = d.imgTorn ∧ (d.modHe h f).cr = d.cr ∧ (d.modHe h f).crRest = d.crRest ∧
    (d.modHe h f).cals = d.cals ∧ (d.modHe h f).own = d.own ∧ (d.modHe h f).grantDue = d.grantDue ∧
    (d.modHe h f).ownChecked = d.ownChecked ∧ (d.modHe h f).ports = d.ports ∧ (d.modHe h f).port = d.port ∧
    (d.modHe h f).cvs = d.cvs ∧ (d.modHe h f).capFrac = d.capFrac ∧ (d.modHe h f).parent = d.parent ∧
    (d.modHe h f).parentOf = d.parentOf ∧ (d.modHe h f).isMember = d.isMember ∧
    (d.modHe h f).portFenced = d.portFenced ∧ (d.modHe h f).halfFenced = d.halfFenced ∧
    (d.modHe h f).queues = d.queues ∧ (d.modHe h f).qu = d.qu ∧ (d.modHe h f).qmem = d.qmem ∧
    (d.modHe h f).use = d.use ∧ (d.modHe h f).routes = d.routes ∧ (d.modHe h f).srcCount = d.srcCount ∧
    (d.modHe h f).held = d.held ∧ (d.modHe h f).pd = d.pd ∧ (d.modHe h f).pdOn = d.pdOn ∧
    (d.modHe h f).reports = d.reports ∧ (d.modHe h f).conss = d.conss ∧ (d.modHe h f).cons = d.cons ∧
    (d.modHe h f).flues = d.flues ∧ (d.modHe h f).evts = d.evts ∧ (d.modHe h f).evtsCv = d.evtsCv ∧
    (d.modHe h f).evi = d.evi ∧ (d.modHe h f).evo = d.evo ∧ (d.modHe h f).fltLow = d.fltLow ∧
    (d.modHe h f).flt = d.flt ∧ (d.modHe h f).hist = d.hist ∧ (d.modHe h f).pwr = d.pwr ∧
    (d.modHe h f).boot = d.boot ∧ (d.modHe h f).isl = d.isl ∧ (d.modHe h f).ft = d.ft ∧
    (d.modHe h f).olds = d.olds ∧ (d.modHe h f).free = d.free ∧ (d.modHe h f).status = d.status ∧
    (d.modHe h f).value = d.value := by
  and_intros <;> rfl

/-- What `modTb` leaves as it is. -/
@[simp] theorem Dev.modTb_frame (d : Dev) (t : Nat) (f : TimeBase → TimeBase) :
    (d.modTb t f).dict = d.dict ∧ (d.modTb t f).rdi = d.rdi ∧ (d.modTb t f).rd = d.rd ∧ (d.modTb t f).rdN = d.rdN ∧
    (d.modTb t f).rdiN = d.rdiN ∧ (d.modTb t f).flag = d.flag ∧ (d.modTb t f).rdp = d.rdp ∧
    (d.modTb t f).rdpN = d.rdpN ∧ (d.modTb t f).clk = d.clk ∧ (d.modTb t f).chans = d.chans ∧
    (d.modTb t f).ch = d.ch ∧ (d.modTb t f).stoves = d.stoves ∧ (d.modTb t f).st = d.st ∧
    (d.modTb t f).stagedCc = d.stagedCc ∧ (d.modTb t f).stagedLast = d.stagedLast ∧
    (d.modTb t f).hearths = d.hearths ∧ (d.modTb t f).he = d.he ∧ (d.modTb t f).segs = d.segs ∧
    (d.modTb t f).seg = d.seg ∧ (d.modTb t f).seqs = d.seqs ∧ (d.modTb t f).sq = d.sq ∧
    (d.modTb t f).acqs = d.acqs ∧ (d.modTb t f).aq = d.aq ∧ (d.modTb t f).grps = d.grps ∧ (d.modTb t f).gr = d.gr ∧
    (d.modTb t f).shadow = d.shadow ∧ (d.modTb t f).bankA = d.bankA ∧ (d.modTb t f).bankB = d.bankB ∧
    (d.modTb t f).storing = d.storing ∧ (d.modTb t f).imgTorn = d.imgTorn ∧ (d.modTb t f).cr = d.cr ∧
    (d.modTb t f).crRest = d.crRest ∧ (d.modTb t f).cals = d.cals ∧ (d.modTb t f).own = d.own ∧
    (d.modTb t f).grantDue = d.grantDue ∧ (d.modTb t f).ownChecked = d.ownChecked ∧ (d.modTb t f).ports = d.ports ∧
    (d.modTb t f).port = d.port ∧ (d.modTb t f).cvs = d.cvs ∧ (d.modTb t f).capFrac = d.capFrac ∧
    (d.modTb t f).parent = d.parent ∧ (d.modTb t f).parentOf = d.parentOf ∧ (d.modTb t f).isMember = d.isMember ∧
    (d.modTb t f).portFenced = d.portFenced ∧ (d.modTb t f).halfFenced = d.halfFenced ∧
    (d.modTb t f).queues = d.queues ∧ (d.modTb t f).qu = d.qu ∧ (d.modTb t f).qmem = d.qmem ∧
    (d.modTb t f).use = d.use ∧ (d.modTb t f).routes = d.routes ∧ (d.modTb t f).srcCount = d.srcCount ∧
    (d.modTb t f).held = d.held ∧ (d.modTb t f).pd = d.pd ∧ (d.modTb t f).pdOn = d.pdOn ∧
    (d.modTb t f).reports = d.reports ∧ (d.modTb t f).conss = d.conss ∧ (d.modTb t f).cons = d.cons ∧
    (d.modTb t f).flues = d.flues ∧ (d.modTb t f).evts = d.evts ∧ (d.modTb t f).evtsCv = d.evtsCv ∧
    (d.modTb t f).evi = d.evi ∧ (d.modTb t f).evo = d.evo ∧ (d.modTb t f).fltLow = d.fltLow ∧
    (d.modTb t f).flt = d.flt ∧ (d.modTb t f).hist = d.hist ∧ (d.modTb t f).pwr = d.pwr ∧
    (d.modTb t f).boot = d.boot ∧ (d.modTb t f).isl = d.isl ∧ (d.modTb t f).ft = d.ft ∧
    (d.modTb t f).olds = d.olds ∧ (d.modTb t f).free = d.free ∧ (d.modTb t f).status = d.status ∧
    (d.modTb t f).value = d.value := by
  and_intros <;> rfl

/-- What `setQu` leaves as it is. -/
@[simp] theorem Dev.setQu_frame (d : Dev) (q : Nat) (x : Queue) :
    (d.setQu q x).dict = d.dict ∧ (d.setQu q x).rdi = d.rdi ∧ (d.setQu q x).rd = d.rd ∧ (d.setQu q x).rdN = d.rdN ∧
    (d.setQu q x).rdiN = d.rdiN ∧ (d.setQu q x).flag = d.flag ∧ (d.setQu q x).rdp = d.rdp ∧
    (d.setQu q x).rdpN = d.rdpN ∧ (d.setQu q x).clk = d.clk ∧ (d.setQu q x).tb = d.tb ∧
    (d.setQu q x).tbase = d.tbase ∧ (d.setQu q x).chans = d.chans ∧ (d.setQu q x).ch = d.ch ∧
    (d.setQu q x).stoves = d.stoves ∧ (d.setQu q x).st = d.st ∧ (d.setQu q x).stagedCc = d.stagedCc ∧
    (d.setQu q x).stagedLast = d.stagedLast ∧ (d.setQu q x).hearths = d.hearths ∧ (d.setQu q x).he = d.he ∧
    (d.setQu q x).segs = d.segs ∧ (d.setQu q x).seg = d.seg ∧ (d.setQu q x).seqs = d.seqs ∧
    (d.setQu q x).sq = d.sq ∧ (d.setQu q x).acqs = d.acqs ∧ (d.setQu q x).aq = d.aq ∧ (d.setQu q x).grps = d.grps ∧
    (d.setQu q x).gr = d.gr ∧ (d.setQu q x).shadow = d.shadow ∧ (d.setQu q x).bankA = d.bankA ∧
    (d.setQu q x).bankB = d.bankB ∧ (d.setQu q x).storing = d.storing ∧ (d.setQu q x).imgTorn = d.imgTorn ∧
    (d.setQu q x).cr = d.cr ∧ (d.setQu q x).crRest = d.crRest ∧ (d.setQu q x).cals = d.cals ∧
    (d.setQu q x).own = d.own ∧ (d.setQu q x).grantDue = d.grantDue ∧ (d.setQu q x).ownChecked = d.ownChecked ∧
    (d.setQu q x).ports = d.ports ∧ (d.setQu q x).port = d.port ∧ (d.setQu q x).cvs = d.cvs ∧
    (d.setQu q x).capFrac = d.capFrac ∧ (d.setQu q x).parent = d.parent ∧ (d.setQu q x).parentOf = d.parentOf ∧
    (d.setQu q x).isMember = d.isMember ∧ (d.setQu q x).portFenced = d.portFenced ∧
    (d.setQu q x).halfFenced = d.halfFenced ∧ (d.setQu q x).qmem = d.qmem ∧ (d.setQu q x).use = d.use ∧
    (d.setQu q x).routes = d.routes ∧ (d.setQu q x).srcCount = d.srcCount ∧ (d.setQu q x).held = d.held ∧
    (d.setQu q x).pd = d.pd ∧ (d.setQu q x).pdOn = d.pdOn ∧ (d.setQu q x).reports = d.reports ∧
    (d.setQu q x).conss = d.conss ∧ (d.setQu q x).cons = d.cons ∧ (d.setQu q x).flues = d.flues ∧
    (d.setQu q x).evts = d.evts ∧ (d.setQu q x).evtsCv = d.evtsCv ∧ (d.setQu q x).evi = d.evi ∧
    (d.setQu q x).evo = d.evo ∧ (d.setQu q x).fltLow = d.fltLow ∧ (d.setQu q x).flt = d.flt ∧
    (d.setQu q x).hist = d.hist ∧ (d.setQu q x).pwr = d.pwr ∧ (d.setQu q x).boot = d.boot ∧
    (d.setQu q x).isl = d.isl ∧ (d.setQu q x).ft = d.ft ∧ (d.setQu q x).olds = d.olds ∧
    (d.setQu q x).free = d.free ∧ (d.setQu q x).status = d.status ∧ (d.setQu q x).value = d.value := by
  and_intros <;> rfl

/-- What `modQu` leaves as it is. -/
@[simp] theorem Dev.modQu_frame (d : Dev) (q : Nat) (f : Queue → Queue) :
    (d.modQu q f).dict = d.dict ∧ (d.modQu q f).rdi = d.rdi ∧ (d.modQu q f).rd = d.rd ∧ (d.modQu q f).rdN = d.rdN ∧
    (d.modQu q f).rdiN = d.rdiN ∧ (d.modQu q f).flag = d.flag ∧ (d.modQu q f).rdp = d.rdp ∧
    (d.modQu q f).rdpN = d.rdpN ∧ (d.modQu q f).clk = d.clk ∧ (d.modQu q f).tb = d.tb ∧
    (d.modQu q f).tbase = d.tbase ∧ (d.modQu q f).chans = d.chans ∧ (d.modQu q f).ch = d.ch ∧
    (d.modQu q f).stoves = d.stoves ∧ (d.modQu q f).st = d.st ∧ (d.modQu q f).stagedCc = d.stagedCc ∧
    (d.modQu q f).stagedLast = d.stagedLast ∧ (d.modQu q f).hearths = d.hearths ∧ (d.modQu q f).he = d.he ∧
    (d.modQu q f).segs = d.segs ∧ (d.modQu q f).seg = d.seg ∧ (d.modQu q f).seqs = d.seqs ∧
    (d.modQu q f).sq = d.sq ∧ (d.modQu q f).acqs = d.acqs ∧ (d.modQu q f).aq = d.aq ∧ (d.modQu q f).grps = d.grps ∧
    (d.modQu q f).gr = d.gr ∧ (d.modQu q f).shadow = d.shadow ∧ (d.modQu q f).bankA = d.bankA ∧
    (d.modQu q f).bankB = d.bankB ∧ (d.modQu q f).storing = d.storing ∧ (d.modQu q f).imgTorn = d.imgTorn ∧
    (d.modQu q f).cr = d.cr ∧ (d.modQu q f).crRest = d.crRest ∧ (d.modQu q f).cals = d.cals ∧
    (d.modQu q f).own = d.own ∧ (d.modQu q f).grantDue = d.grantDue ∧ (d.modQu q f).ownChecked = d.ownChecked ∧
    (d.modQu q f).ports = d.ports ∧ (d.modQu q f).port = d.port ∧ (d.modQu q f).cvs = d.cvs ∧
    (d.modQu q f).capFrac = d.capFrac ∧ (d.modQu q f).parent = d.parent ∧ (d.modQu q f).parentOf = d.parentOf ∧
    (d.modQu q f).isMember = d.isMember ∧ (d.modQu q f).portFenced = d.portFenced ∧
    (d.modQu q f).halfFenced = d.halfFenced ∧ (d.modQu q f).qmem = d.qmem ∧ (d.modQu q f).use = d.use ∧
    (d.modQu q f).routes = d.routes ∧ (d.modQu q f).srcCount = d.srcCount ∧ (d.modQu q f).held = d.held ∧
    (d.modQu q f).pd = d.pd ∧ (d.modQu q f).pdOn = d.pdOn ∧ (d.modQu q f).reports = d.reports ∧
    (d.modQu q f).conss = d.conss ∧ (d.modQu q f).cons = d.cons ∧ (d.modQu q f).flues = d.flues ∧
    (d.modQu q f).evts = d.evts ∧ (d.modQu q f).evtsCv = d.evtsCv ∧ (d.modQu q f).evi = d.evi ∧
    (d.modQu q f).evo = d.evo ∧ (d.modQu q f).fltLow = d.fltLow ∧ (d.modQu q f).flt = d.flt ∧
    (d.modQu q f).hist = d.hist ∧ (d.modQu q f).pwr = d.pwr ∧ (d.modQu q f).boot = d.boot ∧
    (d.modQu q f).isl = d.isl ∧ (d.modQu q f).ft = d.ft ∧ (d.modQu q f).olds = d.olds ∧
    (d.modQu q f).free = d.free ∧ (d.modQu q f).status = d.status ∧ (d.modQu q f).value = d.value := by
  and_intros <;> rfl

/-- What `modSeg` leaves as it is. -/
@[simp] theorem Dev.modSeg_frame (d : Dev) (g : Nat) (f : Seg → Seg) :
    (d.modSeg g f).dict = d.dict ∧ (d.modSeg g f).rdi = d.rdi ∧ (d.modSeg g f).rd = d.rd ∧
    (d.modSeg g f).rdN = d.rdN ∧ (d.modSeg g f).rdiN = d.rdiN ∧ (d.modSeg g f).flag = d.flag ∧
    (d.modSeg g f).rdp = d.rdp ∧ (d.modSeg g f).rdpN = d.rdpN ∧ (d.modSeg g f).clk = d.clk ∧
    (d.modSeg g f).tb = d.tb ∧ (d.modSeg g f).tbase = d.tbase ∧ (d.modSeg g f).chans = d.chans ∧
    (d.modSeg g f).ch = d.ch ∧ (d.modSeg g f).stoves = d.stoves ∧ (d.modSeg g f).st = d.st ∧
    (d.modSeg g f).stagedCc = d.stagedCc ∧ (d.modSeg g f).stagedLast = d.stagedLast ∧
    (d.modSeg g f).hearths = d.hearths ∧ (d.modSeg g f).he = d.he ∧ (d.modSeg g f).seqs = d.seqs ∧
    (d.modSeg g f).sq = d.sq ∧ (d.modSeg g f).acqs = d.acqs ∧ (d.modSeg g f).aq = d.aq ∧
    (d.modSeg g f).grps = d.grps ∧ (d.modSeg g f).gr = d.gr ∧ (d.modSeg g f).shadow = d.shadow ∧
    (d.modSeg g f).bankA = d.bankA ∧ (d.modSeg g f).bankB = d.bankB ∧ (d.modSeg g f).storing = d.storing ∧
    (d.modSeg g f).imgTorn = d.imgTorn ∧ (d.modSeg g f).cr = d.cr ∧ (d.modSeg g f).crRest = d.crRest ∧
    (d.modSeg g f).cals = d.cals ∧ (d.modSeg g f).own = d.own ∧ (d.modSeg g f).grantDue = d.grantDue ∧
    (d.modSeg g f).ownChecked = d.ownChecked ∧ (d.modSeg g f).ports = d.ports ∧ (d.modSeg g f).port = d.port ∧
    (d.modSeg g f).cvs = d.cvs ∧ (d.modSeg g f).capFrac = d.capFrac ∧ (d.modSeg g f).parent = d.parent ∧
    (d.modSeg g f).parentOf = d.parentOf ∧ (d.modSeg g f).isMember = d.isMember ∧
    (d.modSeg g f).portFenced = d.portFenced ∧ (d.modSeg g f).halfFenced = d.halfFenced ∧
    (d.modSeg g f).queues = d.queues ∧ (d.modSeg g f).qu = d.qu ∧ (d.modSeg g f).qmem = d.qmem ∧
    (d.modSeg g f).use = d.use ∧ (d.modSeg g f).routes = d.routes ∧ (d.modSeg g f).srcCount = d.srcCount ∧
    (d.modSeg g f).held = d.held ∧ (d.modSeg g f).pd = d.pd ∧ (d.modSeg g f).pdOn = d.pdOn ∧
    (d.modSeg g f).reports = d.reports ∧ (d.modSeg g f).conss = d.conss ∧ (d.modSeg g f).cons = d.cons ∧
    (d.modSeg g f).flues = d.flues ∧ (d.modSeg g f).evts = d.evts ∧ (d.modSeg g f).evtsCv = d.evtsCv ∧
    (d.modSeg g f).evi = d.evi ∧ (d.modSeg g f).evo = d.evo ∧ (d.modSeg g f).fltLow = d.fltLow ∧
    (d.modSeg g f).flt = d.flt ∧ (d.modSeg g f).hist = d.hist ∧ (d.modSeg g f).pwr = d.pwr ∧
    (d.modSeg g f).boot = d.boot ∧ (d.modSeg g f).isl = d.isl ∧ (d.modSeg g f).ft = d.ft ∧
    (d.modSeg g f).olds = d.olds ∧ (d.modSeg g f).free = d.free ∧ (d.modSeg g f).status = d.status ∧
    (d.modSeg g f).value = d.value := by
  and_intros <;> rfl

/-- What `modSq` leaves as it is. -/
@[simp] theorem Dev.modSq_frame (d : Dev) (u : Nat) (f : Seq → Seq) :
    (d.modSq u f).dict = d.dict ∧ (d.modSq u f).rdi = d.rdi ∧ (d.modSq u f).rd = d.rd ∧ (d.modSq u f).rdN = d.rdN ∧
    (d.modSq u f).rdiN = d.rdiN ∧ (d.modSq u f).flag = d.flag ∧ (d.modSq u f).rdp = d.rdp ∧
    (d.modSq u f).rdpN = d.rdpN ∧ (d.modSq u f).clk = d.clk ∧ (d.modSq u f).tb = d.tb ∧
    (d.modSq u f).tbase = d.tbase ∧ (d.modSq u f).chans = d.chans ∧ (d.modSq u f).ch = d.ch ∧
    (d.modSq u f).stoves = d.stoves ∧ (d.modSq u f).st = d.st ∧ (d.modSq u f).stagedCc = d.stagedCc ∧
    (d.modSq u f).stagedLast = d.stagedLast ∧ (d.modSq u f).hearths = d.hearths ∧ (d.modSq u f).he = d.he ∧
    (d.modSq u f).segs = d.segs ∧ (d.modSq u f).seg = d.seg ∧ (d.modSq u f).acqs = d.acqs ∧
    (d.modSq u f).aq = d.aq ∧ (d.modSq u f).grps = d.grps ∧ (d.modSq u f).gr = d.gr ∧
    (d.modSq u f).shadow = d.shadow ∧ (d.modSq u f).bankA = d.bankA ∧ (d.modSq u f).bankB = d.bankB ∧
    (d.modSq u f).storing = d.storing ∧ (d.modSq u f).imgTorn = d.imgTorn ∧ (d.modSq u f).cr = d.cr ∧
    (d.modSq u f).crRest = d.crRest ∧ (d.modSq u f).cals = d.cals ∧ (d.modSq u f).own = d.own ∧
    (d.modSq u f).grantDue = d.grantDue ∧ (d.modSq u f).ownChecked = d.ownChecked ∧ (d.modSq u f).ports = d.ports ∧
    (d.modSq u f).port = d.port ∧ (d.modSq u f).cvs = d.cvs ∧ (d.modSq u f).capFrac = d.capFrac ∧
    (d.modSq u f).parent = d.parent ∧ (d.modSq u f).parentOf = d.parentOf ∧ (d.modSq u f).isMember = d.isMember ∧
    (d.modSq u f).portFenced = d.portFenced ∧ (d.modSq u f).halfFenced = d.halfFenced ∧
    (d.modSq u f).queues = d.queues ∧ (d.modSq u f).qu = d.qu ∧ (d.modSq u f).qmem = d.qmem ∧
    (d.modSq u f).use = d.use ∧ (d.modSq u f).routes = d.routes ∧ (d.modSq u f).srcCount = d.srcCount ∧
    (d.modSq u f).held = d.held ∧ (d.modSq u f).pd = d.pd ∧ (d.modSq u f).pdOn = d.pdOn ∧
    (d.modSq u f).reports = d.reports ∧ (d.modSq u f).conss = d.conss ∧ (d.modSq u f).cons = d.cons ∧
    (d.modSq u f).flues = d.flues ∧ (d.modSq u f).evts = d.evts ∧ (d.modSq u f).evtsCv = d.evtsCv ∧
    (d.modSq u f).evi = d.evi ∧ (d.modSq u f).evo = d.evo ∧ (d.modSq u f).fltLow = d.fltLow ∧
    (d.modSq u f).flt = d.flt ∧ (d.modSq u f).hist = d.hist ∧ (d.modSq u f).pwr = d.pwr ∧
    (d.modSq u f).boot = d.boot ∧ (d.modSq u f).isl = d.isl ∧ (d.modSq u f).ft = d.ft ∧
    (d.modSq u f).olds = d.olds ∧ (d.modSq u f).free = d.free ∧ (d.modSq u f).status = d.status ∧
    (d.modSq u f).value = d.value := by
  and_intros <;> rfl

/-- What `modAq` leaves as it is. -/
@[simp] theorem Dev.modAq_frame (d : Dev) (u : Nat) (f : Acq → Acq) :
    (d.modAq u f).dict = d.dict ∧ (d.modAq u f).rdi = d.rdi ∧ (d.modAq u f).rd = d.rd ∧ (d.modAq u f).rdN = d.rdN ∧
    (d.modAq u f).rdiN = d.rdiN ∧ (d.modAq u f).flag = d.flag ∧ (d.modAq u f).rdp = d.rdp ∧
    (d.modAq u f).rdpN = d.rdpN ∧ (d.modAq u f).clk = d.clk ∧ (d.modAq u f).tb = d.tb ∧
    (d.modAq u f).tbase = d.tbase ∧ (d.modAq u f).chans = d.chans ∧ (d.modAq u f).ch = d.ch ∧
    (d.modAq u f).stoves = d.stoves ∧ (d.modAq u f).st = d.st ∧ (d.modAq u f).stagedCc = d.stagedCc ∧
    (d.modAq u f).stagedLast = d.stagedLast ∧ (d.modAq u f).hearths = d.hearths ∧ (d.modAq u f).he = d.he ∧
    (d.modAq u f).segs = d.segs ∧ (d.modAq u f).seg = d.seg ∧ (d.modAq u f).seqs = d.seqs ∧
    (d.modAq u f).sq = d.sq ∧ (d.modAq u f).grps = d.grps ∧ (d.modAq u f).gr = d.gr ∧
    (d.modAq u f).shadow = d.shadow ∧ (d.modAq u f).bankA = d.bankA ∧ (d.modAq u f).bankB = d.bankB ∧
    (d.modAq u f).storing = d.storing ∧ (d.modAq u f).imgTorn = d.imgTorn ∧ (d.modAq u f).cr = d.cr ∧
    (d.modAq u f).crRest = d.crRest ∧ (d.modAq u f).cals = d.cals ∧ (d.modAq u f).own = d.own ∧
    (d.modAq u f).grantDue = d.grantDue ∧ (d.modAq u f).ownChecked = d.ownChecked ∧ (d.modAq u f).ports = d.ports ∧
    (d.modAq u f).port = d.port ∧ (d.modAq u f).cvs = d.cvs ∧ (d.modAq u f).capFrac = d.capFrac ∧
    (d.modAq u f).parent = d.parent ∧ (d.modAq u f).parentOf = d.parentOf ∧ (d.modAq u f).isMember = d.isMember ∧
    (d.modAq u f).portFenced = d.portFenced ∧ (d.modAq u f).halfFenced = d.halfFenced ∧
    (d.modAq u f).queues = d.queues ∧ (d.modAq u f).qu = d.qu ∧ (d.modAq u f).qmem = d.qmem ∧
    (d.modAq u f).use = d.use ∧ (d.modAq u f).routes = d.routes ∧ (d.modAq u f).srcCount = d.srcCount ∧
    (d.modAq u f).held = d.held ∧ (d.modAq u f).pd = d.pd ∧ (d.modAq u f).pdOn = d.pdOn ∧
    (d.modAq u f).reports = d.reports ∧ (d.modAq u f).conss = d.conss ∧ (d.modAq u f).cons = d.cons ∧
    (d.modAq u f).flues = d.flues ∧ (d.modAq u f).evts = d.evts ∧ (d.modAq u f).evtsCv = d.evtsCv ∧
    (d.modAq u f).evi = d.evi ∧ (d.modAq u f).evo = d.evo ∧ (d.modAq u f).fltLow = d.fltLow ∧
    (d.modAq u f).flt = d.flt ∧ (d.modAq u f).hist = d.hist ∧ (d.modAq u f).pwr = d.pwr ∧
    (d.modAq u f).boot = d.boot ∧ (d.modAq u f).isl = d.isl ∧ (d.modAq u f).ft = d.ft ∧
    (d.modAq u f).olds = d.olds ∧ (d.modAq u f).free = d.free ∧ (d.modAq u f).status = d.status ∧
    (d.modAq u f).value = d.value := by
  and_intros <;> rfl

/-- What `modPort` leaves as it is. -/
@[simp] theorem Dev.modPort_frame (d : Dev) (n : Nat) (f : Port → Port) :
    (d.modPort n f).dict = d.dict ∧ (d.modPort n f).rdi = d.rdi ∧ (d.modPort n f).rd = d.rd ∧
    (d.modPort n f).rdN = d.rdN ∧ (d.modPort n f).rdiN = d.rdiN ∧ (d.modPort n f).flag = d.flag ∧
    (d.modPort n f).rdp = d.rdp ∧ (d.modPort n f).rdpN = d.rdpN ∧ (d.modPort n f).clk = d.clk ∧
    (d.modPort n f).tb = d.tb ∧ (d.modPort n f).tbase = d.tbase ∧ (d.modPort n f).chans = d.chans ∧
    (d.modPort n f).ch = d.ch ∧ (d.modPort n f).stoves = d.stoves ∧ (d.modPort n f).st = d.st ∧
    (d.modPort n f).stagedCc = d.stagedCc ∧ (d.modPort n f).stagedLast = d.stagedLast ∧
    (d.modPort n f).hearths = d.hearths ∧ (d.modPort n f).he = d.he ∧ (d.modPort n f).segs = d.segs ∧
    (d.modPort n f).seg = d.seg ∧ (d.modPort n f).seqs = d.seqs ∧ (d.modPort n f).sq = d.sq ∧
    (d.modPort n f).acqs = d.acqs ∧ (d.modPort n f).aq = d.aq ∧ (d.modPort n f).grps = d.grps ∧
    (d.modPort n f).gr = d.gr ∧ (d.modPort n f).shadow = d.shadow ∧ (d.modPort n f).bankA = d.bankA ∧
    (d.modPort n f).bankB = d.bankB ∧ (d.modPort n f).storing = d.storing ∧ (d.modPort n f).imgTorn = d.imgTorn ∧
    (d.modPort n f).cr = d.cr ∧ (d.modPort n f).crRest = d.crRest ∧ (d.modPort n f).cals = d.cals ∧
    (d.modPort n f).own = d.own ∧ (d.modPort n f).grantDue = d.grantDue ∧
    (d.modPort n f).ownChecked = d.ownChecked ∧ (d.modPort n f).cvs = d.cvs ∧ (d.modPort n f).capFrac = d.capFrac ∧
    (d.modPort n f).parent = d.parent ∧ (d.modPort n f).parentOf = d.parentOf ∧
    (d.modPort n f).isMember = d.isMember ∧ (d.modPort n f).portFenced = d.portFenced ∧
    (d.modPort n f).halfFenced = d.halfFenced ∧ (d.modPort n f).queues = d.queues ∧ (d.modPort n f).qu = d.qu ∧
    (d.modPort n f).qmem = d.qmem ∧ (d.modPort n f).use = d.use ∧ (d.modPort n f).routes = d.routes ∧
    (d.modPort n f).srcCount = d.srcCount ∧ (d.modPort n f).held = d.held ∧ (d.modPort n f).pd = d.pd ∧
    (d.modPort n f).pdOn = d.pdOn ∧ (d.modPort n f).reports = d.reports ∧ (d.modPort n f).conss = d.conss ∧
    (d.modPort n f).cons = d.cons ∧ (d.modPort n f).flues = d.flues ∧ (d.modPort n f).evts = d.evts ∧
    (d.modPort n f).evtsCv = d.evtsCv ∧ (d.modPort n f).evi = d.evi ∧ (d.modPort n f).evo = d.evo ∧
    (d.modPort n f).fltLow = d.fltLow ∧ (d.modPort n f).flt = d.flt ∧ (d.modPort n f).hist = d.hist ∧
    (d.modPort n f).pwr = d.pwr ∧ (d.modPort n f).boot = d.boot ∧ (d.modPort n f).isl = d.isl ∧
    (d.modPort n f).ft = d.ft ∧ (d.modPort n f).olds = d.olds ∧ (d.modPort n f).free = d.free ∧
    (d.modPort n f).status = d.status ∧ (d.modPort n f).value = d.value := by
  and_intros <;> rfl

/-- What `modGr` leaves as it is. -/
@[simp] theorem Dev.modGr_frame (d : Dev) (g : Nat) (f : Grp → Grp) :
    (d.modGr g f).dict = d.dict ∧ (d.modGr g f).rdi = d.rdi ∧ (d.modGr g f).rd = d.rd ∧ (d.modGr g f).rdN = d.rdN ∧
    (d.modGr g f).rdiN = d.rdiN ∧ (d.modGr g f).flag = d.flag ∧ (d.modGr g f).rdp = d.rdp ∧
    (d.modGr g f).rdpN = d.rdpN ∧ (d.modGr g f).clk = d.clk ∧ (d.modGr g f).tb = d.tb ∧
    (d.modGr g f).tbase = d.tbase ∧ (d.modGr g f).chans = d.chans ∧ (d.modGr g f).ch = d.ch ∧
    (d.modGr g f).stoves = d.stoves ∧ (d.modGr g f).st = d.st ∧ (d.modGr g f).stagedCc = d.stagedCc ∧
    (d.modGr g f).stagedLast = d.stagedLast ∧ (d.modGr g f).hearths = d.hearths ∧ (d.modGr g f).he = d.he ∧
    (d.modGr g f).segs = d.segs ∧ (d.modGr g f).seg = d.seg ∧ (d.modGr g f).seqs = d.seqs ∧
    (d.modGr g f).sq = d.sq ∧ (d.modGr g f).acqs = d.acqs ∧ (d.modGr g f).aq = d.aq ∧
    (d.modGr g f).shadow = d.shadow ∧ (d.modGr g f).bankA = d.bankA ∧ (d.modGr g f).bankB = d.bankB ∧
    (d.modGr g f).storing = d.storing ∧ (d.modGr g f).imgTorn = d.imgTorn ∧ (d.modGr g f).cr = d.cr ∧
    (d.modGr g f).crRest = d.crRest ∧ (d.modGr g f).cals = d.cals ∧ (d.modGr g f).own = d.own ∧
    (d.modGr g f).grantDue = d.grantDue ∧ (d.modGr g f).ownChecked = d.ownChecked ∧ (d.modGr g f).ports = d.ports ∧
    (d.modGr g f).port = d.port ∧ (d.modGr g f).cvs = d.cvs ∧ (d.modGr g f).capFrac = d.capFrac ∧
    (d.modGr g f).parent = d.parent ∧ (d.modGr g f).parentOf = d.parentOf ∧ (d.modGr g f).isMember = d.isMember ∧
    (d.modGr g f).portFenced = d.portFenced ∧ (d.modGr g f).halfFenced = d.halfFenced ∧
    (d.modGr g f).queues = d.queues ∧ (d.modGr g f).qu = d.qu ∧ (d.modGr g f).qmem = d.qmem ∧
    (d.modGr g f).use = d.use ∧ (d.modGr g f).routes = d.routes ∧ (d.modGr g f).srcCount = d.srcCount ∧
    (d.modGr g f).held = d.held ∧ (d.modGr g f).pd = d.pd ∧ (d.modGr g f).pdOn = d.pdOn ∧
    (d.modGr g f).reports = d.reports ∧ (d.modGr g f).conss = d.conss ∧ (d.modGr g f).cons = d.cons ∧
    (d.modGr g f).flues = d.flues ∧ (d.modGr g f).evts = d.evts ∧ (d.modGr g f).evtsCv = d.evtsCv ∧
    (d.modGr g f).evi = d.evi ∧ (d.modGr g f).evo = d.evo ∧ (d.modGr g f).fltLow = d.fltLow ∧
    (d.modGr g f).flt = d.flt ∧ (d.modGr g f).hist = d.hist ∧ (d.modGr g f).pwr = d.pwr ∧
    (d.modGr g f).boot = d.boot ∧ (d.modGr g f).isl = d.isl ∧ (d.modGr g f).ft = d.ft ∧
    (d.modGr g f).olds = d.olds ∧ (d.modGr g f).free = d.free ∧ (d.modGr g f).status = d.status ∧
    (d.modGr g f).value = d.value := by
  and_intros <;> rfl

/-- What `modCons` leaves as it is. -/
@[simp] theorem Dev.modCons_frame (d : Dev) (c : Nat) (f : Cons → Cons) :
    (d.modCons c f).dict = d.dict ∧ (d.modCons c f).rdi = d.rdi ∧ (d.modCons c f).rd = d.rd ∧
    (d.modCons c f).rdN = d.rdN ∧ (d.modCons c f).rdiN = d.rdiN ∧ (d.modCons c f).flag = d.flag ∧
    (d.modCons c f).rdp = d.rdp ∧ (d.modCons c f).rdpN = d.rdpN ∧ (d.modCons c f).clk = d.clk ∧
    (d.modCons c f).tb = d.tb ∧ (d.modCons c f).tbase = d.tbase ∧ (d.modCons c f).chans = d.chans ∧
    (d.modCons c f).ch = d.ch ∧ (d.modCons c f).stoves = d.stoves ∧ (d.modCons c f).st = d.st ∧
    (d.modCons c f).stagedCc = d.stagedCc ∧ (d.modCons c f).stagedLast = d.stagedLast ∧
    (d.modCons c f).hearths = d.hearths ∧ (d.modCons c f).he = d.he ∧ (d.modCons c f).segs = d.segs ∧
    (d.modCons c f).seg = d.seg ∧ (d.modCons c f).seqs = d.seqs ∧ (d.modCons c f).sq = d.sq ∧
    (d.modCons c f).acqs = d.acqs ∧ (d.modCons c f).aq = d.aq ∧ (d.modCons c f).grps = d.grps ∧
    (d.modCons c f).gr = d.gr ∧ (d.modCons c f).shadow = d.shadow ∧ (d.modCons c f).bankA = d.bankA ∧
    (d.modCons c f).bankB = d.bankB ∧ (d.modCons c f).storing = d.storing ∧ (d.modCons c f).imgTorn = d.imgTorn ∧
    (d.modCons c f).cr = d.cr ∧ (d.modCons c f).crRest = d.crRest ∧ (d.modCons c f).cals = d.cals ∧
    (d.modCons c f).own = d.own ∧ (d.modCons c f).grantDue = d.grantDue ∧
    (d.modCons c f).ownChecked = d.ownChecked ∧ (d.modCons c f).ports = d.ports ∧ (d.modCons c f).port = d.port ∧
    (d.modCons c f).cvs = d.cvs ∧ (d.modCons c f).capFrac = d.capFrac ∧ (d.modCons c f).parent = d.parent ∧
    (d.modCons c f).parentOf = d.parentOf ∧ (d.modCons c f).isMember = d.isMember ∧
    (d.modCons c f).portFenced = d.portFenced ∧ (d.modCons c f).halfFenced = d.halfFenced ∧
    (d.modCons c f).queues = d.queues ∧ (d.modCons c f).qu = d.qu ∧ (d.modCons c f).qmem = d.qmem ∧
    (d.modCons c f).use = d.use ∧ (d.modCons c f).routes = d.routes ∧ (d.modCons c f).srcCount = d.srcCount ∧
    (d.modCons c f).held = d.held ∧ (d.modCons c f).pd = d.pd ∧ (d.modCons c f).pdOn = d.pdOn ∧
    (d.modCons c f).reports = d.reports ∧ (d.modCons c f).flues = d.flues ∧ (d.modCons c f).evts = d.evts ∧
    (d.modCons c f).evtsCv = d.evtsCv ∧ (d.modCons c f).evi = d.evi ∧ (d.modCons c f).evo = d.evo ∧
    (d.modCons c f).fltLow = d.fltLow ∧ (d.modCons c f).flt = d.flt ∧ (d.modCons c f).hist = d.hist ∧
    (d.modCons c f).pwr = d.pwr ∧ (d.modCons c f).boot = d.boot ∧ (d.modCons c f).isl = d.isl ∧
    (d.modCons c f).ft = d.ft ∧ (d.modCons c f).olds = d.olds ∧ (d.modCons c f).free = d.free ∧
    (d.modCons c f).status = d.status ∧ (d.modCons c f).value = d.value := by
  and_intros <;> rfl

/-- What `report` leaves as it is. -/
@[simp] theorem Dev.report_frame (d : Dev) (code unit detail : Nat) :
    (d.report code unit detail).dict = d.dict ∧ (d.report code unit detail).rdi = d.rdi ∧
    (d.report code unit detail).rd = d.rd ∧ (d.report code unit detail).rdN = d.rdN ∧
    (d.report code unit detail).rdiN = d.rdiN ∧ (d.report code unit detail).flag = d.flag ∧
    (d.report code unit detail).rdp = d.rdp ∧ (d.report code unit detail).rdpN = d.rdpN ∧
    (d.report code unit detail).clk = d.clk ∧ (d.report code unit detail).tb = d.tb ∧
    (d.report code unit detail).tbase = d.tbase ∧ (d.report code unit detail).chans = d.chans ∧
    (d.report code unit detail).ch = d.ch ∧ (d.report code unit detail).stoves = d.stoves ∧
    (d.report code unit detail).st = d.st ∧ (d.report code unit detail).stagedCc = d.stagedCc ∧
    (d.report code unit detail).stagedLast = d.stagedLast ∧ (d.report code unit detail).hearths = d.hearths ∧
    (d.report code unit detail).he = d.he ∧ (d.report code unit detail).segs = d.segs ∧
    (d.report code unit detail).seg = d.seg ∧ (d.report code unit detail).seqs = d.seqs ∧
    (d.report code unit detail).sq = d.sq ∧ (d.report code unit detail).acqs = d.acqs ∧
    (d.report code unit detail).aq = d.aq ∧ (d.report code unit detail).grps = d.grps ∧
    (d.report code unit detail).gr = d.gr ∧ (d.report code unit detail).shadow = d.shadow ∧
    (d.report code unit detail).bankA = d.bankA ∧ (d.report code unit detail).bankB = d.bankB ∧
    (d.report code unit detail).storing = d.storing ∧ (d.report code unit detail).imgTorn = d.imgTorn ∧
    (d.report code unit detail).cr = d.cr ∧ (d.report code unit detail).crRest = d.crRest ∧
    (d.report code unit detail).cals = d.cals ∧ (d.report code unit detail).own = d.own ∧
    (d.report code unit detail).grantDue = d.grantDue ∧ (d.report code unit detail).ownChecked = d.ownChecked ∧
    (d.report code unit detail).ports = d.ports ∧ (d.report code unit detail).port = d.port ∧
    (d.report code unit detail).cvs = d.cvs ∧ (d.report code unit detail).capFrac = d.capFrac ∧
    (d.report code unit detail).parent = d.parent ∧ (d.report code unit detail).parentOf = d.parentOf ∧
    (d.report code unit detail).isMember = d.isMember ∧ (d.report code unit detail).portFenced = d.portFenced ∧
    (d.report code unit detail).halfFenced = d.halfFenced ∧ (d.report code unit detail).queues = d.queues ∧
    (d.report code unit detail).qu = d.qu ∧ (d.report code unit detail).qmem = d.qmem ∧
    (d.report code unit detail).use = d.use ∧ (d.report code unit detail).routes = d.routes ∧
    (d.report code unit detail).srcCount = d.srcCount ∧ (d.report code unit detail).held = d.held ∧
    (d.report code unit detail).pd = d.pd ∧ (d.report code unit detail).pdOn = d.pdOn ∧
    (d.report code unit detail).conss = d.conss ∧ (d.report code unit detail).cons = d.cons ∧
    (d.report code unit detail).flues = d.flues ∧ (d.report code unit detail).evts = d.evts ∧
    (d.report code unit detail).evtsCv = d.evtsCv ∧ (d.report code unit detail).evi = d.evi ∧
    (d.report code unit detail).evo = d.evo ∧ (d.report code unit detail).fltLow = d.fltLow ∧
    (d.report code unit detail).flt = d.flt ∧ (d.report code unit detail).hist = d.hist ∧
    (d.report code unit detail).pwr = d.pwr ∧ (d.report code unit detail).boot = d.boot ∧
    (d.report code unit detail).isl = d.isl ∧ (d.report code unit detail).ft = d.ft ∧
    (d.report code unit detail).olds = d.olds ∧ (d.report code unit detail).free = d.free ∧
    (d.report code unit detail).status = d.status ∧ (d.report code unit detail).value = d.value := by
  and_intros <;> rfl

/-- What `say` leaves as it is. -/
@[simp] theorem Dev.say_frame (d : Dev) (x : Status) :
    (d.say x).dict = d.dict ∧ (d.say x).rdi = d.rdi ∧ (d.say x).rd = d.rd ∧ (d.say x).rdN = d.rdN ∧
    (d.say x).rdiN = d.rdiN ∧ (d.say x).flag = d.flag ∧ (d.say x).rdp = d.rdp ∧ (d.say x).rdpN = d.rdpN ∧
    (d.say x).clk = d.clk ∧ (d.say x).tb = d.tb ∧ (d.say x).tbase = d.tbase ∧ (d.say x).chans = d.chans ∧
    (d.say x).ch = d.ch ∧ (d.say x).stoves = d.stoves ∧ (d.say x).st = d.st ∧ (d.say x).stagedCc = d.stagedCc ∧
    (d.say x).stagedLast = d.stagedLast ∧ (d.say x).hearths = d.hearths ∧ (d.say x).he = d.he ∧
    (d.say x).segs = d.segs ∧ (d.say x).seg = d.seg ∧ (d.say x).seqs = d.seqs ∧ (d.say x).sq = d.sq ∧
    (d.say x).acqs = d.acqs ∧ (d.say x).aq = d.aq ∧ (d.say x).grps = d.grps ∧ (d.say x).gr = d.gr ∧
    (d.say x).shadow = d.shadow ∧ (d.say x).bankA = d.bankA ∧ (d.say x).bankB = d.bankB ∧
    (d.say x).storing = d.storing ∧ (d.say x).imgTorn = d.imgTorn ∧ (d.say x).cr = d.cr ∧
    (d.say x).crRest = d.crRest ∧ (d.say x).cals = d.cals ∧ (d.say x).own = d.own ∧
    (d.say x).grantDue = d.grantDue ∧ (d.say x).ownChecked = d.ownChecked ∧ (d.say x).ports = d.ports ∧
    (d.say x).port = d.port ∧ (d.say x).cvs = d.cvs ∧ (d.say x).capFrac = d.capFrac ∧ (d.say x).parent = d.parent ∧
    (d.say x).parentOf = d.parentOf ∧ (d.say x).isMember = d.isMember ∧ (d.say x).portFenced = d.portFenced ∧
    (d.say x).halfFenced = d.halfFenced ∧ (d.say x).queues = d.queues ∧ (d.say x).qu = d.qu ∧
    (d.say x).qmem = d.qmem ∧ (d.say x).use = d.use ∧ (d.say x).routes = d.routes ∧
    (d.say x).srcCount = d.srcCount ∧ (d.say x).held = d.held ∧ (d.say x).pd = d.pd ∧ (d.say x).pdOn = d.pdOn ∧
    (d.say x).reports = d.reports ∧ (d.say x).conss = d.conss ∧ (d.say x).cons = d.cons ∧
    (d.say x).flues = d.flues ∧ (d.say x).evts = d.evts ∧ (d.say x).evtsCv = d.evtsCv ∧ (d.say x).evi = d.evi ∧
    (d.say x).evo = d.evo ∧ (d.say x).fltLow = d.fltLow ∧ (d.say x).flt = d.flt ∧ (d.say x).hist = d.hist ∧
    (d.say x).pwr = d.pwr ∧ (d.say x).boot = d.boot ∧ (d.say x).isl = d.isl ∧ (d.say x).ft = d.ft ∧
    (d.say x).olds = d.olds ∧ (d.say x).free = d.free ∧ (d.say x).value = d.value := by
  and_intros <;> rfl

/-- What `give` leaves as it is. -/
@[simp] theorem Dev.give_frame (d : Dev) (v : Val) :
    (d.give v).dict = d.dict ∧ (d.give v).rdi = d.rdi ∧ (d.give v).rd = d.rd ∧ (d.give v).rdN = d.rdN ∧
    (d.give v).rdiN = d.rdiN ∧ (d.give v).flag = d.flag ∧ (d.give v).rdp = d.rdp ∧ (d.give v).rdpN = d.rdpN ∧
    (d.give v).clk = d.clk ∧ (d.give v).tb = d.tb ∧ (d.give v).tbase = d.tbase ∧ (d.give v).chans = d.chans ∧
    (d.give v).ch = d.ch ∧ (d.give v).stoves = d.stoves ∧ (d.give v).st = d.st ∧ (d.give v).stagedCc = d.stagedCc ∧
    (d.give v).stagedLast = d.stagedLast ∧ (d.give v).hearths = d.hearths ∧ (d.give v).he = d.he ∧
    (d.give v).segs = d.segs ∧ (d.give v).seg = d.seg ∧ (d.give v).seqs = d.seqs ∧ (d.give v).sq = d.sq ∧
    (d.give v).acqs = d.acqs ∧ (d.give v).aq = d.aq ∧ (d.give v).grps = d.grps ∧ (d.give v).gr = d.gr ∧
    (d.give v).shadow = d.shadow ∧ (d.give v).bankA = d.bankA ∧ (d.give v).bankB = d.bankB ∧
    (d.give v).storing = d.storing ∧ (d.give v).imgTorn = d.imgTorn ∧ (d.give v).cr = d.cr ∧
    (d.give v).crRest = d.crRest ∧ (d.give v).cals = d.cals ∧ (d.give v).own = d.own ∧
    (d.give v).grantDue = d.grantDue ∧ (d.give v).ownChecked = d.ownChecked ∧ (d.give v).ports = d.ports ∧
    (d.give v).port = d.port ∧ (d.give v).cvs = d.cvs ∧ (d.give v).capFrac = d.capFrac ∧
    (d.give v).parent = d.parent ∧ (d.give v).parentOf = d.parentOf ∧ (d.give v).isMember = d.isMember ∧
    (d.give v).portFenced = d.portFenced ∧ (d.give v).halfFenced = d.halfFenced ∧ (d.give v).queues = d.queues ∧
    (d.give v).qu = d.qu ∧ (d.give v).qmem = d.qmem ∧ (d.give v).use = d.use ∧ (d.give v).routes = d.routes ∧
    (d.give v).srcCount = d.srcCount ∧ (d.give v).held = d.held ∧ (d.give v).pd = d.pd ∧ (d.give v).pdOn = d.pdOn ∧
    (d.give v).reports = d.reports ∧ (d.give v).conss = d.conss ∧ (d.give v).cons = d.cons ∧
    (d.give v).flues = d.flues ∧ (d.give v).evts = d.evts ∧ (d.give v).evtsCv = d.evtsCv ∧ (d.give v).evi = d.evi ∧
    (d.give v).evo = d.evo ∧ (d.give v).fltLow = d.fltLow ∧ (d.give v).flt = d.flt ∧ (d.give v).hist = d.hist ∧
    (d.give v).pwr = d.pwr ∧ (d.give v).boot = d.boot ∧ (d.give v).isl = d.isl ∧ (d.give v).ft = d.ft ∧
    (d.give v).olds = d.olds ∧ (d.give v).free = d.free := by
  and_intros <;> rfl

/-- What `drawn` leaves as it is. -/
@[simp] theorem Dev.drawn_frame (d : Dev) :
    (d.drawn).dict = d.dict ∧ (d.drawn).rdi = d.rdi ∧ (d.drawn).rd = d.rd ∧ (d.drawn).rdN = d.rdN ∧
    (d.drawn).rdiN = d.rdiN ∧ (d.drawn).flag = d.flag ∧ (d.drawn).rdp = d.rdp ∧ (d.drawn).rdpN = d.rdpN ∧
    (d.drawn).clk = d.clk ∧ (d.drawn).tb = d.tb ∧ (d.drawn).tbase = d.tbase ∧ (d.drawn).chans = d.chans ∧
    (d.drawn).ch = d.ch ∧ (d.drawn).stoves = d.stoves ∧ (d.drawn).st = d.st ∧ (d.drawn).stagedCc = d.stagedCc ∧
    (d.drawn).stagedLast = d.stagedLast ∧ (d.drawn).hearths = d.hearths ∧ (d.drawn).he = d.he ∧
    (d.drawn).segs = d.segs ∧ (d.drawn).seg = d.seg ∧ (d.drawn).seqs = d.seqs ∧ (d.drawn).sq = d.sq ∧
    (d.drawn).acqs = d.acqs ∧ (d.drawn).aq = d.aq ∧ (d.drawn).grps = d.grps ∧ (d.drawn).gr = d.gr ∧
    (d.drawn).shadow = d.shadow ∧ (d.drawn).bankA = d.bankA ∧ (d.drawn).bankB = d.bankB ∧
    (d.drawn).storing = d.storing ∧ (d.drawn).imgTorn = d.imgTorn ∧ (d.drawn).cr = d.cr ∧
    (d.drawn).crRest = d.crRest ∧ (d.drawn).cals = d.cals ∧ (d.drawn).own = d.own ∧
    (d.drawn).grantDue = d.grantDue ∧ (d.drawn).ownChecked = d.ownChecked ∧ (d.drawn).ports = d.ports ∧
    (d.drawn).port = d.port ∧ (d.drawn).cvs = d.cvs ∧ (d.drawn).capFrac = d.capFrac ∧ (d.drawn).parent = d.parent ∧
    (d.drawn).parentOf = d.parentOf ∧ (d.drawn).isMember = d.isMember ∧ (d.drawn).portFenced = d.portFenced ∧
    (d.drawn).halfFenced = d.halfFenced ∧ (d.drawn).queues = d.queues ∧ (d.drawn).qu = d.qu ∧
    (d.drawn).qmem = d.qmem ∧ (d.drawn).use = d.use ∧ (d.drawn).routes = d.routes ∧
    (d.drawn).srcCount = d.srcCount ∧ (d.drawn).held = d.held ∧ (d.drawn).pd = d.pd ∧ (d.drawn).pdOn = d.pdOn ∧
    (d.drawn).reports = d.reports ∧ (d.drawn).conss = d.conss ∧ (d.drawn).cons = d.cons ∧
    (d.drawn).flues = d.flues ∧ (d.drawn).evts = d.evts ∧ (d.drawn).evtsCv = d.evtsCv ∧ (d.drawn).evi = d.evi ∧
    (d.drawn).evo = d.evo ∧ (d.drawn).fltLow = d.fltLow ∧ (d.drawn).flt = d.flt ∧ (d.drawn).hist = d.hist ∧
    (d.drawn).pwr = d.pwr ∧ (d.drawn).boot = d.boot ∧ (d.drawn).isl = d.isl ∧ (d.drawn).ft = d.ft ∧
    (d.drawn).olds = d.olds ∧ (d.drawn).status = d.status ∧ (d.drawn).value = d.value := by
  and_intros <;> rfl

/-! ### What an update writes is read back -/

/-- An object's value is read back. -/
@[simp] theorem Dev.rdi_wri_same (d : Dev) (o : Obj) (u i : Nat) (v : Int) : (d.wri o u i v).rdi o u i = v := by
  simp [Dev.rdi, Dev.wri]

/-- A write of one object leaves one with another key. -/
theorem Dev.rdi_wri_other (d : Dev) (o o' : Obj) (u u' i i' : Nat) (v : Int) (h : o'.key u' i' ≠ o.key u i) :
    (d.wri o u i v).rdi o' u' i' = d.rdi o' u' i' := by
  simp only [Dev.rdi, Dev.wri]
  exact SMap.get_set_other _ _ _ _ _ _ h

/-- An object's value is read back. -/
@[simp] theorem Dev.rd_wr_same (d : Dev) (o : Obj) (u : Nat) (v : Int) : (d.wr o u v).rd o u = v := by
  simp [Dev.rd, Dev.wr]

/-- A write of one object leaves one with another key. -/
theorem Dev.rd_wr_other (d : Dev) (o o' : Obj) (u u' : Nat) (v : Int) (h : o'.key u' 0 ≠ o.key u 0) :
    (d.wr o u v).rd o' u' = d.rd o' u' := Dev.rdi_wri_other d o o' u u' 0 0 v h

/-- A party's own value is read back. -/
@[simp] theorem Dev.rdp_wrp_same (d : Dev) (p : Party) (o : Obj) (u : Nat) (v : Int) : (d.wrp p o u v).rdp p o u = v := by
  simp [Dev.rdp, Dev.wrp]

/-- The channel an update of channels writes. -/
@[simp] theorem Dev.ch_setCh_same (d : Dev) (u : Nat) (c : Chan) : (d.setCh u c).ch u = c := by simp [Dev.ch, Dev.setCh]

/-- Another channel. -/
theorem Dev.ch_setCh_other (d : Dev) (u v : Nat) (c : Chan) (h : v ≠ u) : (d.setCh u c).ch v = d.ch v := by
  simp [Dev.ch, Dev.setCh, SMap.get_ins_other _ _ _ _ _ h]

/-- The channel changed. -/
@[simp] theorem Dev.ch_modCh_same (d : Dev) (u : Nat) (f : Chan → Chan) : (d.modCh u f).ch u = f (d.ch u) := by
  simp [Dev.modCh]

/-- Another channel. -/
theorem Dev.ch_modCh_other (d : Dev) (u v : Nat) (f : Chan → Chan) (h : v ≠ u) : (d.modCh u f).ch v = d.ch v := by
  simp [Dev.modCh, Dev.ch_setCh_other _ _ _ _ h]

/-- The channel whose control state is changed. -/
@[simp] theorem Dev.ch_modCtl_same (d : Dev) (u : Nat) (f : Ctl → Ctl) :
    (d.modCtl u f).ch u = { d.ch u with ctl := f (d.ch u).ctl } := by simp [Dev.modCtl]

/-- Another channel. -/
theorem Dev.ch_modCtl_other (d : Dev) (u v : Nat) (f : Ctl → Ctl) (h : v ≠ u) : (d.modCtl u f).ch v = d.ch v := by
  simp [Dev.modCtl, Dev.ch_modCh_other _ _ _ _ h]

/-- The channel whose measurement state is changed. -/
@[simp] theorem Dev.ch_modMeas_same (d : Dev) (u : Nat) (f : Meas → Meas) :
    (d.modMeas u f).ch u = { d.ch u with meas := f (d.ch u).meas } := by simp [Dev.modMeas]

/-- Another channel. -/
theorem Dev.ch_modMeas_other (d : Dev) (u v : Nat) (f : Meas → Meas) (h : v ≠ u) : (d.modMeas u f).ch v = d.ch v := by
  simp [Dev.modMeas, Dev.ch_modCh_other _ _ _ _ h]

/-- The control state of every channel where a measurement state is changed. -/
@[simp] theorem Dev.ctl_modMeas (d : Dev) (u v : Nat) (f : Meas → Meas) : ((d.modMeas u f).ch v).ctl = (d.ch v).ctl := by
  by_cases h : v = u
  · subst h; simp
  · rw [Dev.ch_modMeas_other _ _ _ _ h]

/-- The ranges of every channel where a measurement state is changed. -/
@[simp] theorem Dev.rng_modMeas (d : Dev) (u v : Nat) (f : Meas → Meas) (b : Bool) :
    ((d.modMeas u f).ch v).rng b = (d.ch v).rng b := by
  by_cases h : v = u
  · subst h; simp [Chan.rng]
  · rw [Dev.ch_modMeas_other _ _ _ _ h]

/-- The measurement state of every channel where a control state is changed. -/
@[simp] theorem Dev.meas_modCtl (d : Dev) (u v : Nat) (f : Ctl → Ctl) : ((d.modCtl u f).ch v).meas = (d.ch v).meas := by
  by_cases h : v = u
  · subst h; simp
  · rw [Dev.ch_modCtl_other _ _ _ _ h]

/-- The ranges of every channel where a control state is changed. -/
@[simp] theorem Dev.rng_modCtl (d : Dev) (u v : Nat) (f : Ctl → Ctl) (b : Bool) :
    ((d.modCtl u f).ch v).rng b = (d.ch v).rng b := by
  by_cases h : v = u
  · subst h; simp [Chan.rng]
  · rw [Dev.ch_modCtl_other _ _ _ _ h]

/-- The control and measurement state of every channel where a range is changed. -/
@[simp] theorem Dev.ctl_modRng (d : Dev) (u v : Nat) (b : Bool) (f : Rng → Rng) :
    ((d.modRng u b f).ch v).ctl = (d.ch v).ctl ∧ ((d.modRng u b f).ch v).meas = (d.ch v).meas := by
  by_cases h : v = u
  · subst h; cases b <;> simp [Dev.modRng]
  · simp [Dev.modRng, Dev.ch_modCh_other _ _ _ _ h]

/-- The range an update of ranges writes. -/
@[simp] theorem Dev.rng_modRng_same (d : Dev) (u : Nat) (b : Bool) (f : Rng → Rng) :
    ((d.modRng u b f).ch u).rng b = f ((d.ch u).rng b) := by
  cases b <;> simp [Dev.modRng, Chan.rng]

/-- The stove changed, and another one. -/
@[simp] theorem Dev.st_modSt_same (d : Dev) (k : Nat) (f : Stove → Stove) : (d.modSt k f).st k = f (d.st k) := by
  simp [Dev.st, Dev.modSt]

/-- Another stove. -/
theorem Dev.st_modSt_other (d : Dev) (k j : Nat) (f : Stove → Stove) (h : j ≠ k) :
    (d.modSt k f).st j = d.st j := by
  simp [Dev.st, Dev.modSt, SMap.get_ins_other _ _ _ _ _ h]

/-- The hearth changed, and another one. -/
@[simp] theorem Dev.he_modHe_same (d : Dev) (g : Nat) (f : Hearth → Hearth) : (d.modHe g f).he g = f (d.he g) := by
  simp [Dev.he, Dev.modHe]

/-- Another hearth. -/
theorem Dev.he_modHe_other (d : Dev) (g j : Nat) (f : Hearth → Hearth) (h : j ≠ g) :
    (d.modHe g f).he j = d.he j := by
  simp [Dev.he, Dev.modHe, SMap.get_ins_other _ _ _ _ _ h]

/-- The time base changed, and another one. -/
@[simp] theorem Dev.tbase_modTb_same (d : Dev) (t : Nat) (f : TimeBase → TimeBase) : (d.modTb t f).tbase t = f (d.tbase t) := by
  simp [Dev.tbase, Dev.modTb]

/-- Another time base. -/
theorem Dev.tbase_modTb_other (d : Dev) (t j : Nat) (f : TimeBase → TimeBase) (h : j ≠ t) :
    (d.modTb t f).tbase j = d.tbase j := by
  simp [Dev.tbase, Dev.modTb, SMap.get_ins_other _ _ _ _ _ h]

/-- The segment changed, and another one. -/
@[simp] theorem Dev.seg_modSeg_same (d : Dev) (g : Nat) (f : Seg → Seg) : (d.modSeg g f).seg g = f (d.seg g) := by
  simp [Dev.seg, Dev.modSeg]

/-- Another segment. -/
theorem Dev.seg_modSeg_other (d : Dev) (g j : Nat) (f : Seg → Seg) (h : j ≠ g) :
    (d.modSeg g f).seg j = d.seg j := by
  simp [Dev.seg, Dev.modSeg, SMap.get_ins_other _ _ _ _ _ h]

/-- The sequence engine changed, and another one. -/
@[simp] theorem Dev.sq_modSq_same (d : Dev) (u : Nat) (f : Seq → Seq) : (d.modSq u f).sq u = f (d.sq u) := by
  simp [Dev.sq, Dev.modSq]

/-- Another sequence engine. -/
theorem Dev.sq_modSq_other (d : Dev) (u j : Nat) (f : Seq → Seq) (h : j ≠ u) :
    (d.modSq u f).sq j = d.sq j := by
  simp [Dev.sq, Dev.modSq, SMap.get_ins_other _ _ _ _ _ h]

/-- The acquisition unit changed, and another one. -/
@[simp] theorem Dev.aq_modAq_same (d : Dev) (u : Nat) (f : Acq → Acq) : (d.modAq u f).aq u = f (d.aq u) := by
  simp [Dev.aq, Dev.modAq]

/-- Another acquisition unit. -/
theorem Dev.aq_modAq_other (d : Dev) (u j : Nat) (f : Acq → Acq) (h : j ≠ u) :
    (d.modAq u f).aq j = d.aq j := by
  simp [Dev.aq, Dev.modAq, SMap.get_ins_other _ _ _ _ _ h]

/-- The port changed, and another one. -/
@[simp] theorem Dev.port_modPort_same (d : Dev) (n : Nat) (f : Port → Port) : (d.modPort n f).port n = f (d.port n) := by
  simp [Dev.port, Dev.modPort]

/-- Another port. -/
theorem Dev.port_modPort_other (d : Dev) (n j : Nat) (f : Port → Port) (h : j ≠ n) :
    (d.modPort n f).port j = d.port j := by
  simp [Dev.port, Dev.modPort, SMap.get_ins_other _ _ _ _ _ h]

/-- The group changed, and another one. -/
@[simp] theorem Dev.gr_modGr_same (d : Dev) (g : Nat) (f : Grp → Grp) : (d.modGr g f).gr g = f (d.gr g) := by
  simp [Dev.gr, Dev.modGr]

/-- Another group. -/
theorem Dev.gr_modGr_other (d : Dev) (g j : Nat) (f : Grp → Grp) (h : j ≠ g) :
    (d.modGr g f).gr j = d.gr j := by
  simp [Dev.gr, Dev.modGr, SMap.get_ins_other _ _ _ _ _ h]

/-- The queue changed, and another one. -/
@[simp] theorem Dev.qu_modQu_same (d : Dev) (q : Nat) (f : Queue → Queue) : (d.modQu q f).qu q = f (d.qu q) := by
  simp [Dev.qu, Dev.modQu, Dev.setQu]

/-- Another queue. -/
theorem Dev.qu_modQu_other (d : Dev) (q j : Nat) (f : Queue → Queue) (h : j ≠ q) :
    (d.modQu q f).qu j = d.qu j := by
  simp [Dev.qu, Dev.modQu, Dev.setQu, SMap.get_ins_other _ _ _ _ _ h]

/-- The consumer input changed. -/
@[simp] theorem Dev.cons_modCons_same (d : Dev) (c : Nat) (f : Cons → Cons) : (d.modCons c f).cons c = f (d.cons c) := by
  simp [Dev.cons, Dev.modCons, SMap.upd]

/-- The queue set. -/
@[simp] theorem Dev.qu_setQu_same (d : Dev) (q : Nat) (x : Queue) : (d.setQu q x).qu q = x := by simp [Dev.qu, Dev.setQu]

/-- The status and the value of an access. -/
@[simp] theorem Dev.say_status (d : Dev) (x : Status) : (d.say x).status = x := rfl

/-- The status and the value of a read. -/
@[simp] theorem Dev.give_status (d : Dev) (v : Val) : (d.give v).status = .ok ∧ (d.give v).value = some v := ⟨rfl, rfl⟩

/-- The reports after one more. -/
@[simp] theorem Dev.report_reports (d : Dev) (code unit detail : Nat) :
    (d.report code unit detail).reports = d.reports ++ [(⟨code, unit, detail, 0⟩, (d.tbase 2).ns)] := rfl

end Sys2Proof.Machine
end

