-- ==== Sys2Proof/Laws/Events.lean ====
section
/-! SUPPORT. What raising an event, reporting a fault and watching the capacity cuts may change: the event queue, the
counts of sources, the reports in flight, the consumers' flags, and a few status objects; nothing else. -/

namespace Sys2Proof.Machine

open Sys2Proof

/-- A fold whose steps keep a view keeps it. -/
theorem foldl_keep {α β γ : Type} (g : α → γ) (f : α → β → α) (h : ∀ a b, g (f a b) = g a) (l : List β) (a : α) :
    g (l.foldl f a) = g a := by
  induction l generalizing a with
  | nil => rfl
  | cons b l ih => rw [List.foldl_cons, ih, h]

/-- The device without what an event may change: the objects, the queue of events, source counts, reports in flight and
consumer inputs. -/
def Dev.calm (d : Dev) : Dev := { d with dict := [], srcCount := [], evts := [], reports := [], conss := [] }

/-! ### Events -/

@[simp] theorem Dev.calm_raiseFlue (d : Dev) (f g : Nat) : (d.raiseFlue f g).calm = d.calm := by
  unfold Dev.raiseFlue; split <;> rfl

@[simp] theorem Dev.calm_cutLoop (d : Dev) (f c : Nat) : (d.cutLoop f c).calm = d.calm := rfl

@[simp] theorem Dev.calm_raiseC (d : Dev) (src : Nat) (c : Cause) : (d.raiseC src c).calm = d.calm := by
  unfold Dev.raiseC
  simp only []
  split
  · rfl
  · split
    · rfl
    · rw [Dev.calm_raiseFlue]; rfl

@[simp] theorem Dev.calm_raise (d : Dev) (src : Nat) : (d.raise src).calm = d.calm := Dev.calm_raiseC d src {}

@[simp] theorem Dev.calm_report (d : Dev) (a b c : Nat) : (d.report a b c).calm = d.calm := rfl

@[simp] theorem Dev.calm_wri (d : Dev) (o : Obj) (u i : Nat) (v : Int) : (d.wri o u i v).calm = d.calm := rfl

@[simp] theorem Dev.calm_wr (d : Dev) (o : Obj) (u : Nat) (v : Int) : (d.wr o u v).calm = d.calm := rfl

@[simp] theorem Dev.rdi_raiseFlue (d : Dev) (f g : Nat) : (d.raiseFlue f g).rdi = d.rdi := by
  unfold Dev.raiseFlue; split <;> rfl

/-- Raising an event leaves every ordinary object as it reads. -/
theorem Dev.rdi_raiseC (d : Dev) (src : Nat) (c : Cause) (o : Obj) (u i : Nat) (h : o.plain u i) :
    (d.raiseC src c).rdi o u i = d.rdi o u i := by
  unfold Dev.raiseC
  simp only []
  split
  · rfl
  · split
    · obtain ⟨h1, h2, h3⟩ := h
      simp only [Dev.cutLoop, Dev.report_frame, Dev.modCons_frame, Dev.bump]
      rw [show ∀ (e : Dev) (x : Int), (e.wr D.LOOPS_CUT 0 x).rdi o u i = e.rdi o u i from
        fun e x => Dev.rdi_wri_other e _ _ _ _ _ _ x h3]
      rw [show ∀ (e : Dev) (x : Int), (e.wr D.LOOP_FLUE 0 x).rdi o u i = e.rdi o u i from
        fun e x => Dev.rdi_wri_other e _ _ _ _ _ _ x h2]
      exact Dev.rdi_wri_other d _ _ _ _ _ _ _ h1
    · rw [Dev.rdi_raiseFlue]; rfl

theorem Dev.rdi_raise (d : Dev) (src : Nat) (o : Obj) (u i : Nat) (h : o.plain u i) :
    (d.raise src).rdi o u i = d.rdi o u i := Dev.rdi_raiseC d src {} o u i h

/-! ### Watching the cuts (R129) -/

@[simp] theorem Dev.calm_hsFlag (d : Dev) (h b : Nat) : (d.hsFlag h b).calm = d.calm := rfl

@[simp] theorem Dev.calm_degrade (d : Dev) (h : Nat) : (d.degrade h).calm = d.calm := by
  unfold Dev.degrade; split <;> simp

@[simp] theorem Dev.calm_undegrade (d : Dev) (h : Nat) : (d.undegrade h).calm = d.calm := by
  unfold Dev.undegrade; split <;> simp

@[simp] theorem Dev.calm_watchCuts (d : Dev) : d.watchCuts.calm = d.calm := by
  unfold Dev.watchCuts
  exact foldl_keep Dev.calm _ (fun a b => by simp) _ d

theorem Dev.rdi_degrade (d : Dev) (h : Nat) (o : Obj) (u i : Nat) (p : o.plainHs u i) :
    (d.degrade h).rdi o u i = d.rdi o u i := by
  unfold Dev.degrade
  split
  · rw [show ∀ (e : Dev) (a b c : Nat), (e.report a b c).rdi o u i = e.rdi o u i from fun _ _ _ _ => rfl]
    rw [Dev.rdi_raise _ _ _ _ _ p.1]
    exact Dev.rdi_wri_other d _ _ _ _ _ _ _ (p.2 h)
  · rfl

theorem Dev.rdi_undegrade (d : Dev) (h : Nat) (o : Obj) (u i : Nat) (p : o.plainHs u i) :
    (d.undegrade h).rdi o u i = d.rdi o u i := by
  unfold Dev.undegrade
  split
  · exact Dev.rdi_wri_other d _ _ _ _ _ _ _ (p.2 h)
  · rfl

/-- Watching the cuts leaves every ordinary object as it reads. -/
theorem Dev.rdi_watchCuts (d : Dev) (o : Obj) (u i : Nat) (p : o.plainHs u i) :
    d.watchCuts.rdi o u i = d.rdi o u i := by
  unfold Dev.watchCuts
  exact foldl_keep (fun e : Dev => e.rdi o u i) _
    (fun a b => by simp only [Dev.rdi_undegrade _ _ _ _ _ p, Dev.rdi_degrade _ _ _ _ _ p]) _ d

end Sys2Proof.Machine
end

