-- ==== Sys2Proof/Laws/Access.lean ====
section
/-! SUPPORT. What an access does: a write accepted or refused, a read, a command; and what the frame of a write is. -/

namespace Sys2Proof.Machine

open Sys2Proof

/-- A refused write changes nothing but the status. -/
theorem Dev.write_refused (d : Dev) (p : Party) (o : Obj) (u i : Nat) (v : Int) (x : Status) (eff : Dev → Dev)
    (h : d.writeStatus p o u i v x ≠ .ok) : d.write p o u i v x eff = d.say (d.writeStatus p o u i v x) := by
  unfold Dev.write
  split
  · contradiction
  · rfl

/-- An accepted write has its effect. -/
theorem Dev.write_ok (d : Dev) (p : Party) (o : Obj) (u i : Nat) (v : Int) (x : Status) (eff : Dev → Dev)
    (h : d.writeStatus p o u i v x = .ok) : d.write p o u i v x eff = (eff d).watchCuts.say .ok := by
  unfold Dev.write; rw [h]

/-- A command accepted. -/
@[simp] theorem Dev.attempt_ok (d : Dev) (eff : Dev → Dev) : d.attempt .ok eff = (eff d).say .ok := rfl

/-- A command refused. -/
theorem Dev.attempt_refused (d : Dev) (x : Status) (eff : Dev → Dev) (h : x ≠ .ok) : d.attempt x eff = d.say x := by
  unfold Dev.attempt; cases x <;> first | rfl | contradiction

/-- A view that the status and the watching of cuts do not touch is, after an accepted write, that of its effect. -/
theorem Dev.write_ok_view {γ : Type} (g : Dev → γ) (hs : ∀ e x, g (Dev.say e x) = g e) (hw : ∀ e, g (Dev.watchCuts e) = g e)
    (d : Dev) (p : Party) (o : Obj) (u i : Nat) (v : Int) (x : Status) (eff : Dev → Dev)
    (h : d.writeStatus p o u i v x = .ok) : g (d.write p o u i v x eff) = g (eff d) := by
  rw [Dev.write_ok _ _ _ _ _ _ _ _ h, hs, hw]

/-- What an accepted write reads as in the fields that no event touches. -/
theorem Dev.write_ok_calm (d : Dev) (p : Party) (o : Obj) (u i : Nat) (v : Int) (x : Status) (eff : Dev → Dev)
    (h : d.writeStatus p o u i v x = .ok) :
    (d.write p o u i v x eff).calm = { (eff d).calm with status := .ok } := by
  rw [Dev.write_ok _ _ _ _ _ _ _ _ h]
  show { (Dev.watchCuts (eff d)).calm with status := Status.ok } = _
  rw [Dev.calm_watchCuts]

/-- Watching the cuts leaves every field that no event touches. -/
@[simp] theorem Dev.watchCuts_frame (d : Dev) :
    d.watchCuts.clk = d.clk ∧ d.watchCuts.tb = d.tb ∧ d.watchCuts.chans = d.chans ∧ d.watchCuts.ch = d.ch ∧
    d.watchCuts.stoves = d.stoves ∧ d.watchCuts.st = d.st ∧ d.watchCuts.hearths = d.hearths ∧ d.watchCuts.he = d.he ∧
    d.watchCuts.segs = d.segs ∧ d.watchCuts.seg = d.seg ∧ d.watchCuts.seqs = d.seqs ∧ d.watchCuts.sq = d.sq ∧
    d.watchCuts.acqs = d.acqs ∧ d.watchCuts.aq = d.aq ∧ d.watchCuts.grps = d.grps ∧ d.watchCuts.gr = d.gr ∧
    d.watchCuts.shadow = d.shadow ∧ d.watchCuts.bankA = d.bankA ∧ d.watchCuts.bankB = d.bankB ∧
    d.watchCuts.storing = d.storing ∧ d.watchCuts.cr = d.cr ∧ d.watchCuts.cals = d.cals ∧ d.watchCuts.own = d.own ∧
    d.watchCuts.grantDue = d.grantDue ∧ d.watchCuts.ports = d.ports ∧ d.watchCuts.port = d.port ∧
    d.watchCuts.cvs = d.cvs ∧ d.watchCuts.parent = d.parent ∧ d.watchCuts.portFenced = d.portFenced ∧
    d.watchCuts.halfFenced = d.halfFenced ∧ d.watchCuts.queues = d.queues ∧ d.watchCuts.qu = d.qu ∧
    d.watchCuts.qmem = d.qmem ∧ d.watchCuts.use = d.use ∧ d.watchCuts.routes = d.routes ∧ d.watchCuts.held = d.held ∧
    d.watchCuts.pd = d.pd ∧ d.watchCuts.flues = d.flues ∧ d.watchCuts.evtsCv = d.evtsCv ∧ d.watchCuts.evi = d.evi ∧
    d.watchCuts.evo = d.evo ∧ d.watchCuts.flt = d.flt ∧ d.watchCuts.hist = d.hist ∧ d.watchCuts.pwr = d.pwr ∧
    d.watchCuts.boot = d.boot ∧ d.watchCuts.isl = d.isl ∧ d.watchCuts.ft = d.ft ∧ d.watchCuts.free = d.free ∧
    d.watchCuts.value = d.value ∧ d.watchCuts.tbase = d.tbase ∧ d.watchCuts.olds = d.olds := by
  have h := Dev.calm_watchCuts d
  have f : ∀ {γ : Type} (g : Dev → γ), g d.watchCuts.calm = g d.calm := fun g => congrArg g h
  exact ⟨f Dev.clk, f Dev.tb, f Dev.chans, f Dev.ch, f Dev.stoves, f Dev.st, f Dev.hearths, f Dev.he, f Dev.segs,
    f Dev.seg, f Dev.seqs, f Dev.sq, f Dev.acqs, f Dev.aq, f Dev.grps, f Dev.gr, f Dev.shadow, f Dev.bankA,
    f Dev.bankB, f Dev.storing, f Dev.cr, f Dev.cals, f Dev.own, f Dev.grantDue, f Dev.ports, f Dev.port,
    f Dev.cvs, f Dev.parent, f Dev.portFenced, f Dev.halfFenced, f Dev.queues, f Dev.qu, f Dev.qmem, f Dev.use,
    f Dev.routes, f Dev.held, f Dev.pd, f Dev.flues, f Dev.evtsCv, f Dev.evi, f Dev.evo, f Dev.flt, f Dev.hist,
    f Dev.pwr, f Dev.boot, f Dev.isl, f Dev.ft, f Dev.free, f Dev.value, f Dev.tbase, f Dev.olds⟩

/-- What a state's device becomes under `on`. -/
@[simp] theorem State.on_dev (s : State) (f : Dev → Dev) : (s.on f).dev = f s.dev.settle := rfl

/-- `on` leaves the memories and the queue of commands. -/
@[simp] theorem State.on_frame (s : State) (f : Dev → Dev) :
    (s.on f).wmem = s.wmem ∧ (s.on f).flash = s.flash ∧ (s.on f).pending = s.pending := ⟨rfl, rfl, rfl⟩

/-! ### The codes of R349 -/

/-- OK comes from OK alone. -/
theorem Status.first_ok (a b : Status) : Status.first a b = .ok ↔ a = .ok ∧ b = .ok := by
  unfold Status.first
  split
  · rename_i h; simp [h]
  · split
    · rename_i h1 h2; simp [h1]
    · split <;> simp [*]

/-- The first refusal of a list is OK only where every one is. -/
theorem firstOf_ok (xs : List Status) : firstOf xs = .ok ↔ ∀ x ∈ xs, x = .ok := by
  have : ∀ (l : List Status) (a : Status), l.foldl Status.first a = .ok ↔ a = .ok ∧ ∀ x ∈ l, x = .ok := by
    intro l
    induction l with
    | nil => simp
    | cons b l ih =>
      intro a
      rw [List.foldl_cons, ih, Status.first_ok]
      simp [and_assoc]
  simpa [firstOf] using this xs .ok

/-- A refusal that applies where `c` holds. -/
theorem Status.when_ok (x : Status) (c : Bool) (hx : x ≠ .ok) : x.when c = .ok ↔ c = false := by
  unfold Status.when; cases c <;> simp [hx]

/-- When a write is accepted: it is served, the object is there and may be written, the level is held, the value fits,
and neither the object's state nor its own rule refuses it. -/
theorem Dev.writeStatus_ok (d : Dev) (p : Party) (o : Obj) (u i : Nat) (v : Int) (x : Status) :
    d.writeStatus p o u i v x = .ok ↔
      d.gate p (o.index u) true = .ok ∧ o.there u i = true ∧
      (o.acc ≠ .ro ∧ o.acc ≠ .const_ ∧ hearthRo o u = false) ∧ d.levelOk p o u = .ok ∧
      (o.ty.holds v = true ∧ o.dom.accepts v = true) ∧ d.stateOk o u v = .ok ∧ x = .ok := by
  unfold Dev.writeStatus
  split
  · rename_i h
    rw [h]
    by_cases ht : o.there u i = true
    · simp only [ht, Bool.not_true, Bool.false_eq_true, if_false, firstOf_ok, List.mem_cons, List.not_mem_nil, or_false,
        forall_eq_or_imp, forall_eq, true_and]
      rw [Status.when_ok _ _ (by decide), Status.when_ok _ _ (by decide)]
      simp [and_assoc]
    · simp [ht]
  · rename_i h
    constructor
    · intro e; exact absurd e h
    · intro e; exact absurd e.1 h

end Sys2Proof.Machine
end

