-- ==== Sys2Proof/Laws/Time.lean ====
section
/-! SUPPORT. Letting time pass changes the clocks and the time bases, and nothing else of the device. -/

namespace Sys2Proof.Machine

open Sys2Proof

/-- What the passing of core cycles leaves as it is. -/
@[simp] theorem Dev.advCc_frame (d : Dev) (k : Nat) :
    (d.advCc k).dict = d.dict ∧ (d.advCc k).rdi = d.rdi ∧ (d.advCc k).rd = d.rd ∧ (d.advCc k).rdN = d.rdN ∧
    (d.advCc k).rdiN = d.rdiN ∧ (d.advCc k).flag = d.flag ∧ (d.advCc k).rdp = d.rdp ∧ (d.advCc k).rdpN = d.rdpN ∧
    (d.advCc k).chans = d.chans ∧ (d.advCc k).ch = d.ch ∧ (d.advCc k).stoves = d.stoves ∧ (d.advCc k).st = d.st ∧
    (d.advCc k).stagedCc = d.stagedCc ∧ (d.advCc k).stagedLast = d.stagedLast ∧ (d.advCc k).hearths = d.hearths ∧
    (d.advCc k).he = d.he ∧ (d.advCc k).segs = d.segs ∧ (d.advCc k).seg = d.seg ∧ (d.advCc k).seqs = d.seqs ∧
    (d.advCc k).sq = d.sq ∧ (d.advCc k).acqs = d.acqs ∧ (d.advCc k).aq = d.aq ∧ (d.advCc k).grps = d.grps ∧
    (d.advCc k).gr = d.gr ∧ (d.advCc k).shadow = d.shadow ∧ (d.advCc k).bankA = d.bankA ∧
    (d.advCc k).bankB = d.bankB ∧ (d.advCc k).storing = d.storing ∧ (d.advCc k).imgTorn = d.imgTorn ∧
    (d.advCc k).cr = d.cr ∧ (d.advCc k).crRest = d.crRest ∧ (d.advCc k).cals = d.cals ∧ (d.advCc k).own = d.own ∧
    (d.advCc k).grantDue = d.grantDue ∧ (d.advCc k).ownChecked = d.ownChecked ∧ (d.advCc k).ports = d.ports ∧
    (d.advCc k).port = d.port ∧ (d.advCc k).cvs = d.cvs ∧ (d.advCc k).capFrac = d.capFrac ∧
    (d.advCc k).parent = d.parent ∧ (d.advCc k).parentOf = d.parentOf ∧ (d.advCc k).isMember = d.isMember ∧
    (d.advCc k).portFenced = d.portFenced ∧ (d.advCc k).halfFenced = d.halfFenced ∧ (d.advCc k).queues = d.queues ∧
    (d.advCc k).qu = d.qu ∧ (d.advCc k).qmem = d.qmem ∧ (d.advCc k).use = d.use ∧ (d.advCc k).routes = d.routes ∧
    (d.advCc k).srcCount = d.srcCount ∧ (d.advCc k).held = d.held ∧ (d.advCc k).pd = d.pd ∧
    (d.advCc k).pdOn = d.pdOn ∧ (d.advCc k).reports = d.reports ∧ (d.advCc k).conss = d.conss ∧
    (d.advCc k).cons = d.cons ∧ (d.advCc k).flues = d.flues ∧ (d.advCc k).evts = d.evts ∧
    (d.advCc k).evtsCv = d.evtsCv ∧ (d.advCc k).evi = d.evi ∧ (d.advCc k).evo = d.evo ∧
    (d.advCc k).fltLow = d.fltLow ∧ (d.advCc k).flt = d.flt ∧ (d.advCc k).hist = d.hist ∧ (d.advCc k).pwr = d.pwr ∧
    (d.advCc k).boot = d.boot ∧ (d.advCc k).isl = d.isl ∧ (d.advCc k).ft = d.ft ∧ (d.advCc k).olds = d.olds ∧
    (d.advCc k).free = d.free ∧ (d.advCc k).status = d.status ∧ (d.advCc k).value = d.value := by
  unfold Dev.advCc
  split
  · and_intros <;> rfl
  · and_intros <;> rfl

theorem Dev.reach_eq (d : Dev) (t : Nat) : d.reach t = d.advCc (d.clk.ccFor (t - d.clk.tick)) := rfl

theorem Dev.reachCc_eq (d : Dev) (c : Nat) : d.reachCc c = d.advCc (c - d.clk.cc) := rfl

theorem Dev.reachSlot_eq (d : Dev) (u t : Nat) : d.reachSlot u t = d.advCc (d.clk.toSlot t (slotPos u)) := rfl

/-- The clocks after core cycles have passed. -/
theorem Dev.advCc_clk (d : Dev) (k : Nat) : (d.advCc k).clk = if k = 0 then d.clk else d.clk.adv k := by
  unfold Dev.advCc
  split
  · rfl
  · simp

end Sys2Proof.Machine
end

