-- ==== Sys2Proof/Laws/Outside.lean ====
section
/-! SUPPORT. What lies outside objects, channels, clocks and the traffic of events: the operations that leave it as it is; and
the frame of raising an event. -/

namespace Sys2Proof.Machine

open Sys2Proof

/-- What raising an event leaves as it is. -/
@[simp] theorem Dev.raiseC_frame (d : Dev) (src : Nat) (c : Cause) :
    (d.raiseC src c).clk = d.clk ∧ (d.raiseC src c).tb = d.tb ∧ (d.raiseC src c).tbase = d.tbase ∧
    (d.raiseC src c).chans = d.chans ∧ (d.raiseC src c).ch = d.ch ∧ (d.raiseC src c).stoves = d.stoves ∧
    (d.raiseC src c).st = d.st ∧ (d.raiseC src c).stagedCc = d.stagedCc ∧
    (d.raiseC src c).stagedLast = d.stagedLast ∧ (d.raiseC src c).hearths = d.hearths ∧
    (d.raiseC src c).he = d.he ∧ (d.raiseC src c).segs = d.segs ∧ (d.raiseC src c).seg = d.seg ∧
    (d.raiseC src c).seqs = d.seqs ∧ (d.raiseC src c).sq = d.sq ∧ (d.raiseC src c).acqs = d.acqs ∧
    (d.raiseC src c).aq = d.aq ∧ (d.raiseC src c).grps = d.grps ∧ (d.raiseC src c).gr = d.gr ∧
    (d.raiseC src c).shadow = d.shadow ∧ (d.raiseC src c).bankA = d.bankA ∧ (d.raiseC src c).bankB = d.bankB ∧
    (d.raiseC src c).storing = d.storing ∧ (d.raiseC src c).imgTorn = d.imgTorn ∧ (d.raiseC src c).cr = d.cr ∧
    (d.raiseC src c).crRest = d.crRest ∧ (d.raiseC src c).cals = d.cals ∧ (d.raiseC src c).own = d.own ∧
    (d.raiseC src c).grantDue = d.grantDue ∧ (d.raiseC src c).ownChecked = d.ownChecked ∧
    (d.raiseC src c).ports = d.ports ∧ (d.raiseC src c).port = d.port ∧ (d.raiseC src c).cvs = d.cvs ∧
    (d.raiseC src c).capFrac = d.capFrac ∧ (d.raiseC src c).parent = d.parent ∧
    (d.raiseC src c).parentOf = d.parentOf ∧ (d.raiseC src c).isMember = d.isMember ∧
    (d.raiseC src c).portFenced = d.portFenced ∧ (d.raiseC src c).halfFenced = d.halfFenced ∧
    (d.raiseC src c).queues = d.queues ∧ (d.raiseC src c).qu = d.qu ∧ (d.raiseC src c).qmem = d.qmem ∧
    (d.raiseC src c).use = d.use ∧ (d.raiseC src c).routes = d.routes ∧ (d.raiseC src c).held = d.held ∧
    (d.raiseC src c).pd = d.pd ∧ (d.raiseC src c).pdOn = d.pdOn ∧ (d.raiseC src c).flues = d.flues ∧
    (d.raiseC src c).evtsCv = d.evtsCv ∧ (d.raiseC src c).evi = d.evi ∧ (d.raiseC src c).evo = d.evo ∧
    (d.raiseC src c).fltLow = d.fltLow ∧ (d.raiseC src c).flt = d.flt ∧ (d.raiseC src c).hist = d.hist ∧
    (d.raiseC src c).pwr = d.pwr ∧ (d.raiseC src c).boot = d.boot ∧ (d.raiseC src c).isl = d.isl ∧
    (d.raiseC src c).ft = d.ft ∧ (d.raiseC src c).olds = d.olds ∧ (d.raiseC src c).free = d.free ∧
    (d.raiseC src c).status = d.status ∧ (d.raiseC src c).value = d.value := by
  have h := Dev.calm_raiseC d src c
  have f : ∀ {γ : Type} (g : Dev → γ), g (d.raiseC src c).calm = g d.calm := fun g => congrArg g h
  exact ⟨f Dev.clk, f Dev.tb, f Dev.tbase, f Dev.chans, f Dev.ch, f Dev.stoves, f Dev.st, f Dev.stagedCc, f Dev.stagedLast, f Dev.hearths, f Dev.he, f Dev.segs, f Dev.seg, f Dev.seqs, f Dev.sq, f Dev.acqs, f Dev.aq, f Dev.grps, f Dev.gr, f Dev.shadow, f Dev.bankA, f Dev.bankB, f Dev.storing, f Dev.imgTorn, f Dev.cr, f Dev.crRest, f Dev.cals, f Dev.own, f Dev.grantDue, f Dev.ownChecked, f Dev.ports, f Dev.port, f Dev.cvs, f Dev.capFrac, f Dev.parent, f Dev.parentOf, f Dev.isMember, f Dev.portFenced, f Dev.halfFenced, f Dev.queues, f Dev.qu, f Dev.qmem, f Dev.use, f Dev.routes, f Dev.held, f Dev.pd, f Dev.pdOn, f Dev.flues, f Dev.evtsCv, f Dev.evi, f Dev.evo, f Dev.fltLow, f Dev.flt, f Dev.hist, f Dev.pwr, f Dev.boot, f Dev.isl, f Dev.ft, f Dev.olds, f Dev.free, f Dev.status, f Dev.value⟩

/-- What raising an event leaves as it is. -/
@[simp] theorem Dev.raise_frame (d : Dev) (src : Nat) :
    (d.raise src).clk = d.clk ∧ (d.raise src).tb = d.tb ∧ (d.raise src).tbase = d.tbase ∧
    (d.raise src).chans = d.chans ∧ (d.raise src).ch = d.ch ∧ (d.raise src).stoves = d.stoves ∧
    (d.raise src).st = d.st ∧ (d.raise src).stagedCc = d.stagedCc ∧ (d.raise src).stagedLast = d.stagedLast ∧
    (d.raise src).hearths = d.hearths ∧ (d.raise src).he = d.he ∧ (d.raise src).segs = d.segs ∧
    (d.raise src).seg = d.seg ∧ (d.raise src).seqs = d.seqs ∧ (d.raise src).sq = d.sq ∧
    (d.raise src).acqs = d.acqs ∧ (d.raise src).aq = d.aq ∧ (d.raise src).grps = d.grps ∧ (d.raise src).gr = d.gr ∧
    (d.raise src).shadow = d.shadow ∧ (d.raise src).bankA = d.bankA ∧ (d.raise src).bankB = d.bankB ∧
    (d.raise src).storing = d.storing ∧ (d.raise src).imgTorn = d.imgTorn ∧ (d.raise src).cr = d.cr ∧
    (d.raise src).crRest = d.crRest ∧ (d.raise src).cals = d.cals ∧ (d.raise src).own = d.own ∧
    (d.raise src).grantDue = d.grantDue ∧ (d.raise src).ownChecked = d.ownChecked ∧ (d.raise src).ports = d.ports ∧
    (d.raise src).port = d.port ∧ (d.raise src).cvs = d.cvs ∧ (d.raise src).capFrac = d.capFrac ∧
    (d.raise src).parent = d.parent ∧ (d.raise src).parentOf = d.parentOf ∧ (d.raise src).isMember = d.isMember ∧
    (d.raise src).portFenced = d.portFenced ∧ (d.raise src).halfFenced = d.halfFenced ∧
    (d.raise src).queues = d.queues ∧ (d.raise src).qu = d.qu ∧ (d.raise src).qmem = d.qmem ∧
    (d.raise src).use = d.use ∧ (d.raise src).routes = d.routes ∧ (d.raise src).held = d.held ∧
    (d.raise src).pd = d.pd ∧ (d.raise src).pdOn = d.pdOn ∧ (d.raise src).flues = d.flues ∧
    (d.raise src).evtsCv = d.evtsCv ∧ (d.raise src).evi = d.evi ∧ (d.raise src).evo = d.evo ∧
    (d.raise src).fltLow = d.fltLow ∧ (d.raise src).flt = d.flt ∧ (d.raise src).hist = d.hist ∧
    (d.raise src).pwr = d.pwr ∧ (d.raise src).boot = d.boot ∧ (d.raise src).isl = d.isl ∧ (d.raise src).ft = d.ft ∧
    (d.raise src).olds = d.olds ∧ (d.raise src).free = d.free ∧ (d.raise src).status = d.status ∧
    (d.raise src).value = d.value := by
  have h := Dev.calm_raise d src
  have f : ∀ {γ : Type} (g : Dev → γ), g (d.raise src).calm = g d.calm := fun g => congrArg g h
  exact ⟨f Dev.clk, f Dev.tb, f Dev.tbase, f Dev.chans, f Dev.ch, f Dev.stoves, f Dev.st, f Dev.stagedCc, f Dev.stagedLast, f Dev.hearths, f Dev.he, f Dev.segs, f Dev.seg, f Dev.seqs, f Dev.sq, f Dev.acqs, f Dev.aq, f Dev.grps, f Dev.gr, f Dev.shadow, f Dev.bankA, f Dev.bankB, f Dev.storing, f Dev.imgTorn, f Dev.cr, f Dev.crRest, f Dev.cals, f Dev.own, f Dev.grantDue, f Dev.ownChecked, f Dev.ports, f Dev.port, f Dev.cvs, f Dev.capFrac, f Dev.parent, f Dev.parentOf, f Dev.isMember, f Dev.portFenced, f Dev.halfFenced, f Dev.queues, f Dev.qu, f Dev.qmem, f Dev.use, f Dev.routes, f Dev.held, f Dev.pd, f Dev.pdOn, f Dev.flues, f Dev.evtsCv, f Dev.evi, f Dev.evo, f Dev.fltLow, f Dev.flt, f Dev.hist, f Dev.pwr, f Dev.boot, f Dev.isl, f Dev.ft, f Dev.olds, f Dev.free, f Dev.status, f Dev.value⟩

theorem Dev.outside_of_calm (d e : Dev) (h : d.calm = e.calm) : d.outside = e.outside :=
  show d.calm.outside = e.calm.outside from congrArg Dev.outside h

@[simp] theorem Dev.outside_wri (d : Dev) (o : Obj) (u i : Nat) (v : Int) : (d.wri o u i v).outside = d.outside := rfl

@[simp] theorem Dev.outside_wr (d : Dev) (o : Obj) (u : Nat) (v : Int) : (d.wr o u v).outside = d.outside := rfl

@[simp] theorem Dev.outside_wrp (d : Dev) (p : Party) (o : Obj) (u : Nat) (v : Int) : (d.wrp p o u v).outside = d.outside := rfl

@[simp] theorem Dev.outside_bump (d : Dev) (o : Obj) (u w n : Nat) : (d.bump o u w n).outside = d.outside := rfl

@[simp] theorem Dev.outside_wrap (d : Dev) (o : Obj) (u w n : Nat) : (d.wrap o u w n).outside = d.outside := rfl

@[simp] theorem Dev.outside_setCh (d : Dev) (u : Nat) (c : Chan) : (d.setCh u c).outside = d.outside := rfl

@[simp] theorem Dev.outside_modCh (d : Dev) (u : Nat) (f : Chan → Chan) : (d.modCh u f).outside = d.outside := rfl

@[simp] theorem Dev.outside_modCtl (d : Dev) (u : Nat) (f : Ctl → Ctl) : (d.modCtl u f).outside = d.outside := rfl

@[simp] theorem Dev.outside_modMeas (d : Dev) (u : Nat) (f : Meas → Meas) : (d.modMeas u f).outside = d.outside := rfl

@[simp] theorem Dev.outside_modRng (d : Dev) (u : Nat) (b : Bool) (f : Rng → Rng) : (d.modRng u b f).outside = d.outside := rfl

@[simp] theorem Dev.outside_report (d : Dev) (a b c : Nat) : (d.report a b c).outside = d.outside := rfl

@[simp] theorem Dev.outside_say (d : Dev) (x : Status) : (d.say x).outside = d.outside := rfl

@[simp] theorem Dev.outside_give (d : Dev) (v : Val) : (d.give v).outside = d.outside := rfl

@[simp] theorem Dev.outside_drawn (d : Dev) : (d.drawn).outside = d.outside := rfl

@[simp] theorem Dev.outside_modCons (d : Dev) (c : Nat) (f : Cons → Cons) : (d.modCons c f).outside = d.outside := rfl

@[simp] theorem Dev.outside_modTb (d : Dev) (t : Nat) (f : TimeBase → TimeBase) : (d.modTb t f).outside = d.outside := rfl

@[simp] theorem Dev.outside_advCc (d : Dev) (k : Nat) : (d.advCc k).outside = d.outside := by
  unfold Dev.advCc; split <;> rfl

@[simp] theorem Dev.outside_raiseC (d : Dev) (src : Nat) (c : Cause) : (d.raiseC src c).outside = d.outside :=
  Dev.outside_of_calm _ _ (Dev.calm_raiseC d src c)

@[simp] theorem Dev.outside_raise (d : Dev) (src : Nat) : (d.raise src).outside = d.outside :=
  Dev.outside_of_calm _ _ (Dev.calm_raise d src)

@[simp] theorem Dev.outside_watchCuts (d : Dev) : d.watchCuts.outside = d.outside :=
  Dev.outside_of_calm _ _ (Dev.calm_watchCuts d)

end Sys2Proof.Machine
end

