-- ==== Sys2Proof/Laws/Beyond.lean ====
section
/-! SUPPORT. What no work of channels, ranges, samples, engines, acquisition units and queues touches: each of their operations
leaves it as it is. -/

namespace Sys2Proof.Machine

open Sys2Proof

set_option linter.unusedTactic false
set_option linter.unreachableTactic false
set_option linter.unnecessarySeqFocus false

@[simp] theorem Dev.beyond_foldl {β : Type} (f : Dev → β → Dev) (h : ∀ a b, (f a b).beyond = a.beyond) (l : List β) (a : Dev) :
    (l.foldl f a).beyond = a.beyond := foldl_keep Dev.beyond f h l a

@[simp] theorem Dev.beyond_advCc (d : Dev) (k : Nat) : (d.advCc k).beyond = d.beyond := by
  unfold Dev.advCc; split <;> rfl

@[simp] theorem Dev.beyond_reach (d : Dev) (t : Nat) : (d.reach t).beyond = d.beyond := Dev.beyond_advCc _ _

@[simp] theorem Dev.beyond_reachCc (d : Dev) (t : Nat) : (d.reachCc t).beyond = d.beyond := Dev.beyond_advCc _ _

@[simp] theorem Dev.beyond_reachSlot (d : Dev) (u t : Nat) : (d.reachSlot u t).beyond = d.beyond := Dev.beyond_advCc _ _

theorem Dev.beyond_of_calm (d e : Dev) (h : d.calm = e.calm) : d.beyond = e.beyond :=
  show d.calm.beyond = e.calm.beyond from congrArg Dev.beyond h

@[simp] theorem Dev.beyond_raiseC (d : Dev) (src : Nat) (c : Cause) : (d.raiseC src c).beyond = d.beyond :=
  Dev.beyond_of_calm _ _ (Dev.calm_raiseC d src c)

@[simp] theorem Dev.beyond_raise (d : Dev) (src : Nat) : (d.raise src).beyond = d.beyond :=
  Dev.beyond_of_calm _ _ (Dev.calm_raise d src)

@[simp] theorem Dev.beyond_watchCuts (d : Dev) : d.watchCuts.beyond = d.beyond :=
  Dev.beyond_of_calm _ _ (Dev.calm_watchCuts d)

@[simp] theorem Dev.beyond_say (d : Dev) (x : Status) : (d.say x).beyond = d.beyond := rfl

@[simp] theorem Dev.beyond_foldr {β : Type} (f : β → Dev → Dev) (h : ∀ a b, (f b a).beyond = a.beyond) (l : List β) (a : Dev) :
    (l.foldr f a).beyond = a.beyond := by
  induction l with
  | nil => rfl
  | cons b l ih => rw [List.foldr_cons, h, ih]

@[simp] theorem Dev.beyond_setQu (d : Dev) (q : Nat) (x : Queue) : (Dev.setQu d q x).beyond = d.beyond := by
  (unfold Dev.setQu; (try simp only []); repeat' split) <;> rfl

@[simp] theorem Dev.beyond_charge (d : Dev) (q : Nat) (c : Nat) (n : Int) : (Dev.charge d q c n).beyond = d.beyond := by
  unfold Dev.charge; (try simp only []); (repeat' split) <;> first | rfl | (simp; done)

@[simp] theorem Dev.beyond_putWord (d : Dev) (q : Queue) (p w : Nat) : (Dev.putWord d q p w).beyond = d.beyond := by
  (unfold Dev.putWord; (try simp only []); repeat' split) <;> rfl

@[simp] theorem Dev.beyond_noteVisible (d : Dev) (q before : Nat) : (Dev.noteVisible d q before).beyond = d.beyond := by
  unfold Dev.noteVisible; (try simp only []); (repeat' split) <;> first | rfl | (simp; done)

@[simp] theorem Dev.beyond_wri (d : Dev) (o : Obj) (u i : Nat) (v : Int) : (Dev.wri d o u i v).beyond = d.beyond := by
  (unfold Dev.wri; (try simp only []); repeat' split) <;> rfl

@[simp] theorem Dev.beyond_wr (d : Dev) (o : Obj) (u : Nat) (v : Int) : (Dev.wr d o u v).beyond = d.beyond := by
  unfold Dev.wr; (try simp only []); (repeat' split) <;> first | rfl | (simp; done)

@[simp] theorem Dev.beyond_bump (d : Dev) (o : Obj) (u : Nat) (w n : Nat) : (Dev.bump d o u w n).beyond = d.beyond := by
  unfold Dev.bump; (try simp only []); (repeat' split) <;> first | rfl | (simp; done)

@[simp] theorem Dev.beyond_modCons (d : Dev) (c : Nat) (f : Cons → Cons) : (Dev.modCons d c f).beyond = d.beyond := by
  (unfold Dev.modCons; (try simp only []); repeat' split) <;> rfl

@[simp] theorem Dev.beyond_report (d : Dev) (code unit detail : Nat) : (Dev.report d code unit detail).beyond = d.beyond := by
  (unfold Dev.report; (try simp only []); repeat' split) <;> rfl

@[simp] theorem Dev.beyond_cutLoop (d : Dev) (f c : Nat) : (Dev.cutLoop d f c).beyond = d.beyond := by
  unfold Dev.cutLoop; (try simp only []); (repeat' split) <;> first | (simp; done) | rfl

@[simp] theorem Dev.beyond_raiseFlue (d : Dev) (f g : Nat) : (Dev.raiseFlue d f g).beyond = d.beyond := by
  (unfold Dev.raiseFlue; (try simp only []); repeat' split) <;> rfl

@[simp] theorem Dev.beyond_raiseOn (d : Dev) (f : Nat) (c : Cause) : (Dev.raiseOn d f c).beyond = d.beyond := by
  unfold Dev.raiseOn; (try simp only []); (repeat' split) <;> first | (simp; done) | rfl

@[simp] theorem Dev.beyond_wmark (d0 : Dev) (q before : Nat) (c : Cause) : (Dev.wmark d0 q before c).beyond = d0.beyond := by
  unfold Dev.wmark; (try simp only []); (repeat' split) <;> first | (simp; done) | rfl

@[simp] theorem Dev.beyond_close (d : Dev) (q id len : Nat) : (Dev.close d q id len).beyond = d.beyond := by
  unfold Dev.close; (try simp only []); (repeat' split) <;> first | (simp; done) | rfl

@[simp] theorem Dev.beyond_fill (d : Dev) (q id off w : Nat) : (Dev.fill d q id off w).beyond = d.beyond := by
  unfold Dev.fill; (try simp only []); (repeat' split) <;> first | rfl | (simp; done)

@[simp] theorem Dev.beyond_fillAll (d : Dev) (q id off : Nat) (ws : List Nat) : (Dev.fillAll d q id off ws).beyond = d.beyond := by
  induction ws generalizing d off with
  | nil => rfl
  | cons w ws ih => rw [Dev.fillAll, ih]; simp

@[simp] theorem Dev.beyond_modAq (d : Dev) (u : Nat) (f : Acq → Acq) : (Dev.modAq d u f).beyond = d.beyond := by
  (unfold Dev.modAq; (try simp only []); repeat' split) <;> rfl

@[simp] theorem Dev.beyond_putGap (d : Dev) (q : Nat) : (Dev.putGap d q).beyond = d.beyond := by
  unfold Dev.putGap; (try simp only []); (repeat' split) <;> first | (simp; done) | rfl

@[simp] theorem Dev.beyond_wrap (d : Dev) (o : Obj) (u : Nat) (w n : Nat) : (Dev.wrap d o u w n).beyond = d.beyond := by
  unfold Dev.wrap; (try simp only []); (repeat' split) <;> first | rfl | (simp; done)

@[simp] theorem Dev.beyond_injHit (d : Dev) (real : Bool) : (Dev.injHit d real).beyond = d.beyond := by
  unfold Dev.injHit; (try simp only []); (repeat' split) <;> first | (simp; done) | rfl

@[simp] theorem Dev.beyond_modQu (d : Dev) (q : Nat) (f : Queue → Queue) : (Dev.modQu d q f).beyond = d.beyond := by
  unfold Dev.modQu; (try simp only []); (repeat' split) <;> first | rfl | (simp; done)

@[simp] theorem Dev.beyond_reportInj (d : Dev) (code unit detail inj : Nat) : (Dev.reportInj d code unit detail inj).beyond = d.beyond := by
  (unfold Dev.reportInj; (try simp only []); repeat' split) <;> rfl

@[simp] theorem Dev.beyond_qCheck (d : Dev) (q : Nat) : (Dev.qCheck d q).beyond = d.beyond := by
  unfold Dev.qCheck; (try simp only []); (repeat' split) <;> first | (simp; done) | rfl

@[simp] theorem Dev.beyond_reserve (d0 : Dev) (q c n : Nat) : (Dev.reserve d0 q c n).beyond = d0.beyond := by
  unfold Dev.reserve; (try simp only []); (repeat' split) <;> first | (simp; done) | rfl

@[simp] theorem Dev.beyond_acqReserve (d : Dev) (u : Nat) : (Dev.acqReserve d u).beyond = d.beyond := by
  unfold Dev.acqReserve; (try simp only []); (repeat' split) <;> first | (simp; done) | rfl

@[simp] theorem Dev.beyond_acqArm (d : Dev) (u : Nat) (c : Cause) : (Dev.acqArm d u c).beyond = d.beyond := by
  unfold Dev.acqArm; (try simp only []); (repeat' split) <;> first | (simp; done) | rfl

@[simp] theorem Dev.beyond_acqArmRefused (d : Dev) (u : Nat) : (Dev.acqArmRefused d u).beyond = d.beyond := by
  unfold Dev.acqArmRefused; (try simp only []); (repeat' split) <;> first | (simp; done) | rfl

@[simp] theorem Dev.beyond_modGr (d : Dev) (g : Nat) (f : Grp → Grp) : (Dev.modGr d g f).beyond = d.beyond := by
  (unfold Dev.modGr; (try simp only []); repeat' split) <;> rfl

@[simp] theorem Dev.beyond_groupArm (d : Dev) (g : Nat) (c : Cause) : (Dev.groupArm d g c).beyond = d.beyond := by
  unfold Dev.groupArm; (try simp only []); (repeat' split) <;> first | (simp; done) | rfl

@[simp] theorem Dev.beyond_unitArm (d : Dev) (u : Nat) (c : Cause) : (Dev.unitArm d u c).beyond = d.beyond := by
  unfold Dev.unitArm; (try simp only []); (repeat' split) <;> first | (simp; done) | rfl

theorem Dev.beyond_acqWrite (d : Dev) (u : Nat) (b : List Nat) : (d.acqWrite u b).1.beyond = d.beyond := by
  unfold Dev.acqWrite; dsimp only; split
  · rfl
  · simp

@[simp] theorem Dev.beyond_acqPart0 (d : Dev) (u : Nat) (last : Bool) : (Dev.acqPart0 d u last).beyond = d.beyond := by
  unfold Dev.acqPart0; simp [Dev.beyond_acqWrite]

@[simp] theorem Dev.beyond_acqPart (d : Dev) (u : Nat) (last : Bool) : (Dev.acqPart d u last).beyond = d.beyond := by
  unfold Dev.acqPart; (try simp only []); (repeat' split) <;> simp [Dev.beyond_acqWrite]

@[simp] theorem Dev.beyond_acqClose (d : Dev) (u flags : Nat) : (Dev.acqClose d u flags).beyond = d.beyond := by
  unfold Dev.acqClose; (try simp only []); (repeat' split) <;> first | rfl | (simp; done)

@[simp] theorem Dev.beyond_acqCommit (d : Dev) (u : Nat) : (Dev.acqCommit d u).beyond = d.beyond := by
  unfold Dev.acqCommit; (try simp only []); (repeat' split) <;> simp [Dev.beyond_acqWrite]

@[simp] theorem Dev.beyond_violation (d : Dev) (u idx : Nat) : (Dev.violation d u idx).beyond = d.beyond := by
  unfold Dev.violation; (try simp only []); (repeat' split) <;> first | (simp; done) | rfl

@[simp] theorem Dev.beyond_acqOpenPart (d : Dev) (u : Nat) : (Dev.acqOpenPart d u).beyond = d.beyond := by
  unfold Dev.acqOpenPart; (try simp only []); (repeat' split) <;> first | (simp; done) | rfl

@[simp] theorem Dev.beyond_acqFix (d : Dev) (u : Nat) (k : Kept) : (Dev.acqFix d u k).beyond = d.beyond := by
  unfold Dev.acqFix; (try simp only []); (repeat' split) <;> first | (simp; done) | rfl

@[simp] theorem Dev.beyond_acqPost (d : Dev) (m : Mem) (u : Nat) (k : Kept) (re : Bool) : (Dev.acqPost d m u k re).beyond = d.beyond := by
  unfold Dev.acqPost
  split
  · rfl
  · extract_lets +lift d1 stream d2 d3 a j cyc len tested bad d4
    have e1 : d1.beyond = d.beyond := by unfold d1; split <;> simp
    have e2 : d2.beyond = d.beyond := by unfold d2; split <;> simp [e1]
    have e3 : d3.beyond = d.beyond := by unfold d3; simp [e2]
    have e4 : d4.beyond = d.beyond := by unfold d4; split <;> simp [e3]
    clear_value d4
    (repeat' split) <;> simp [e4]

@[simp] theorem Dev.beyond_acqTrigger (d : Dev) (m : Mem) (u t cause unit : Nat) : (Dev.acqTrigger d m u t cause unit).beyond = d.beyond := by
  unfold Dev.acqTrigger; (try simp only []); (repeat' split) <;> first | (simp; done) | (simp [apply_ite Dev.beyond]; done) | (simp; rfl)

@[simp] theorem Dev.beyond_trigMissed (d : Dev) (u : Nat) : (Dev.trigMissed d u).beyond = d.beyond := by
  unfold Dev.trigMissed; (try simp only []); (repeat' split) <;> first | (simp; done) | rfl

@[simp] theorem Dev.beyond_groupTrig (d : Dev) (g : Nat) (t : GrpTrig) (c : Cause) : (Dev.groupTrig d g t c).beyond = d.beyond := by
  unfold Dev.groupTrig; (try simp only []); (repeat' split) <;> first | rfl | (simp; done)

@[simp] theorem Dev.beyond_found (d : Dev) (m : Mem) (u t cause : Nat) (c : Cause) : (Dev.found d m u t cause c).beyond = d.beyond := by
  unfold Dev.found; (try simp only []); (repeat' split) <;> first | (simp; done) | rfl

@[simp] theorem Dev.beyond_acqForce (d : Dev) (m : Mem) (u : Nat) : (Dev.acqForce d m u).beyond = d.beyond := by
  unfold Dev.acqForce; (try simp only []); (repeat' split) <;> first | rfl | (simp; done)

@[simp] theorem Dev.beyond_withdraw (d : Dev) (q id : Nat) : (Dev.withdraw d q id).beyond = d.beyond := by
  unfold Dev.withdraw; (try simp only []); (repeat' split) <;> first | (simp; done) | rfl

@[simp] theorem Dev.beyond_acqDisarm (d : Dev) (u : Nat) : (Dev.acqDisarm d u).beyond = d.beyond := by
  unfold Dev.acqDisarm; (try simp only []); (repeat' split) <;> first | (simp; done) | rfl

@[simp] theorem Dev.beyond_acqCut (d : Dev) (u flag : Nat) : (Dev.acqCut d u flag).beyond = d.beyond := by
  unfold Dev.acqCut; (try simp only []); (repeat' split) <;> first | (simp; done) | rfl

@[simp] theorem Dev.beyond_groupDisarm (d : Dev) (g : Nat) : (Dev.groupDisarm d g).beyond = d.beyond := by
  unfold Dev.groupDisarm; (try simp only []); (repeat' split) <;> first | (simp; done) | rfl

@[simp] theorem Dev.beyond_maskCut (d : Dev) (u : Nat) (volt : Bool) : (Dev.maskCut d u volt).beyond = d.beyond := by
  unfold Dev.maskCut; (try simp only []); (repeat' split) <;> first | rfl | (simp; done)

@[simp] theorem Dev.beyond_groupSettle (d : Dev) (g : Nat) : (Dev.groupSettle d g).beyond = d.beyond := by
  unfold Dev.groupSettle; (try simp only []); (repeat' split) <;> first | (simp; done) | rfl

@[simp] theorem Dev.beyond_acqSee (d : Dev) (u n : Nat) : (Dev.acqSee d u n).beyond = d.beyond := by
  unfold Dev.acqSee; (try simp only []); (repeat' split) <;> first | rfl | (simp; done)

@[simp] theorem Dev.beyond_modSt (d : Dev) (k : Nat) (f : Stove → Stove) : (Dev.modSt d k f).beyond = d.beyond := by
  (unfold Dev.modSt; (try simp only []); repeat' split) <;> rfl

@[simp] theorem Dev.beyond_serveStaged (d : Dev) : (Dev.serveStaged d).beyond = d.beyond := by
  unfold Dev.serveStaged
  apply Dev.beyond_foldl
  intro e b
  split
  · rfl
  · rename_i k _
    exact (show _ = (e.modSt k fun x => { x with staged := x.staged.tail }).beyond from rfl).trans (Dev.beyond_modSt e _ _)

@[simp] theorem Dev.beyond_serveFor (d : Dev) (n : Nat) : (Dev.serveFor d n).beyond = d.beyond := by
  induction n generalizing d with
  | zero => rfl
  | succ n ih => unfold Dev.serveFor; split; · rfl
                 · rw [ih]; simp

@[simp] theorem Dev.beyond_staging (d : Dev) : (Dev.staging d).beyond = d.beyond := by
  unfold Dev.staging; dsimp only; exact Dev.beyond_serveFor d _


@[simp] theorem Dev.beyond_groupForce (d : Dev) (g x : Nat) (us : List Nat) : (Dev.groupForce d g x us).beyond = d.beyond := by
  unfold Dev.groupForce; (try simp only []); (repeat' split) <;> first | (simp; done) | rfl

@[simp] theorem Dev.beyond_acqCmdEffect (d : Dev) (m : Mem) (u : Nat) (v : Int) : (Dev.acqCmdEffect d m u v).beyond = d.beyond := by
  unfold Dev.acqCmdEffect; (try simp only []); (repeat' split) <;> first | (simp; done) | rfl

@[simp] theorem Dev.beyond_hsFlag (d : Dev) (h b : Nat) : (Dev.hsFlag d h b).beyond = d.beyond := by
  unfold Dev.hsFlag; (try simp only []); (repeat' split) <;> first | rfl | (simp; done)

@[simp] theorem Dev.beyond_degrade (d : Dev) (h : Nat) : (Dev.degrade d h).beyond = d.beyond := by
  unfold Dev.degrade; (try simp only []); (repeat' split) <;> first | (simp; done) | rfl

@[simp] theorem Dev.beyond_undegrade (d : Dev) (h : Nat) : (Dev.undegrade d h).beyond = d.beyond := by
  unfold Dev.undegrade; (try simp only []); (repeat' split) <;> first | rfl | (simp; done)

@[simp] theorem Dev.beyond_modTb (d : Dev) (t : Nat) (f : TimeBase → TimeBase) : (Dev.modTb d t f).beyond = d.beyond := by
  (unfold Dev.modTb; (try simp only []); repeat' split) <;> rfl

@[simp] theorem Dev.beyond_rearmEnd (d : Dev) (u : Nat) : (Dev.rearmEnd d u).beyond = d.beyond := by
  unfold Dev.rearmEnd; (try simp only []); (repeat' split) <;> first | (simp; done) | rfl

@[simp] theorem Dev.beyond_setCh (d : Dev) (u : Nat) (c : Chan) : (Dev.setCh d u c).beyond = d.beyond := by
  (unfold Dev.setCh; (try simp only []); repeat' split) <;> rfl

@[simp] theorem Dev.beyond_modCh (d : Dev) (u : Nat) (f : Chan → Chan) : (Dev.modCh d u f).beyond = d.beyond := by
  unfold Dev.modCh; (try simp only []); (repeat' split) <;> first | rfl | (simp; done)

@[simp] theorem Dev.beyond_modMeas (d : Dev) (u : Nat) (f : Meas → Meas) : (Dev.modMeas d u f).beyond = d.beyond := by
  unfold Dev.modMeas; (try simp only []); (repeat' split) <;> first | rfl | (simp; done)

@[simp] theorem Dev.beyond_abandon (d : Dev) (u : Nat) : (Dev.abandon d u).beyond = d.beyond := by
  unfold Dev.abandon; (try simp only []); (repeat' split) <;> first | (simp; done) | rfl

@[simp] theorem Dev.beyond_dropStepAperture (d : Dev) (u : Nat) : (Dev.dropStepAperture d u).beyond = d.beyond := by
  unfold Dev.dropStepAperture; (try simp only []); (repeat' split) <;> first | (simp; done) | rfl

@[simp] theorem Dev.beyond_modSq (d : Dev) (u : Nat) (f : Seq → Seq) : (Dev.modSq d u f).beyond = d.beyond := by
  (unfold Dev.modSq; (try simp only []); repeat' split) <;> rfl

@[simp] theorem Dev.beyond_modCtl (d : Dev) (u : Nat) (f : Ctl → Ctl) : (Dev.modCtl d u f).beyond = d.beyond := by
  unfold Dev.modCtl; (try simp only []); (repeat' split) <;> first | rfl | (simp; done)

@[simp] theorem Dev.beyond_setTarget (d : Dev) (u : Nat) (x : Int) : (Dev.setTarget d u x).beyond = d.beyond := by
  unfold Dev.setTarget; simp

@[simp] theorem Dev.beyond_syncTarget (d : Dev) (u m : Nat) : (Dev.syncTarget d u m).beyond = d.beyond := by
  unfold Dev.syncTarget
  split <;> simp


@[simp] theorem Dev.beyond_seqHalt (d : Dev) (u : Nat) (st : SqState) : (Dev.seqHalt d u st).beyond = d.beyond := by
  unfold Dev.seqHalt; (try simp only []); (repeat' split) <;> first | (simp; done) | rfl

@[simp] theorem Dev.beyond_seqStop (d : Dev) (u : Nat) : (Dev.seqStop d u).beyond = d.beyond := by
  unfold Dev.seqStop; (try simp only []); (repeat' split) <;> first | rfl | (simp; done)

@[simp] theorem Dev.beyond_maskStop (d : Dev) (u : Nat) : (Dev.maskStop d u).beyond = d.beyond := by
  unfold Dev.maskStop; (try simp only []); (repeat' split) <;> first | (simp; done) | rfl

@[simp] theorem Dev.beyond_drawn (d : Dev) : (Dev.drawn d).beyond = d.beyond := by
  (unfold Dev.drawn; (try simp only []); repeat' split) <;> rfl

@[simp] theorem Dev.beyond_deliverTrig (d : Dev) (m : Mem) (t : GrpTrig) (c : Cause) (u : Nat) : (Dev.deliverTrig d m t c u).beyond = d.beyond := by
  unfold Dev.deliverTrig; (try simp only []); (repeat' split) <;> first | (simp; done) | rfl

@[simp] theorem Dev.beyond_groupDeliver (d : Dev) (m : Mem) (g : Nat) : (Dev.groupDeliver d m g).beyond = d.beyond := by
  unfold Dev.groupDeliver; (try simp only []); (repeat' split) <;> first | (simp; done) | rfl

@[simp] theorem Dev.beyond_apEnter (d : Dev) (u : Nat) (old x : ChState) : (Dev.apEnter d u old x).beyond = d.beyond := by
  unfold Dev.apEnter; (try simp only []); (repeat' split) <;> first | (simp; done) | rfl

@[simp] theorem Dev.beyond_modHe (d : Dev) (h : Nat) (f : Hearth → Hearth) : (Dev.modHe d h f).beyond = d.beyond := by
  (unfold Dev.modHe; (try simp only []); repeat' split) <;> rfl

@[simp] theorem Dev.beyond_ilUpdate (d : Dev) (u : Nat) : (Dev.ilUpdate d u).beyond = d.beyond := by
  unfold Dev.ilUpdate; (try simp only []); (repeat' split) <;> first | (simp; done) | rfl

@[simp] theorem Dev.beyond_leaveReg (d : Dev) (u : Nat) (c : Cause) : (Dev.leaveReg d u c).beyond = d.beyond := by
  unfold Dev.leaveReg; (try simp only []); (repeat' split) <;> first | (simp; done) | (simp [apply_ite Dev.beyond]; done) | (simp; rfl)

@[simp] theorem Dev.beyond_crDrop (d : Dev) (u : Nat) : (Dev.crDrop d u).beyond = d.beyond := by
  unfold Dev.crDrop; (try simp only []); (repeat' split) <;> first | (simp; done) | rfl

@[simp] theorem Dev.beyond_modRng (d : Dev) (u : Nat) (volt : Bool) (f : Rng → Rng) : (Dev.modRng d u volt f).beyond = d.beyond := by
  unfold Dev.modRng; (try simp only []); (repeat' split) <;> first | rfl | (simp; done)

@[simp] theorem Dev.beyond_rngAsk (d : Dev) (u : Nat) (volt : Bool) (j : Nat) (auto_ up : Bool) : (Dev.rngAsk d u volt j auto_ up).beyond = d.beyond := by
  unfold Dev.rngAsk; (try simp only []); (repeat' split) <;> first | (simp; done) | rfl

@[simp] theorem Dev.beyond_rangeAsk (d : Dev) (u : Nat) (volt : Bool) (j : Nat) (auto_ up : Bool) : (Dev.rangeAsk d u volt j auto_ up).beyond = d.beyond := by
  unfold Dev.rangeAsk; (try simp only []); (repeat' split) <;> first | (simp; done) | rfl

@[simp] theorem Dev.beyond_crRange (d : Dev) (u : Nat) (volt : Bool) (j : Nat) : (Dev.crRange d u volt j).beyond = d.beyond := by
  unfold Dev.crRange; (try simp only []); (repeat' split) <;> first | (simp; done) | rfl

@[simp] theorem Dev.beyond_setApRun (d : Dev) (u : Nat) (v : Int) : (Dev.setApRun d u v).beyond = d.beyond := by
  unfold Dev.setApRun; (try simp only []); (repeat' split) <;> first | (simp; done) | rfl

@[simp] theorem Dev.beyond_crRestore (d : Dev) (u : Nat) (vs : List Int) : (Dev.crRestore d u vs).beyond = d.beyond := by
  unfold Dev.crRestore; (try simp only []); (repeat' split) <;> first | (simp; done) | rfl

@[simp] theorem Dev.beyond_crSettled (d : Dev) (u : Nat) : (Dev.crSettled d u).beyond = d.beyond := by
  (unfold Dev.crSettled; (try simp only []); repeat' split) <;> rfl

@[simp] theorem Dev.beyond_crLeave (d : Dev) (st res : Nat) : (Dev.crLeave d st res).beyond = d.beyond := by
  unfold Dev.crLeave; (try simp only []); (repeat' split) <;> first | (simp; done) | (simp [apply_ite Dev.beyond]; done) | (simp; rfl)

@[simp] theorem Dev.beyond_crStateLeft (d : Dev) (u : Nat) (x : ChState) : (Dev.crStateLeft d u x).beyond = d.beyond := by
  unfold Dev.crStateLeft; (try simp only []); (repeat' split) <;> first | rfl | (simp; done)

@[simp] theorem Dev.beyond_putBack (d : Dev) (xs : List (Nat × Option Int)) : (Dev.putBack d xs).beyond = d.beyond := by
  (unfold Dev.putBack; (try simp only []); repeat' split) <;> rfl

@[simp] theorem Dev.beyond_ftEnd (d : Dev) (res : Nat) : (Dev.ftEnd d res).beyond = d.beyond := by
  unfold Dev.ftEnd
  split
  · rfl
  · dsimp only
    split
    · simp; rfl
    · split <;> simp <;> rfl

@[simp] theorem Dev.beyond_ftAbortIf (d : Dev) (c : Bool) : (Dev.ftAbortIf d c).beyond = d.beyond := by
  unfold Dev.ftAbortIf; (try simp only []); (repeat' split) <;> first | rfl | (simp; done)

@[simp] theorem Dev.beyond_injClose (d : Dev) (u : Nat) : (Dev.injClose d u).beyond = d.beyond := by
  unfold Dev.injClose; (try simp only []); (repeat' split) <;> first | (simp; done) | rfl

@[simp] theorem Dev.beyond_injEnd (d : Dev) (u st : Nat) : (Dev.injEnd d u st).beyond = d.beyond := by
  unfold Dev.injEnd; (try simp only []); (repeat' split) <;> first | (simp; done) | rfl

@[simp] theorem Dev.beyond_dropItem (d : Dev) (q : Nat) (c : Option Nat) (causes : Nat) : (Dev.dropItem d q c causes).beyond = d.beyond := by
  unfold Dev.dropItem; (try simp only []); (repeat' split) <;> first | (simp; done) | rfl

@[simp] theorem Dev.beyond_putWords (d : Dev) (q : Queue) (p : Nat) (ws : List Nat) : (Dev.putWords d q p ws).beyond = d.beyond := by
  induction ws generalizing d p with
  | nil => rfl
  | cons w ws ih => rw [Dev.putWords, ih]; simp

@[simp] theorem Dev.beyond_place (d : Dev) (q : Nat) (c : Option Nat) (ws : List Nat) : (Dev.place d q c ws).beyond = d.beyond := by
  unfold Dev.place; (try simp only []); (repeat' split) <;> first | (simp; done) | rfl

@[simp] theorem Dev.beyond_append (d0 : Dev) (q : Nat) (c : Option Nat) (ws : List Nat) (by_ : Cause) : (Dev.append d0 q c ws by_).beyond = d0.beyond := by
  unfold Dev.append; (try simp only []); (repeat' split) <;> first | (simp; done) | rfl

@[simp] theorem Dev.beyond_stage (d : Dev) (stove : Option Nat) (x : Queue) (p s : Nat) : (Dev.stage d stove x p s).beyond = d.beyond := by
  unfold Dev.stage; (try simp only []); (repeat' split) <;> first | rfl | (simp; done)

@[simp] theorem Dev.beyond_packet (d0 : Dev) (q c : Nat) (u : Option Nat) (ws : List Nat) : (Dev.packet d0 q c u ws).beyond = d0.beyond := by
  unfold Dev.packet; (try simp only []); (repeat' split) <;> first | (simp; done) | rfl

@[simp] theorem Dev.beyond_notifyPort (d : Dev) (p kind unit w1 w5 : Nat) : (Dev.notifyPort d p kind unit w1 w5).beyond = d.beyond := by
  unfold Dev.notifyPort; (try simp only []); (repeat' split) <;> first | (simp; done) | rfl

@[simp] theorem Dev.beyond_notifyOwner (d : Dev) (u kind w1 w5 : Nat) : (Dev.notifyOwner d u kind w1 w5).beyond = d.beyond := by
  unfold Dev.notifyOwner; (try simp only []); (repeat' split) <;> first | rfl | (simp; done)

@[simp] theorem Dev.beyond_setChState (d : Dev) (u : Nat) (x : ChState) : (Dev.setChState d u x).beyond = d.beyond := by
  unfold Dev.setChState; (try simp only []); (repeat' split) <;> first | (simp; done) | rfl

@[simp] theorem Dev.beyond_enter (d : Dev) (u : Nat) (x : ChState) (c : Cause) : (Dev.enter d u x c).beyond = d.beyond := by
  unfold Dev.enter; (try simp only []); (repeat' split) <;> first | (simp; done) | rfl

@[simp] theorem Dev.beyond_leavesOut (d : Dev) (h : Nat) (us : List Nat) : (Dev.leavesOut d h us).beyond = d.beyond := by
  unfold Dev.leavesOut; (try simp only []); (repeat' split) <;> first | (simp; done) | rfl

@[simp] theorem Dev.beyond_seqRaise (d : Dev) (u e : Nat) : (Dev.seqRaise d u e).beyond = d.beyond := by
  unfold Dev.seqRaise; (try simp only []); (repeat' split) <;> first | rfl | (simp; done)

@[simp] theorem Dev.beyond_seqError (d : Dev) (u e : Nat) : (Dev.seqError d u e).beyond = d.beyond := by
  unfold Dev.seqError; (try simp only []); (repeat' split) <;> first | (simp; done) | rfl

@[simp] theorem Dev.beyond_seqFail (d : Dev) (u e : Nat) : (Dev.seqFail d u e).beyond = d.beyond := by
  unfold Dev.seqFail; (try simp only []); (repeat' split) <;> first | rfl | (simp; done)

@[simp] theorem Dev.beyond_fenceCh (d : Dev) (u : Nat) (c : Cause) : (Dev.fenceCh d u c).beyond = d.beyond := by
  unfold Dev.fenceCh; (try simp only []); (repeat' split) <;> first | (simp; done) | rfl

@[simp] theorem Dev.beyond_newLeader (d : Dev) (h l : Nat) : (Dev.newLeader d h l).beyond = d.beyond := by
  unfold Dev.newLeader; (try simp only []); (repeat' split) <;> first | (simp; done) | rfl

@[simp] theorem Dev.beyond_fenceHearth (d : Dev) (h : Nat) (c : Cause) : (Dev.fenceHearth d h c).beyond = d.beyond := by
  unfold Dev.fenceHearth; (try simp only []); (repeat' split) <;> first | (simp; done) | rfl

@[simp] theorem Dev.beyond_fenceUnit (d : Dev) (u : Nat) (c : Cause) : (Dev.fenceUnit d u c).beyond = d.beyond := by
  unfold Dev.fenceUnit; (try simp only []); (repeat' split) <;> first | (simp; done) | rfl

@[simp] theorem Dev.beyond_checkMin (d : Dev) (h g was : Nat) : (Dev.checkMin d h g was).beyond = d.beyond := by
  unfold Dev.checkMin; (try simp only []); (repeat' split) <;> first | (simp; done) | rfl

@[simp] theorem Dev.beyond_leadAnew (d : Dev) (h : Nat) (o : Option Nat) : (Dev.leadAnew d h o).beyond = d.beyond := by
  unfold Dev.leadAnew; (try simp only []); (repeat' split) <;> first | rfl | (simp; done)

@[simp] theorem Dev.beyond_reshare (d : Dev) (h : Nat) : (Dev.reshare d h).beyond = d.beyond := by
  unfold Dev.reshare; (try simp only []); (repeat' split) <;> first | (simp; done) | (simp [apply_ite Dev.beyond]; done) | (simp; rfl)

@[simp] theorem Dev.beyond_rejoin (d : Dev) (u : Nat) : (Dev.rejoin d u).beyond = d.beyond := by
  unfold Dev.rejoin; (try simp only []); (repeat' split) <;> first | rfl | (simp; done)

@[simp] theorem Dev.beyond_hearthOff (d : Dev) (h : Nat) : (Dev.hearthOff d h).beyond = d.beyond := by
  unfold Dev.hearthOff; (try simp only []); (repeat' split) <;> first | (simp; done) | rfl

@[simp] theorem Dev.beyond_enterAll (d : Dev) (u : Nat) (x : ChState) (c : Cause) : (Dev.enterAll d u x c).beyond = d.beyond := by
  unfold Dev.enterAll; (try simp only []); (repeat' split) <;> first | (simp; done) | (simp [apply_ite Dev.beyond]; done) | (simp; rfl)

@[simp] theorem Dev.beyond_seqPause (d : Dev) (u : Nat) : (Dev.seqPause d u).beyond = d.beyond := by
  unfold Dev.seqPause; (try simp only []); (repeat' split) <;> first | (simp; done) | rfl

@[simp] theorem Dev.beyond_seqResume (d : Dev) (u : Nat) : (Dev.seqResume d u).beyond = d.beyond := by
  unfold Dev.seqResume; (try simp only []); (repeat' split) <;> first | rfl | (simp; done)

@[simp] theorem Dev.beyond_chDo (d : Dev) (u : Nat) (x : ChCmd) (eng : Bool) (c : Cause) : (Dev.chDo d u x eng c).beyond = d.beyond := by
  have h : (if eng then d else d.seqStop u).beyond = d.beyond := by split <;> simp
  unfold Dev.chDo
  cases x <;> dsimp only
  case calibrate =>
    have hc : ∀ (e : Dev) (xs : List SelfRun), ({ e with cals := xs } : Dev).beyond = e.beyond := fun _ _ => rfl
    rw [hc, Dev.beyond_enterAll, Dev.beyond_foldl _ (fun a b => Dev.beyond_seqStop a b), Dev.beyond_seqStop]
  case off => rw [Dev.beyond_enterAll, h]
  case monitor => rw [Dev.beyond_enterAll, h]
  case source => rw [Dev.beyond_enterAll]
  case hold => rw [Dev.beyond_enterAll, Dev.beyond_seqPause]
  case resume => rw [Dev.beyond_seqResume, Dev.beyond_enterAll]

@[simp] theorem Dev.beyond_chApply (d : Dev) (u : Nat) (x : ChCmd) (eng : Bool) (c : Cause) : (Dev.chApply d u x eng c).beyond = d.beyond := by
  unfold Dev.chApply; (try simp only []); (repeat' split) <;> first | (simp; done) | rfl

@[simp] theorem Dev.beyond_landCmd (d : Dev) (h : Nat) (x : HearthCmd) : (Dev.landCmd d h x).beyond = d.beyond := by
  unfold Dev.landCmd; (try simp only []); (repeat' split) <;> first | rfl | (simp; done)

@[simp] theorem Dev.beyond_landCmds (d : Dev) (h : Nat) : (Dev.landCmds d h).beyond = d.beyond := by
  unfold Dev.landCmds; (try simp only []); (repeat' split) <;> first | (simp; done) | rfl

@[simp] theorem Dev.beyond_settle (d : Dev) : (Dev.settle d).beyond = d.beyond := by
  unfold Dev.settle; (try simp only []); (repeat' split) <;> first | rfl | (simp; done)

@[simp] theorem Dev.beyond_dropCh (d : Dev) (u : Nat) : (Dev.dropCh d u).beyond = d.beyond := by
  unfold Dev.dropCh; (try simp only []); (repeat' split) <;> first | (simp; done) | rfl

@[simp] theorem Dev.beyond_dropStove (d : Dev) (k : Nat) : (Dev.dropStove d k).beyond = d.beyond := by
  unfold Dev.dropStove; apply Dev.beyond_foldl; intro a b; (repeat' split) <;> first | (simp; done) | rfl

@[simp] theorem Dev.beyond_holdUnit (d : Dev) (u : Nat) : (Dev.holdUnit d u).beyond = d.beyond := by
  unfold Dev.holdUnit; (try simp only []); (repeat' split) <;> first | rfl | (simp; done)

@[simp] theorem Dev.beyond_crEnd (d : Dev) (st res : Nat) : (Dev.crEnd d st res).beyond = d.beyond := by
  unfold Dev.crEnd; (try simp only []); (repeat' split) <;> first | (simp; done) | rfl

@[simp] theorem Dev.beyond_crFailOn (d : Dev) (u res : Nat) : (Dev.crFailOn d u res).beyond = d.beyond := by
  unfold Dev.crFailOn; (try simp only []); (repeat' split) <;> first | rfl | (simp; done)

@[simp] theorem Dev.beyond_endItem (d : Dev) (q : Nat) : (Dev.endItem d q).beyond = d.beyond := by
  unfold Dev.endItem; (try simp only []); (repeat' split) <;> first | (simp; done) | rfl

@[simp] theorem Dev.beyond_advanceRd (d : Dev) (q n : Nat) : (Dev.advanceRd d q n).beyond = d.beyond := by
  unfold Dev.advanceRd; (try simp only []); (repeat' split) <;> first | (simp; done) | rfl

@[simp] theorem Dev.beyond_startItem (d : Dev) (q : Nat) : (Dev.startItem d q).beyond = d.beyond := by
  unfold Dev.startItem; (try simp only []); (repeat' split) <;> first | (simp; done) | rfl

@[simp] theorem Dev.beyond_skip (d : Dev) (q : Nat) : (Dev.skip d q).beyond = d.beyond := by
  unfold Dev.skip; (try simp only []); (repeat' split) <;> first | (simp; done) | rfl

@[simp] theorem Dev.beyond_injSample (d : Dev) (u n : Nat) (target e0 x0 : Int) (miss edge : Bool) (code : Nat) : (Dev.injSample d u n target e0 x0 miss edge code).beyond = d.beyond := by
  unfold Dev.injSample; (try simp only []); (repeat' split) <;> first | (simp; done) | rfl

@[simp] theorem Dev.beyond_injMissed (d : Dev) (u n : Nat) : (Dev.injMissed d u n).beyond = d.beyond := by
  unfold Dev.injMissed; (try simp only []); (repeat' split) <;> first | (simp; done) | rfl

@[simp] theorem Dev.beyond_linear (d : Dev) (u : Nat) (target e0 : Int) : (Dev.linear d u target e0).beyond = d.beyond := by
  unfold Dev.linear; (try simp only []); (repeat' split) <;> first | rfl | (simp; done)

@[simp] theorem Dev.beyond_ilPeriod (d : Dev) (u : Nat) (il : Option (Rat2 × Nat)) : (Dev.ilPeriod d u il).beyond = d.beyond := by
  unfold Dev.ilPeriod; (try simp only []); (repeat' split) <;> first | (simp; done) | rfl

@[simp] theorem Dev.beyond_lockPeriod (d : Dev) (u t64 : Nat) (il : Option (Rat2 × Nat)) : (Dev.lockPeriod d u t64 il).beyond = d.beyond := by
  unfold Dev.lockPeriod; (try simp only []); (repeat' split) <;> first | rfl | (simp; done)

@[simp] theorem Dev.beyond_oscPeriod (d : Dev) (u t64 : Nat) : (Dev.oscPeriod d u t64).beyond = d.beyond := by
  unfold Dev.oscPeriod; (try simp only []); (repeat' split) <;> first | rfl | (simp; done)

@[simp] theorem Dev.beyond_landHigh (d : Dev) (u t64 : Nat) : (Dev.landHigh d u t64).beyond = d.beyond := by
  unfold Dev.landHigh; (try simp only []); (repeat' split) <;> first | (simp; done) | rfl

@[simp] theorem Dev.beyond_land (d : Dev) (u t64 : Nat) : (Dev.land d u t64).beyond = d.beyond := by
  unfold Dev.land; (try simp only []); (repeat' split) <;> first | (simp; done) | rfl

@[simp] theorem Dev.beyond_place_ (d : Dev) (u n t64 : Nat) (new : Sw) : (Dev.place_ d u n t64 new).beyond = d.beyond := by
  unfold Dev.place_; (try simp only []); (repeat' split) <;> first | (simp; done) | rfl

@[simp] theorem Dev.beyond_actOn (d : Dev) (u n : Nat) (x : Weighed) (x0 : Int) : (Dev.actOn d u n x x0).beyond = d.beyond := by
  unfold Dev.actOn; (try simp only []); (repeat' split) <;> first | (simp; done) | rfl

@[simp] theorem Dev.beyond_handOver (d : Dev) (u : Nat) (old new : Option Bool) : (Dev.handOver d u old new).beyond = d.beyond := by
  unfold Dev.handOver; (try simp only []); (repeat' split) <;> first | (simp; done) | rfl

@[simp] theorem Dev.beyond_decision (d : Dev) (u n : Nat) (w : Law) : (Dev.decision d u n w).beyond = d.beyond := by
  unfold Dev.decision; (try simp only []); (repeat' split) <;> first | (simp; done) | rfl

@[simp] theorem Dev.beyond_putBus (d : Dev) (u n : Nat) (w : Option Int) : (Dev.putBus d u n w).beyond = d.beyond := by
  unfold Dev.putBus; (try simp only []); (repeat' split) <;> first | rfl | (simp; done)

@[simp] theorem Dev.beyond_missed (d : Dev) (u n cause : Nat) : (Dev.missed d u n cause).beyond = d.beyond := by
  unfold Dev.missed; (try simp only []); (repeat' split) <;> first | (simp; done) | rfl

@[simp] theorem Dev.beyond_slotDecision (d : Dev) (u : Nat) : (Dev.slotDecision d u).beyond = d.beyond := by
  unfold Dev.slotDecision; (try simp only []); (repeat' split) <;> first | (simp; done) | rfl

@[simp] theorem Dev.beyond_forceIdle (d : Dev) (u : Nat) : (Dev.forceIdle d u).beyond = d.beyond := by
  unfold Dev.forceIdle; (try simp only []); (repeat' split) <;> first | (simp; done) | rfl

@[simp] theorem Dev.beyond_deferredEdge (d : Dev) (u : Nat) : (Dev.deferredEdge d u).beyond = d.beyond := by
  unfold Dev.deferredEdge; (try simp only []); (repeat' split) <;> first | (simp; done) | rfl

@[simp] theorem Dev.beyond_lockTimeout (d : Dev) (u : Nat) : (Dev.lockTimeout d u).beyond = d.beyond := by
  unfold Dev.lockTimeout; (try simp only []); (repeat' split) <;> first | (simp; done) | rfl

@[simp] theorem Dev.beyond_coefEffect (d : Dev) (o : Obj) (u : Nat) (v : Int) : (Dev.coefEffect d o u v).beyond = d.beyond := by
  unfold Dev.coefEffect; (try simp only []); (repeat' split) <;> first | (simp; done) | rfl

@[simp] theorem Dev.beyond_noteOld (d : Dev) (o : Obj) (u i : Nat) : (Dev.noteOld d o u i).beyond = d.beyond := by
  (unfold Dev.noteOld; (try simp only []); repeat' split) <;> rfl

@[simp] theorem Dev.beyond_store (d : Dev) (o : Obj) (u i : Nat) (v : Int) : (Dev.store d o u i v).beyond = d.beyond := by
  unfold Dev.store; (try simp only []); (repeat' split) <;> first | rfl | (simp; done)

@[simp] theorem Dev.beyond_storeCh (d : Dev) (o : Obj) (u i : Nat) (v : Int) : (Dev.storeCh d o u i v).beyond = d.beyond := by
  unfold Dev.storeCh; (try simp only []); (repeat' split) <;> first | rfl | (simp; done)

@[simp] theorem Dev.beyond_coefStore (d : Dev) (o : Obj) (u i : Nat) (v : Int) : (Dev.coefStore d o u i v).beyond = d.beyond := by
  unfold Dev.coefStore; (try simp only []); (repeat' split) <;> first | (simp; done) | rfl

@[simp] theorem Dev.beyond_ffAdvance (d : Dev) (u : Nat) : (Dev.ffAdvance d u).beyond = d.beyond := by
  unfold Dev.ffAdvance; (try simp only []); (repeat' split) <;> first | rfl | (simp; done)

@[simp] theorem Dev.beyond_give (d : Dev) (v : Val) : (Dev.give d v).beyond = d.beyond := by
  (unfold Dev.give; (try simp only []); repeat' split) <;> rfl

@[simp] theorem Dev.beyond_injStart (d : Dev) (u : Nat) (v : Int) : (Dev.injStart d u v).beyond = d.beyond := by
  unfold Dev.injStart; (try simp only []); (repeat' split) <;> first | (simp; done) | rfl

@[simp] theorem Dev.beyond_oscDetect (d : Dev) (u : Nat) : (Dev.oscDetect d u).beyond = d.beyond := by
  unfold Dev.oscDetect; (try simp only []); (repeat' split) <;> first | (simp; done) | rfl

@[simp] theorem Dev.beyond_lostFeedback (d : Dev) (u flag code detail : Nat) : (Dev.lostFeedback d u flag code detail).beyond = d.beyond := by
  unfold Dev.lostFeedback; (try simp only []); (repeat' split) <;> first | (simp; done) | rfl

@[simp] theorem Dev.beyond_modConv (d : Dev) (k c : Nat) (f : Conv → Conv) : (Dev.modConv d k c f).beyond = d.beyond := by
  unfold Dev.modConv; (try simp only []); (repeat' split) <;> first | rfl | (simp; done)

@[simp] theorem Dev.beyond_needSpare (d : Dev) (k r : Nat) : (Dev.needSpare d k r).beyond = d.beyond := by
  unfold Dev.needSpare; (try simp only []); (repeat' split) <;> first | (simp; done) | rfl

@[simp] theorem Dev.beyond_stuckDetect (d : Dev) (u : Nat) : (Dev.stuckDetect d u).beyond = d.beyond := by
  unfold Dev.stuckDetect; (try simp only []); (repeat' split) <;> first | (simp; done) | rfl

@[simp] theorem Dev.beyond_kelvinHalf (d : Dev) (u : Nat) : (Dev.kelvinHalf d u).beyond = d.beyond := by
  unfold Dev.kelvinHalf; (try simp only []); (repeat' split) <;> first | (simp; done) | rfl

@[simp] theorem Dev.beyond_satDetect (d : Dev) (u : Nat) : (Dev.satDetect d u).beyond = d.beyond := by
  unfold Dev.satDetect; (try simp only []); (repeat' split) <;> first | rfl | (simp; done)

@[simp] theorem Dev.beyond_injCountEnd (d : Dev) (u : Nat) : (Dev.injCountEnd d u).beyond = d.beyond := by
  unfold Dev.injCountEnd; (try simp only []); (repeat' split) <;> first | rfl | (simp; done)

@[simp] theorem Dev.beyond_modRot (d : Dev) (k : Nat) (f : Rot → Rot) : (Dev.modRot d k f).beyond = d.beyond := by
  unfold Dev.modRot; (try simp only []); (repeat' split) <;> first | rfl | (simp; done)

@[simp] theorem Dev.beyond_convPass (d : Dev) (k c : Nat) : (Dev.convPass d k c).beyond = d.beyond := by
  unfold Dev.convPass; (try simp only []); (repeat' split) <;> first | rfl | (simp; done)

@[simp] theorem Dev.beyond_convFail (d : Dev) (k c : Nat) : (Dev.convFail d k c).beyond = d.beyond := by
  unfold Dev.convFail; (try simp only []); (repeat' split) <;> first | (simp; done) | rfl

@[simp] theorem Dev.beyond_rotStart (d : Dev) (k : Nat) : (Dev.rotStart d k).beyond = d.beyond := by
  unfold Dev.rotStart; (try simp only []); (repeat' split) <;> first | (simp; done) | rfl

@[simp] theorem Dev.beyond_rotInterval (d : Dev) (k : Nat) : (Dev.rotInterval d k).beyond = d.beyond := by
  unfold Dev.rotInterval; (try simp only []); (repeat' split) <;> first | (simp; done) | rfl

@[simp] theorem Dev.beyond_rotDrop (d : Dev) (k : Nat) (next : RotPhase) : (Dev.rotDrop d k next).beyond = d.beyond := by
  unfold Dev.rotDrop; (try simp only []); (repeat' split) <;> first | (simp; done) | rfl

@[simp] theorem Dev.beyond_rotEnable (d : Dev) (k : Nat) (on : Bool) : (Dev.rotEnable d k on).beyond = d.beyond := by
  unfold Dev.rotEnable; (try simp only []); (repeat' split) <;> first | (simp; done) | rfl

@[simp] theorem Dev.beyond_spareCal (d : Dev) (k : Nat) (pass : Bool) : (Dev.spareCal d k pass).beyond = d.beyond := by
  unfold Dev.spareCal; (try simp only []); (repeat' split) <;> first | (simp; done) | rfl

@[simp] theorem Dev.beyond_rotSample (d : Dev) (u n : Nat) (cV cI : Int) (cs : Option Int) : (Dev.rotSample d u n cV cI cs).beyond = d.beyond := by
  unfold Dev.rotSample; (try simp only []); (repeat' split) <;> first | (simp; done) | rfl

@[simp] theorem Dev.beyond_rotRestart (d : Dev) (u : Nat) (volt : Bool) : (Dev.rotRestart d u volt).beyond = d.beyond := by
  unfold Dev.rotRestart; (try simp only []); (repeat' split) <;> first | rfl | (simp; done)

@[simp] theorem Dev.beyond_reportRole (d : Dev) (k r code : Nat) : (Dev.reportRole d k r code).beyond = d.beyond := by
  unfold Dev.reportRole; (try simp only []); (repeat' split) <;> first | rfl | (simp; done)

@[simp] theorem Dev.beyond_matchDone (d : Dev) (k : Nat) : (Dev.matchDone d k).beyond = d.beyond := by
  unfold Dev.matchDone; (try simp only []); (repeat' split) <;> first | (simp; done) | rfl

@[simp] theorem Dev.beyond_markSwap (d : Dev) (k r e : Nat) : (Dev.markSwap d k r e).beyond = d.beyond := by
  unfold Dev.markSwap; (try simp only []); (repeat' split) <;> first | (simp; done) | rfl

@[simp] theorem Dev.beyond_swap (d : Dev) (k : Nat) : (Dev.swap d k).beyond = d.beyond := by
  unfold Dev.swap; (try simp only []); (repeat' split) <;> first | (simp; done) | rfl

@[simp] theorem Dev.beyond_freedCal (d : Dev) (k : Nat) (pass : Bool) : (Dev.freedCal d k pass).beyond = d.beyond := by
  unfold Dev.freedCal; (try simp only []); (repeat' split) <;> first | (simp; done) | rfl

@[simp] theorem Dev.beyond_substitute (d : Dev) (k : Nat) : (Dev.substitute d k).beyond = d.beyond := by
  unfold Dev.substitute; (try simp only []); (repeat' split) <;> first | (simp; done) | rfl

@[simp] theorem Dev.beyond_feed (d : Dev) (u n : Nat) (yV yI : Int) (sV sI : Bool) : (Dev.feed d u n yV yI sV sI).beyond = d.beyond := by
  unfold Dev.feed; (try simp only []); (repeat' split) <;> first | (simp; done) | rfl

@[simp] theorem Dev.beyond_liRestart (d : Dev) (g : Nat) : (Dev.liRestart d g).beyond = d.beyond := by
  unfold Dev.liRestart; apply Dev.beyond_foldl; intro a b; (repeat' split) <;> first | (simp; done) | rfl

@[simp] theorem Dev.beyond_setSine (d : Dev) (u : Nat) (x : Option Sine) : (Dev.setSine d u x).beyond = d.beyond := by
  unfold Dev.setSine; (try simp only []); (repeat' split) <;> first | (simp; done) | rfl

@[simp] theorem Dev.beyond_publishVar (d : Dev) (u : Nat) (volt : Bool) (a : Ap) : (Dev.publishVar d u volt a).beyond = d.beyond := by
  unfold Dev.publishVar; (try simp only []); (repeat' split) <;> first | (simp; done) | rfl

@[simp] theorem Dev.beyond_applyFactors (d : Dev) (u n : Nat) : (Dev.applyFactors d u n).beyond = d.beyond := by
  unfold Dev.applyFactors; (try simp only []); (repeat' split) <;> first | (simp; done) | rfl

@[simp] theorem Dev.beyond_boundary (d : Dev) (u n : Nat) : (Dev.boundary d u n).beyond = d.beyond := by
  unfold Dev.boundary; (try simp only []); (repeat' split) <;> first | rfl | (simp; done)

@[simp] theorem Dev.beyond_publish (d : Dev) (u : Nat) (a : Ap) : (Dev.publish d u a).beyond = d.beyond := by
  unfold Dev.publish; (try simp only []); (repeat' split) <;> first | (simp; done) | rfl

@[simp] theorem Dev.beyond_stepAperture (d : Dev) (u mode len n : Nat) : (Dev.stepAperture d u mode len n).beyond = d.beyond := by
  unfold Dev.stepAperture; (try simp only []); (repeat' split) <;> first | (simp; done) | rfl

@[simp] theorem Dev.beyond_startAp (d : Dev) (u n : Nat) : (Dev.startAp d u n).beyond = d.beyond := by
  unfold Dev.startAp; (try simp only []); (repeat' split) <;> first | rfl | (simp; done)

@[simp] theorem Dev.beyond_integrate (d : Dev) (u n : Nat) (yV yI cV cI : Int) (fV fI : Nat) : (Dev.integrate d u n yV yI cV cI fV fI).beyond = d.beyond := by
  unfold Dev.integrate; (try simp only []); (repeat' split) <;> first | (simp; done) | rfl

@[simp] theorem Dev.beyond_accumulate (d : Dev) (u n : Nat) (yV yI : Int) (fsV fsI : Rat2) (swap : Bool) : (Dev.accumulate d u n yV yI fsV fsI swap).beyond = d.beyond := by
  unfold Dev.accumulate; (try simp only []); (repeat' split) <;> first | (simp; done) | rfl

@[simp] theorem Dev.beyond_arCount (d : Dev) (u : Nat) (yV yI : Int) (limV limI : Bool) : (Dev.arCount d u yV yI limV limI).beyond = d.beyond := by
  unfold Dev.arCount; (try simp only []); (repeat' split) <;> first | rfl | (simp; done)

@[simp] theorem Dev.beyond_lineEvent (d : Dev) (u : Nat) : (Dev.lineEvent d u).beyond = d.beyond := by
  unfold Dev.lineEvent; (try simp only []); (repeat' split) <;> first | rfl | (simp; done)

@[simp] theorem Dev.beyond_releaseVar (d : Dev) (u : Nat) (volt : Bool) : (Dev.releaseVar d u volt).beyond = d.beyond := by
  unfold Dev.releaseVar; (try simp only []); (repeat' split) <;> first | (simp; done) | rfl

@[simp] theorem Dev.beyond_releaseHeld (d : Dev) (u : Nat) : (Dev.releaseHeld d u).beyond = d.beyond := by
  unfold Dev.releaseHeld; (try simp only []); (repeat' split) <;> first | rfl | (simp; done)

@[simp] theorem Dev.beyond_endAperture (d : Dev) (u : Nat) : (Dev.endAperture d u).beyond = d.beyond := by
  unfold Dev.endAperture; (try simp only []); (repeat' split) <;> first | (simp; done) | rfl

@[simp] theorem Dev.beyond_closeNoLine (d : Dev) (u : Nat) (a : Ap) : (Dev.closeNoLine d u a).beyond = d.beyond := by
  unfold Dev.closeNoLine; (try simp only []); (repeat' split) <;> first | (simp; done) | rfl

@[simp] theorem Dev.beyond_lineTimeout (d : Dev) (u : Nat) : (Dev.lineTimeout d u).beyond = d.beyond := by
  unfold Dev.lineTimeout; (try simp only []); (repeat' split) <;> first | (simp; done) | rfl

@[simp] theorem Dev.beyond_modAcc (d : Dev) (u : Nat) (energy : Bool) (f : Accu → Accu) : (Dev.modAcc d u energy f).beyond = d.beyond := by
  unfold Dev.modAcc; (try simp only []); (repeat' split) <;> first | rfl | (simp; done)

@[simp] theorem Dev.beyond_modAux (d : Dev) (k : Nat) (f : Aux → Aux) : (Dev.modAux d k f).beyond = d.beyond := by
  unfold Dev.modAux; (try simp only []); (repeat' split) <;> first | rfl | (simp; done)

@[simp] theorem Dev.beyond_auxBegin (d : Dev) (k t : Nat) (c : Cause) : (Dev.auxBegin d k t c).beyond = d.beyond := by
  unfold Dev.auxBegin; (try simp only []); (repeat' split) <;> first | rfl | (simp; done)

@[simp] theorem Dev.beyond_auxStart (d : Dev) (k : Nat) (c : Cause) : (Dev.auxStart d k c).beyond = d.beyond := by
  unfold Dev.auxStart; (try simp only []); (repeat' split) <;> first | (simp; done) | rfl

@[simp] theorem Dev.beyond_auxUrgent (d : Dev) (k : Nat) (c : Cause) : (Dev.auxUrgent d k c).beyond = d.beyond := by
  unfold Dev.auxUrgent; (try simp only []); (repeat' split) <;> first | (simp; done) | rfl

@[simp] theorem Dev.beyond_auxWatch (d : Dev) (k entry code : Nat) (v : Int) : (Dev.auxWatch d k entry code v).beyond = d.beyond := by
  unfold Dev.auxWatch; (try simp only []); (repeat' split) <;> first | rfl | (simp; done)

theorem Dev.beyond_auxValue (d : Dev) (entry code : Nat) : (d.auxValue entry code).1.beyond = d.beyond := by
  unfold Dev.auxValue; (try simp only []); (repeat' split) <;> rfl

@[simp] theorem Dev.beyond_auxEnd (d : Dev) (k code : Nat) : (Dev.auxEnd d k code).beyond = d.beyond := by
  unfold Dev.auxEnd; (try simp only []); (repeat' split) <;> simp [Dev.beyond_auxValue]

@[simp] theorem Dev.beyond_urgEnd (d : Dev) (k code : Nat) : (Dev.urgEnd d k code).beyond = d.beyond := by
  unfold Dev.urgEnd; (try simp only []); (repeat' split) <;> simp [Dev.beyond_auxValue]

@[simp] theorem Dev.beyond_auxOn (d : Dev) (k : Nat) : (Dev.auxOn d k).beyond = d.beyond := by
  unfold Dev.auxOn; (try simp only []); (repeat' split) <;> first | (simp; done) | rfl

@[simp] theorem Dev.beyond_cmpCross (d : Dev) (k c : Nat) (high : Bool) : (Dev.cmpCross d k c high).beyond = d.beyond := by
  unfold Dev.cmpCross; (try simp only []); (repeat' split) <;> first | (simp; done) | rfl

@[simp] theorem Dev.beyond_readWord (d0 : Dev) (q : Nat) : (Dev.readWord d0 q).beyond = d0.beyond := by
  unfold Dev.readWord; (try simp only []); (repeat' split) <;> first | (simp; done) | rfl

@[simp] theorem Dev.beyond_releaseAll (d : Dev) (q : Nat) : (Dev.releaseAll d q).beyond = d.beyond := by
  unfold Dev.releaseAll; (try simp only []); (repeat' split) <;> first | (simp; done) | rfl

@[simp] theorem Dev.beyond_flush (d : Dev) (q : Nat) : (Dev.flush d q).beyond = d.beyond := by
  unfold Dev.flush; (try simp only []); (repeat' split) <;> first | (simp; done) | rfl

@[simp] theorem Dev.beyond_mark (d : Dev) (q : Nat) (src flue arg : Nat) (c : Cause) : (Dev.mark d q src flue arg c).beyond = d.beyond := by
  unfold Dev.mark; (try simp only []); (repeat' split) <;> first | rfl | (simp; done)

@[simp] theorem Dev.beyond_enableQ (d : Dev) (q : Nat) : (Dev.enableQ d q).beyond = d.beyond := by
  unfold Dev.enableQ; (try simp only []); (repeat' split) <;> first | rfl | (simp; done)

@[simp] theorem Dev.beyond_disableQ (d : Dev) (q : Nat) : (Dev.disableQ d q).beyond = d.beyond := by
  unfold Dev.disableQ; (try simp only []); (repeat' split) <;> first | (simp; done) | rfl

@[simp] theorem Dev.beyond_resetResv (d : Dev) (q : Nat) : (Dev.resetResv d q).beyond = d.beyond := by
  unfold Dev.resetResv; (try simp only []); (repeat' split) <;> first | (simp; done) | rfl

@[simp] theorem Dev.beyond_qPut (d : Dev) (q sub : Nat) (v : Int) : (Dev.qPut d q sub v).beyond = d.beyond := by
  unfold Dev.qPut; (try simp only []); (repeat' split) <;> first | (simp; done) | rfl

@[simp] theorem Dev.beyond_eachRng (d : Dev) (k : Nat) (f : Rng → Rng) : (Dev.eachRng d k f).beyond = d.beyond := by
  unfold Dev.eachRng; apply Dev.beyond_foldl; intro a b; (repeat' split) <;> first | (simp; done) | rfl

@[simp] theorem Dev.beyond_startTransfer (d : Dev) (k : Nat) (init : Bool) : (Dev.startTransfer d k init).beyond = d.beyond := by
  unfold Dev.startTransfer; (try simp only []); (repeat' split) <;> first | (simp; done) | rfl

@[simp] theorem Dev.beyond_stopLink (d : Dev) (k : Nat) : (Dev.stopLink d k).beyond = d.beyond := by
  unfold Dev.stopLink; (try simp only []); (repeat' split) <;> first | (simp; done) | rfl

@[simp] theorem Dev.beyond_rescaleUnit (d : Dev) (u : Nat) (volt : Bool) (a b : Rat2) : (Dev.rescaleUnit d u volt a b).beyond = d.beyond := by
  unfold Dev.rescaleUnit; (try simp only []); (repeat' split) <;> first | (simp; done) | rfl

@[simp] theorem Dev.beyond_takeRange (d : Dev) (u : Nat) (volt : Bool) (j : Nat) : (Dev.takeRange d u volt j).beyond = d.beyond := by
  unfold Dev.takeRange; (try simp only []); (repeat' split) <;> first | (simp; done) | rfl

@[simp] theorem Dev.beyond_makeLatch (d : Dev) (u : Nat) (volt : Bool) : (Dev.makeLatch d u volt).beyond = d.beyond := by
  unfold Dev.makeLatch; (try simp only []); (repeat' split) <;> first | (simp; done) | rfl

@[simp] theorem Dev.beyond_followVar (d : Dev) (h : Nat) (volt : Bool) : (Dev.followVar d h volt).beyond = d.beyond := by
  unfold Dev.followVar; (try simp only []); (repeat' split) <;> first | (simp; done) | rfl

@[simp] theorem Dev.beyond_followMade (d : Dev) (made : List Nat) (h : Nat) : (Dev.followMade d made h).beyond = d.beyond := by
  unfold Dev.followMade; (try simp only []); (repeat' split) <;> first | rfl | (simp; done)

@[simp] theorem Dev.beyond_followLeader (d : Dev) (h : Nat) : (Dev.followLeader d h).beyond = d.beyond := by
  unfold Dev.followLeader; (try simp only []); (repeat' split) <;> first | rfl | (simp; done)

@[simp] theorem Dev.beyond_autoUp (d : Dev) (u : Nat) (volt : Bool) : (Dev.autoUp d u volt).beyond = d.beyond := by
  unfold Dev.autoUp; (try simp only []); (repeat' split) <;> first | (simp; done) | rfl

@[simp] theorem Dev.beyond_autoDown (d : Dev) (u : Nat) (volt : Bool) : (Dev.autoDown d u volt).beyond = d.beyond := by
  unfold Dev.autoDown; (try simp only []); (repeat' split) <;> first | (simp; done) | rfl

@[simp] theorem Dev.beyond_transferStart (d : Dev) (k : Nat) : (Dev.transferStart d k).beyond = d.beyond := by
  unfold Dev.transferStart; (try simp only []); (repeat' split) <;> first | (simp; done) | rfl

@[simp] theorem Dev.beyond_refresh (d : Dev) (k : Nat) : (Dev.refresh d k).beyond = d.beyond := by
  unfold Dev.refresh; (try simp only []); (repeat' split) <;> first | (simp; done) | rfl

@[simp] theorem Dev.beyond_makeElapsed (d : Dev) (u : Nat) (volt : Bool) : (Dev.makeElapsed d u volt).beyond = d.beyond := by
  unfold Dev.makeElapsed; (try simp only []); (repeat' split) <;> first | (simp; done) | rfl

@[simp] theorem Dev.beyond_latchVar (d : Dev) (u : Nat) (volt init : Bool) : (Dev.latchVar d u volt init).beyond = d.beyond := by
  unfold Dev.latchVar; (try simp only []); (repeat' split) <;> first | (simp; done) | rfl

@[simp] theorem Dev.beyond_setBand (d : Dev) (u : Nat) (v : Int) : (Dev.setBand d u v).beyond = d.beyond := by
  unfold Dev.setBand; (try simp only []); (repeat' split) <;> first | (simp; done) | rfl

@[simp] theorem Dev.beyond_stepLimits (d : Dev) (u : Nat) (hi lo : Int) : (Dev.stepLimits d u hi lo).beyond = d.beyond := by
  unfold Dev.stepLimits; (try simp only []); (repeat' split) <;> first | rfl | (simp; done)

@[simp] theorem Dev.beyond_stepMode (d : Dev) (u v : Nat) : (Dev.stepMode d u v).beyond = d.beyond := by
  unfold Dev.stepMode; (try simp only []); (repeat' split) <;> first | (simp; done) | rfl

@[simp] theorem Dev.beyond_takeTarget (d : Dev) (u : Nat) (x : Int) : (Dev.takeTarget d u x).beyond = d.beyond := by
  unfold Dev.takeTarget; (try simp only []); (repeat' split) <;> first | (simp; done) | rfl

@[simp] theorem Dev.beyond_forceFields (d : Dev) (u : Nat) (ws : List Nat) : (Dev.forceFields d u ws).beyond = d.beyond := by
  unfold Dev.forceFields; (try simp only []); (repeat' split) <;> first | (simp; done) | rfl

@[simp] theorem Dev.beyond_notifyStep (d : Dev) (u : Nat) : (Dev.notifyStep d u).beyond = d.beyond := by
  unfold Dev.notifyStep; (try simp only []); (repeat' split) <;> first | rfl | (simp; done)

@[simp] theorem Dev.beyond_seqGoto (d : Dev) (u slot : Nat) (a : Option Nat) : (Dev.seqGoto d u slot a).beyond = d.beyond := by
  unfold Dev.seqGoto; (try simp only []); (repeat' split) <;> first | (simp; done) | rfl

@[simp] theorem Dev.beyond_seqAdvance (d : Dev) (u slot : Nat) : (Dev.seqAdvance d u slot).beyond = d.beyond := by
  unfold Dev.seqAdvance; (try simp only []); (repeat' split) <;> first | (simp; done) | rfl

@[simp] theorem Dev.beyond_forceApply (d : Dev) (u slot : Nat) : (Dev.forceApply d u slot).beyond = d.beyond := by
  unfold Dev.forceApply; (try simp only []); (repeat' split) <;> first | (simp; done) | rfl

@[simp] theorem Dev.beyond_forceGo (d : Dev) (u slot : Nat) : (Dev.forceGo d u slot).beyond = d.beyond := by
  unfold Dev.forceGo; (try simp only []); (repeat' split) <;> first | rfl | (simp; done)

@[simp] theorem Dev.beyond_stepBoundary (d : Dev) (u slot : Nat) (own : Bool) : (Dev.stepBoundary d u slot own).beyond = d.beyond := by
  unfold Dev.stepBoundary; (try simp only []); (repeat' split) <;> first | rfl | (simp; done)

@[simp] theorem Dev.beyond_pointApply (d : Dev) (u p : Nat) : (Dev.pointApply d u p).beyond = d.beyond := by
  unfold Dev.pointApply; (try simp only []); (repeat' split) <;> first | (simp; done) | rfl

@[simp] theorem Dev.beyond_pointGo (d : Dev) (u slot : Nat) : (Dev.pointGo d u slot).beyond = d.beyond := by
  unfold Dev.pointGo; (try simp only []); (repeat' split) <;> first | rfl | (simp; done)

@[simp] theorem Dev.beyond_enginesGo (d : Dev) (k : Nat) : (Dev.enginesGo d k).beyond = d.beyond := by
  unfold Dev.enginesGo; (try simp only []); (repeat' split) <;> first | (simp; done) | rfl

@[simp] theorem Dev.beyond_cmOpen (d : Dev) (r : CalRun) (st : Nat) : (Dev.cmOpen d r st).beyond = d.beyond := by
  unfold Dev.cmOpen; (try simp only []); (repeat' split) <;> first | rfl | (simp; done)

@[simp] theorem Dev.beyond_crPoint (d : Dev) (r : CalRun) : (Dev.crPoint d r).beyond = d.beyond := by
  unfold Dev.crPoint; (try simp only []); (repeat' split) <;> first | (simp; done) | rfl

@[simp] theorem Dev.beyond_crSettle (d : Dev) (r : CalRun) : (Dev.crSettle d r).beyond = d.beyond := by
  unfold Dev.crSettle; (try simp only []); (repeat' split) <;> first | (simp; done) | (simp [apply_ite Dev.beyond]; done) | (simp; rfl)

@[simp] theorem Dev.beyond_crRanged (d : Dev) (u : Nat) : (Dev.crRanged d u).beyond = d.beyond := by
  unfold Dev.crRanged; (try simp only []); (repeat' split) <;> first | rfl | (simp; done)

@[simp] theorem Dev.beyond_latch (d : Dev) (k : Nat) (x : Transfer) : (Dev.latch d k x).beyond = d.beyond := by
  unfold Dev.latch; (try simp only []); (repeat' split) <;> first | (simp; done) | rfl

@[simp] theorem Dev.beyond_failVar (d : Dev) (u : Nat) (volt : Bool) : (Dev.failVar d u volt).beyond = d.beyond := by
  unfold Dev.failVar; (try simp only []); (repeat' split) <;> first | (simp; done) | rfl

@[simp] theorem Dev.beyond_engineLost (d : Dev) (u : Nat) : (Dev.engineLost d u).beyond = d.beyond := by
  unfold Dev.engineLost; (try simp only []); (repeat' split) <;> first | rfl | (simp; done)

@[simp] theorem Dev.beyond_linkLasting (d : Dev) (k : Nat) (x : Transfer) : (Dev.linkLasting d k x).beyond = d.beyond := by
  unfold Dev.linkLasting; (try simp only []); (repeat' split) <;> first | (simp; done) | (simp [apply_ite Dev.beyond]; done) | (simp; rfl)

@[simp] theorem Dev.beyond_loadCheck (d : Dev) (k load : Nat) (x : Transfer) : (Dev.loadCheck d k load x).beyond = d.beyond := by
  unfold Dev.loadCheck; (try simp only []); (repeat' split) <;> first | (simp; done) | rfl

@[simp] theorem Dev.beyond_checkFailed (d : Dev) (k : Nat) (x : Transfer) (bad : Nat) (inj real : Bool) : (Dev.checkFailed d k x bad inj real).beyond = d.beyond := by
  unfold Dev.checkFailed; (try simp only []); (repeat' split) <;> first | (simp; done) | (simp [apply_ite Dev.beyond]; done) | (simp; rfl)

@[simp] theorem Dev.beyond_checkDone (d : Dev) (k load ret : Nat) : (Dev.checkDone d k load ret).beyond = d.beyond := by
  unfold Dev.checkDone; (try simp only []); (repeat' split) <;> first | (simp; done) | rfl

@[simp] theorem Dev.beyond_seMismatch (d : Dev) (k : Nat) : (Dev.seMismatch d k).beyond = d.beyond := by
  unfold Dev.seMismatch; (try simp only []); (repeat' split) <;> first | (simp; done) | rfl

@[simp] theorem Dev.beyond_ilkLow (d : Dev) (k : Nat) : (Dev.ilkLow d k).beyond = d.beyond := by
  unfold Dev.ilkLow; (try simp only []); (repeat' split) <;> first | (simp; done) | rfl

@[simp] theorem Dev.beyond_copyCoefs (d : Dev) (h l : Nat) : (Dev.copyCoefs d h l).beyond = d.beyond := by
  unfold Dev.copyCoefs; (try simp only []); (repeat' split) <;> first | (simp; done) | rfl

@[simp] theorem Dev.beyond_freshSet (d : Dev) (h : Nat) : (Dev.freshSet d h).beyond = d.beyond := by
  unfold Dev.freshSet; (try simp only []); (repeat' split) <;> first | rfl | (simp; done)

@[simp] theorem Dev.beyond_liPublish (d : Dev) (u : Nat) : (Dev.liPublish d u).beyond = d.beyond := by
  unfold Dev.liPublish; (try simp only []); (repeat' split) <;> first | (simp; done) | rfl

@[simp] theorem Dev.beyond_liSample (d : Dev) (u n : Nat) (yV yI : Int) : (Dev.liSample d u n yV yI).beyond = d.beyond := by
  unfold Dev.liSample; (try simp only []); (repeat' split) <;> first | (simp; done) | rfl

@[simp] theorem Dev.beyond_waitSample (d : Dev) (u n : Nat) (yV yI : Int) : (Dev.waitSample d u n yV yI).beyond = d.beyond := by
  unfold Dev.waitSample; (try simp only []); (repeat' split) <;> first | rfl | (simp; done)

@[simp] theorem Dev.beyond_passOver (d : Dev) (u : Nat) : (Dev.passOver d u).beyond = d.beyond := by
  unfold Dev.passOver; (try simp only []); (repeat' split) <;> first | (simp; done) | rfl

@[simp] theorem Dev.beyond_record (d : Dev) (u q : Nat) (r : RecFields) : (Dev.record d u q r).beyond = d.beyond := by
  unfold Dev.record; (try simp only []); (repeat' split) <;> first | rfl | (simp; done)

@[simp] theorem Dev.beyond_filledLands (d : Dev) (g t : Nat) : (Dev.filledLands d g t).beyond = d.beyond := by
  unfold Dev.filledLands; (try simp only []); (repeat' split) <;> first | rfl | (simp; done)

@[simp] theorem Dev.beyond_modSeg (d : Dev) (g : Nat) (f : Seg → Seg) : (Dev.modSeg d g f).beyond = d.beyond := by
  (unfold Dev.modSeg; (try simp only []); repeat' split) <;> rfl

@[simp] theorem Dev.beyond_jumpRefuse (d : Dev) (u : Nat) : (Dev.jumpRefuse d u).beyond = d.beyond := by
  unfold Dev.jumpRefuse; (try simp only []); (repeat' split) <;> first | (simp; done) | rfl

@[simp] theorem Dev.beyond_jumpRequest (d : Dev) (u t : Nat) : (Dev.jumpRequest d u t).beyond = d.beyond := by
  unfold Dev.jumpRequest; (try simp only []); (repeat' split) <;> first | (simp; done) | rfl

@[simp] theorem Dev.beyond_seqStart (d : Dev) (u : Nat) (c : Cause) : (Dev.seqStart d u c).beyond = d.beyond := by
  unfold Dev.seqStart; (try simp only []); (repeat' split) <;> first | (simp; done) | rfl

@[simp] theorem Dev.beyond_askRanges (d : Dev) (u : Nat) (rs : List (Bool × Nat)) : (Dev.askRanges d u rs).beyond = d.beyond := by
  unfold Dev.askRanges; (try simp only []); (repeat' split) <;> first | (simp; done) | rfl

@[simp] theorem Dev.beyond_stepForce (d : Dev) (u : Nat) (ws : List Nat) (slot : Nat) : (Dev.stepForce d u ws slot).beyond = d.beyond := by
  unfold Dev.stepForce; (try simp only []); (repeat' split) <;> first | (simp; done) | rfl

@[simp] theorem Dev.beyond_stepRamp (d : Dev) (u : Nat) (ws : List Nat) (slot : Nat) : (Dev.stepRamp d u ws slot).beyond = d.beyond := by
  unfold Dev.stepRamp; (try simp only []); (repeat' split) <;> first | (simp; done) | rfl

@[simp] theorem Dev.beyond_rampEnd (d : Dev) (u : Nat) : (Dev.rampEnd d u).beyond = d.beyond := by
  unfold Dev.rampEnd; (try simp only []); (repeat' split) <;> first | (simp; done) | rfl

@[simp] theorem Dev.beyond_stepSine (d : Dev) (u : Nat) (ws : List Nat) (slot : Nat) : (Dev.stepSine d u ws slot).beyond = d.beyond := by
  unfold Dev.stepSine; (try simp only []); (repeat' split) <;> first | (simp; done) | rfl

@[simp] theorem Dev.beyond_sineEnd (d : Dev) (u : Nat) : (Dev.sineEnd d u).beyond = d.beyond := by
  unfold Dev.sineEnd; (try simp only []); (repeat' split) <;> first | (simp; done) | rfl

@[simp] theorem Dev.beyond_pointNext (d : Dev) (u slot : Nat) : (Dev.pointNext d u slot).beyond = d.beyond := by
  unfold Dev.pointNext; (try simp only []); (repeat' split) <;> first | rfl | (simp; done)

@[simp] theorem Dev.beyond_stepSweep (d : Dev) (u : Nat) (ws : List Nat) (slot : Nat) : (Dev.stepSweep d u ws slot).beyond = d.beyond := by
  unfold Dev.stepSweep; (try simp only []); (repeat' split) <;> first | (simp; done) | rfl

@[simp] theorem Dev.beyond_pointRelease (d : Dev) (u : Nat) : (Dev.pointRelease d u).beyond = d.beyond := by
  unfold Dev.pointRelease; (try simp only []); (repeat' split) <;> first | (simp; done) | rfl

@[simp] theorem Dev.beyond_pointStart (d : Dev) (m : Mem) (u : Nat) : (Dev.pointStart d m u).beyond = d.beyond := by
  unfold Dev.pointStart; (try simp only []); (repeat' split) <;> first | (simp; done) | rfl

@[simp] theorem Dev.beyond_pointDelayEnd (d : Dev) (u : Nat) : (Dev.pointDelayEnd d u).beyond = d.beyond := by
  unfold Dev.pointDelayEnd; (try simp only []); (repeat' split) <;> first | (simp; done) | rfl

@[simp] theorem Dev.beyond_finishAperture (d : Dev) (u : Nat) : (Dev.finishAperture d u).beyond = d.beyond := by
  unfold Dev.finishAperture; (try simp only []); (repeat' split) <;> first | rfl | (simp; done)

@[simp] theorem Dev.beyond_sweepOn (d : Dev) (u slot : Nat) : (Dev.sweepOn d u slot).beyond = d.beyond := by
  unfold Dev.sweepOn; (try simp only []); (repeat' split) <;> first | (simp; done) | rfl

@[simp] theorem Dev.beyond_pointDone (d : Dev) (u : Nat) : (Dev.pointDone d u).beyond = d.beyond := by
  unfold Dev.pointDone; (try simp only []); (repeat' split) <;> first | (simp; done) | rfl

@[simp] theorem Dev.beyond_stepDwell (d : Dev) (u : Nat) (ws : List Nat) (slot : Nat) : (Dev.stepDwell d u ws slot).beyond = d.beyond := by
  unfold Dev.stepDwell; (try simp only []); (repeat' split) <;> first | (simp; done) | rfl

@[simp] theorem Dev.beyond_dwellEnd (d : Dev) (u : Nat) : (Dev.dwellEnd d u).beyond = d.beyond := by
  unfold Dev.dwellEnd; (try simp only []); (repeat' split) <;> first | (simp; done) | rfl

@[simp] theorem Dev.beyond_stepMeasure (d : Dev) (u : Nat) (ws : List Nat) (slot : Nat) : (Dev.stepMeasure d u ws slot).beyond = d.beyond := by
  unfold Dev.stepMeasure; (try simp only []); (repeat' split) <;> first | (simp; done) | rfl

@[simp] theorem Dev.beyond_measureDone (d : Dev) (u : Nat) : (Dev.measureDone d u).beyond = d.beyond := by
  unfold Dev.measureDone; (try simp only []); (repeat' split) <;> first | (simp; done) | rfl

@[simp] theorem Dev.beyond_waitEnd (d : Dev) (u c slot : Nat) : (Dev.waitEnd d u c slot).beyond = d.beyond := by
  unfold Dev.waitEnd; (try simp only []); (repeat' split) <;> first | (simp; done) | rfl

@[simp] theorem Dev.beyond_stepWait (d : Dev) (u : Nat) (ws : List Nat) (slot : Nat) : (Dev.stepWait d u ws slot).beyond = d.beyond := by
  unfold Dev.stepWait; (try simp only []); (repeat' split) <;> first | (simp; done) | rfl

@[simp] theorem Dev.beyond_waitDone (d : Dev) (u : Nat) : (Dev.waitDone d u).beyond = d.beyond := by
  unfold Dev.waitDone; (try simp only []); (repeat' split) <;> first | (simp; done) | rfl

@[simp] theorem Dev.beyond_waitTimeout (d : Dev) (u : Nat) : (Dev.waitTimeout d u).beyond = d.beyond := by
  unfold Dev.waitTimeout; (try simp only []); (repeat' split) <;> first | (simp; done) | rfl

@[simp] theorem Dev.beyond_stepPost (d : Dev) (u : Nat) (ws : List Nat) (slot : Nat) : (Dev.stepPost d u ws slot).beyond = d.beyond := by
  unfold Dev.stepPost; (try simp only []); (repeat' split) <;> first | (simp; done) | rfl

@[simp] theorem Dev.beyond_stepJump (d : Dev) (u : Nat) (ws : List Nat) (slot : Nat) : (Dev.stepJump d u ws slot).beyond = d.beyond := by
  unfold Dev.stepJump; (try simp only []); (repeat' split) <;> first | (simp; done) | rfl

@[simp] theorem Dev.beyond_stepEnd (d : Dev) (u : Nat) (ws : List Nat) (slot : Nat) : (Dev.stepEnd d u ws slot).beyond = d.beyond := by
  unfold Dev.stepEnd; (try simp only []); (repeat' split) <;> first | (simp; done) | rfl

@[simp] theorem Dev.beyond_stepLoop (d : Dev) (u : Nat) (ws : List Nat) (slot : Nat) : (Dev.stepLoop d u ws slot).beyond = d.beyond := by
  unfold Dev.stepLoop; (try simp only []); (repeat' split) <;> first | (simp; done) | rfl

@[simp] theorem Dev.beyond_stepLoopEnd (d : Dev) (u : Nat) (slot : Nat) : (Dev.stepLoopEnd d u slot).beyond = d.beyond := by
  unfold Dev.stepLoopEnd; (try simp only []); (repeat' split) <;> first | (simp; done) | rfl

@[simp] theorem Dev.beyond_stepCall (d : Dev) (u : Nat) (ws : List Nat) (slot : Nat) : (Dev.stepCall d u ws slot).beyond = d.beyond := by
  unfold Dev.stepCall; (try simp only []); (repeat' split) <;> first | (simp; done) | rfl

@[simp] theorem Dev.beyond_stepReturn (d : Dev) (u : Nat) (slot : Nat) : (Dev.stepReturn d u slot).beyond = d.beyond := by
  unfold Dev.stepReturn; (try simp only []); (repeat' split) <;> first | (simp; done) | rfl

@[simp] theorem Dev.beyond_playSeg (d : Dev) (m : Mem) (u g s div : Nat) (jump : Option (Nat × Nat)) (late : Bool) : (Dev.playSeg d m u g s div jump late).beyond = d.beyond := by
  unfold Dev.playSeg; (try simp only []); (repeat' split) <;> first | rfl | (simp; done)

@[simp] theorem Dev.beyond_stepPlay (d : Dev) (m : Mem) (u : Nat) (ws : List Nat) (slot : Nat) : (Dev.stepPlay d m u ws slot).beyond = d.beyond := by
  unfold Dev.stepPlay; (try simp only []); (repeat' split) <;> first | (simp; done) | rfl

@[simp] theorem Dev.beyond_unfill (d : Dev) (g : Nat) : (Dev.unfill d g).beyond = d.beyond := by
  unfold Dev.unfill; (try simp only []); (repeat' split) <;> first | rfl | (simp; done)

@[simp] theorem Dev.beyond_starveOff (d : Dev) (u : Nat) : (Dev.starveOff d u).beyond = d.beyond := by
  unfold Dev.starveOff; (try simp only []); (repeat' split) <;> first | (simp; done) | rfl

@[simp] theorem Dev.beyond_starve (d : Dev) (m : Mem) (u g b div : Nat) (jump : Option (Nat × Nat)) : (Dev.starve d m u g b div jump).beyond = d.beyond := by
  unfold Dev.starve; (try simp only []); (repeat' split) <;> first | (simp; done) | rfl

@[simp] theorem Dev.beyond_segBoundary (d : Dev) (m : Mem) (u : Nat) : (Dev.segBoundary d m u).beyond = d.beyond := by
  unfold Dev.segBoundary; (try simp only []); (repeat' split) <;> first | (simp; done) | rfl

@[simp] theorem Dev.beyond_starvedStart (d : Dev) (m : Mem) (u : Nat) : (Dev.starvedStart d m u).beyond = d.beyond := by
  unfold Dev.starvedStart; (try simp only []); (repeat' split) <;> first | (simp; done) | rfl

@[simp] theorem Dev.beyond_tbSticky (d : Dev) (t n : Nat) : (Dev.tbSticky d t n).beyond = d.beyond := by
  unfold Dev.tbSticky; (try simp only []); (repeat' split) <;> first | rfl | (simp; done)

@[simp] theorem Dev.beyond_notifyAll (d : Dev) (kind unit w1 w5 : Nat) : (Dev.notifyAll d kind unit w1 w5).beyond = d.beyond := by
  unfold Dev.notifyAll; (try simp only []); (repeat' split) <;> first | rfl | (simp; done)

@[simp] theorem Dev.beyond_jumpRefused (d : Dev) (t : Nat) (size : Int) : (Dev.jumpRefused d t size).beyond = d.beyond := by
  unfold Dev.jumpRefused; (try simp only []); (repeat' split) <;> first | (simp; done) | rfl

@[simp] theorem Dev.beyond_setInc (d : Dev) (t : Nat) (x : Int) : (Dev.setInc d t x).beyond = d.beyond := by
  unfold Dev.setInc; (try simp only []); (repeat' split) <;> first | (simp; done) | rfl

@[simp] theorem Dev.beyond_slew (d : Dev) (t : Nat) (o : Int) (n : Nat) : (Dev.slew d t o n).beyond = d.beyond := by
  unfold Dev.slew; (try simp only []); (repeat' split) <;> first | (simp; done) | rfl

@[simp] theorem Dev.beyond_servoRefuse (d : Dev) (t : Nat) (o : Int) : (Dev.servoRefuse d t o).beyond = d.beyond := by
  unfold Dev.servoRefuse; (try simp only []); (repeat' split) <;> first | (simp; done) | rfl

@[simp] theorem Dev.beyond_masterLost (d : Dev) (t : Nat) : (Dev.masterLost d t).beyond = d.beyond := by
  unfold Dev.masterLost; (try simp only []); (repeat' split) <;> first | (simp; done) | rfl

@[simp] theorem Dev.beyond_servoOff (d : Dev) (t : Nat) : (Dev.servoOff d t).beyond = d.beyond := by
  unfold Dev.servoOff; (try simp only []); (repeat' split) <;> first | rfl | (simp; done)

@[simp] theorem Dev.beyond_masterFound (d : Dev) (t id : Nat) : (Dev.masterFound d t id).beyond = d.beyond := by
  unfold Dev.masterFound; (try simp only []); (repeat' split) <;> first | (simp; done) | rfl


end Sys2Proof.Machine
end

