-- ==== Sys2Proof/Laws/Leads.lean ====
section
/-! SUPPORT. From what a command does to the device to where it leads. -/

namespace Sys2Proof.Machine

open Sys2Proof

/-- A command whose meaning is an operation of the device finds it settled. -/
theorem State.dev_on (s : State) (f : Dev → Dev) : (s.on f).dev = f s.found := rfl

/-- A command leads to what holds of its answer. -/
theorem State.leads_of {s t : State} {c : Instr} {P : State → Prop} (hx : exec c s = .next t) (h : P t) : s.leads c P :=
  ⟨t, hx, h⟩

/-- A command whose meaning is an operation of the device leads to what holds of the operation's result. -/
theorem State.leads_dev {s : State} {c : Instr} {f : Dev → Dev} {P : Dev → Prop} (hx : exec c s = .next (s.on f))
    (h : P (f s.found)) : s.leads c fun t => P t.dev := ⟨s.on f, hx, h⟩

/-- A command whose meaning is a write that is accepted leads to what holds of its effect, with the cuts watched and status
OK. -/
theorem State.leads_write {s : State} {c : Instr} {f : Dev → Dev} {P : Dev → Prop} {p : Party} {o : Obj} {u i : Nat}
    {v : Int} {x : Status} {eff : Dev → Dev} (hx : exec c s = .next (s.on f))
    (hf : f s.found = s.found.write p o u i v x eff) (ha : s.accepts p o u i v) (hs : x = .ok)
    (h : P ((eff s.found).watchCuts.say .ok)) : s.leads c fun t => P t.dev := by
  refine State.leads_dev hx ?_
  rw [hf, Dev.write_ok]
  · exact h
  · rw [hs]; exact ha

/-- A command whose meaning is a write that is refused changes nothing but the status. -/
theorem State.leads_refused {s : State} {c : Instr} {f : Dev → Dev} {p : Party} {o : Obj} {u i : Nat}
    {v : Int} {x : Status} {eff : Dev → Dev} (hx : exec c s = .next (s.on f))
    (hf : f s.found = s.found.write p o u i v x eff) (ha : s.found.writeStatus p o u i v x ≠ .ok) :
    s.leads c fun t => t.dev = s.found.say (s.found.writeStatus p o u i v x) := by
  refine State.leads_dev (P := fun e => e = _) hx ?_
  rw [hf, Dev.write_refused _ _ _ _ _ _ _ _ ha]

end Sys2Proof.Machine
end

