-- ==== Sys2Proof/Laws/Objects.lean ====
section
/-! SUPPORT. Objects that lie apart: writing one leaves the other as it reads. -/

namespace Sys2Proof.Machine

open Sys2Proof

/-- Whether two rows of the channel table, or two of the stove table, lie apart whatever their units. -/
def Obj.apart (o o' : Obj) (i i' : Nat) : Bool :=
  match o.blk, o'.blk with
  | .chan, .chan => decide (o.off < 64) && decide (o'.off < 64) && decide (o.sub + i < 256) && decide (o'.sub + i' < 256) &&
      decide (o.off * 256 + o.sub + i ≠ o'.off * 256 + o'.sub + i')
  | .stove, .stove => decide (o.off < 16) && decide (o'.off < 16) && decide (o.sub + i < 256) && decide (o'.sub + i' < 256) &&
      decide (o.off * 256 + o.sub + i ≠ o'.off * 256 + o'.sub + i')
  | _, _ => false

theorem Obj.key_apart (o o' : Obj) (u u' i i' : Nat) (h : o.apart o' i i' = true) : o.key u i ≠ o'.key u' i' := by
  unfold Obj.apart at h
  unfold Obj.key Obj.index
  cases hb : o.blk <;> cases hb' : o'.blk <;> simp [hb, hb'] at h
  · dsimp only
    split <;> split <;> omega
  · dsimp only
    omega

/-- A device object lies apart from every channel's and every stove's. -/
theorem Obj.key_dev (o o' : Obj) (u u' i i' : Nat) (h : o.blk = .dev ∧ o'.blk ≠ .dev ∧ o.off + u < 0x3000 ∧ o.sub + i < 256) :
    o.key u i ≠ o'.key u' i' := by
  obtain ⟨h1, h2, h3, h4⟩ := h
  unfold Obj.key Obj.index
  rw [h1]
  cases hb : o'.blk
  · dsimp only; split <;> omega
  · dsimp only; omega
  · exact absurd hb h2

/-- Two device objects lie apart where their indices or subindices differ. -/
theorem Obj.key_dev_dev (o o' : Obj) (u u' i i' : Nat)
    (h : o.blk = .dev ∧ o'.blk = .dev ∧ o.sub + i < 256 ∧ o'.sub + i' < 256 ∧ (o.off + u ≠ o'.off + u' ∨ o.sub + i ≠ o'.sub + i')) :
    o.key u i ≠ o'.key u' i' := by
  obtain ⟨h1, h2, h3, h4, h5⟩ := h
  unfold Obj.key Obj.index
  rw [h1, h2]
  dsimp only
  omega

theorem Dev.rdi_wri_apart (d : Dev) (o o' : Obj) (u u' i i' : Nat) (v : Int) (h : o'.apart o i' i = true) :
    (d.wri o u i v).rdi o' u' i' = d.rdi o' u' i' := Dev.rdi_wri_other _ _ _ _ _ _ _ _ (Obj.key_apart _ _ _ _ _ _ h)

theorem Dev.rd_wr_apart (d : Dev) (o o' : Obj) (u u' : Nat) (v : Int) (h : o'.apart o 0 0 = true) :
    (d.wr o u v).rd o' u' = d.rd o' u' := Dev.rd_wr_other _ _ _ _ _ _ (Obj.key_apart _ _ _ _ _ _ h)

theorem Dev.rd_bump_apart (d : Dev) (o o' : Obj) (u u' w n : Nat) (h : o'.apart o 0 0 = true) :
    (d.bump o u w n).rd o' u' = d.rd o' u' := Dev.rd_wr_apart _ _ _ _ _ _ h

theorem Dev.rd_wrap_apart (d : Dev) (o o' : Obj) (u u' w n : Nat) (h : o'.apart o 0 0 = true) :
    (d.wrap o u w n).rd o' u' = d.rd o' u' := Dev.rd_wr_apart _ _ _ _ _ _ h

@[simp] theorem Dev.rd_bump_same (d : Dev) (o : Obj) (u w n : Nat) :
    (d.bump o u w n).rd o u = min (d.rd o u + n) (2 ^ w - 1) := by unfold Dev.bump; simp

@[simp] theorem Dev.rd_wrap_same (d : Dev) (o : Obj) (u w n : Nat) :
    (d.wrap o u w n).rd o u = (d.rd o u + n) % 2 ^ w := by unfold Dev.wrap; simp

/-- An object of the channel table apart from HS_FLAGS is one that no event and no watching of cuts writes. -/
theorem Obj.plainHs_chan (o : Obj) (u i : Nat) (hb : o.blk = .chan) (h : o.apart C.HS_FLAGS i 0 = true) : o.plainHs u i := by
  refine ⟨⟨?_, ?_, ?_⟩, fun g => Obj.key_apart _ _ _ _ _ _ h⟩
  · exact fun e => Obj.key_dev D.FL_FLAGS o 0 u 0 i ⟨rfl, by simp [hb], by decide, by decide⟩ e.symm
  · exact fun e => Obj.key_dev D.LOOP_FLUE o 0 u 0 i ⟨rfl, by simp [hb], by decide, by decide⟩ e.symm
  · exact fun e => Obj.key_dev D.LOOPS_CUT o 0 u 0 i ⟨rfl, by simp [hb], by decide, by decide⟩ e.symm

/-- An object of the stove table of one of the 16 stoves is one that no event and no watching of cuts writes. -/
theorem Obj.plainHs_stove (o : Obj) (k i : Nat) (hb : o.blk = .stove) (h : k < 16 ∧ o.off < 16 ∧ o.sub + i < 256) :
    o.plainHs k i := by
  obtain ⟨h1, h2, h3⟩ := h
  refine ⟨⟨?_, ?_, ?_⟩, fun g e => ?_⟩
  · exact fun e => Obj.key_dev D.FL_FLAGS o 0 k 0 i ⟨rfl, by simp [hb], by decide, by decide⟩ e.symm
  · exact fun e => Obj.key_dev D.LOOP_FLUE o 0 k 0 i ⟨rfl, by simp [hb], by decide, by decide⟩ e.symm
  · exact fun e => Obj.key_dev D.LOOPS_CUT o 0 k 0 i ⟨rfl, by simp [hb], by decide, by decide⟩ e.symm
  · unfold Obj.key Obj.index at e
    rw [hb] at e
    dsimp only [C.HS_FLAGS] at e
    split at e <;> omega

/-- A device object apart from the three of the flue router is one that no event and no watching of cuts writes. -/
theorem Obj.plainHs_dev (o : Obj) (n i : Nat) (hb : o.blk = .dev)
    (h : o.off + n < 0x3000 ∧ o.off + n ≠ 0x2205 ∧ o.sub + i < 256) : o.plainHs n i := by
  obtain ⟨h1, h2, h3⟩ := h
  refine ⟨⟨?_, ?_, ?_⟩, fun g => Obj.key_dev _ _ _ _ _ _ ⟨hb, by decide, h1, h3⟩⟩
  · exact Obj.key_dev_dev _ _ _ _ _ _ ⟨hb, rfl, h3, by decide, .inl h2⟩
  · exact Obj.key_dev_dev _ _ _ _ _ _ ⟨hb, rfl, h3, by decide, .inl h2⟩
  · exact Obj.key_dev_dev _ _ _ _ _ _ ⟨hb, rfl, h3, by decide, .inl h2⟩

/-- An object of a channel after a write that was accepted: what the effect left in it. -/
theorem Dev.rd_ws_chan (e : Dev) (x : Status) (o : Obj) (u : Nat) (h : (o.blk == .chan && o.apart C.HS_FLAGS 0 0) = true) :
    (e.watchCuts.say x).rd o u = e.rd o u := by
  rw [Bool.and_eq_true] at h
  exact Dev.rdi_watchCuts e o u 0 (Obj.plainHs_chan o u 0 (by simpa using h.1) h.2)

/-- An object of a stove after a write that was accepted. -/
theorem Dev.rdi_ws_stove (e : Dev) (x : Status) (o : Obj) (k i : Nat) (hk : k < 16) (h : (o.blk == .stove && decide (o.off < 16) && decide (o.sub + i < 256)) = true) :
    (e.watchCuts.say x).rdi o k i = e.rdi o k i := by
  simp at h
  exact Dev.rdi_watchCuts e o k i (Obj.plainHs_stove o k i h.1.1 ⟨hk, h.1.2, h.2⟩)

theorem Dev.rdi_of_dict {d e : Dev} (h : d.dict = e.dict) : d.rdi = e.rdi := by funext o u i; unfold Dev.rdi; rw [h]
theorem Dev.st_of_stoves {d e : Dev} (h : d.stoves = e.stoves) : d.st = e.st := by funext k; unfold Dev.st; rw [h]

/-- What a table search finds is in the table and covers the place. -/
theorem findObj_some (os : List Obj) (off sub : Nat) (o : Obj) (h : findObj os off sub = some o) :
    o ∈ os ∧ o.off ≤ off ∧ off < o.off + o.ninst ∧ o.sub ≤ sub ∧ sub < o.sub + o.nsubs := by
  induction os with
  | nil => simp [findObj] at h
  | cons a os ih =>
    unfold findObj at h
    split at h
    · rename_i hc
      cases h
      simp at hc
      refine ⟨by simp, ?_⟩
      omega
    · obtain ⟨h1, h2⟩ := ih h
      exact ⟨by simp [h1], h2⟩

/-- Every row of the channel table is one of a channel, at an offset below 64, and ends by subindex 255. -/
theorem objectsC_rows : ∀ o ∈ objectsC, o.blk = .chan ∧ o.off < 64 ∧ o.sub + o.nsubs ≤ 256 ∧ o.ninst = 1 := by decide +kernel

end Sys2Proof.Machine
end

