-- ==== Sys2Proof/Laws/States.lean ====
section
/-! SUPPORT. Which operations change the state of a channel or the path-calibration run: entering a state changes that of its
channel alone. -/

namespace Sys2Proof.Machine

open Sys2Proof

set_option linter.unusedTactic false
set_option linter.unreachableTactic false
set_option linter.unnecessarySeqFocus false

/-- The state of every channel, and the path-calibration run. -/
def Dev.stc (d : Dev) : (Nat → ChState) × Option CalRun := (fun v => (d.ch v).ctl.st, d.cr)

theorem Dev.stc_of_eq (d e : Dev) (h : (d.chans, d.cr) = (e.chans, e.cr)) : d.stc = e.stc := by
  have h1 : d.chans = e.chans := congrArg Prod.fst h
  have h2 : d.cr = e.cr := congrArg Prod.snd h
  unfold Dev.stc Dev.ch; rw [h1, h2]

@[simp] theorem Dev.stc_foldl {β : Type} (f : Dev → β → Dev) (h : ∀ a b, (f a b).stc = a.stc) (l : List β) (a : Dev) :
    (l.foldl f a).stc = a.stc := foldl_keep Dev.stc f h l a

@[simp] theorem Dev.stc_setCh (d : Dev) (u : Nat) (c : Chan) (h : c.ctl.st = (d.ch u).ctl.st) : (d.setCh u c).stc = d.stc := by
  unfold Dev.stc
  refine Prod.ext ?_ rfl
  funext v
  unfold Dev.setCh Dev.ch
  by_cases e : v = u
  · subst e; simp only [SMap.get_ins_same, h]; rfl
  · simp [SMap.get_ins_other _ _ _ _ _ e]

@[simp] theorem Dev.stc_modCh (d : Dev) (u : Nat) (f : Chan → Chan) (h : (f (d.ch u)).ctl.st = (d.ch u).ctl.st) :
    (d.modCh u f).stc = d.stc := Dev.stc_setCh d u _ h

@[simp] theorem Dev.stc_modCtl (d : Dev) (u : Nat) (f : Ctl → Ctl) (h : (f (d.ch u).ctl).st = (d.ch u).ctl.st) :
    (d.modCtl u f).stc = d.stc := Dev.stc_setCh d u _ h

@[simp] theorem Dev.stc_modMeas (d : Dev) (u : Nat) (f : Meas → Meas) : (d.modMeas u f).stc = d.stc :=
  Dev.stc_setCh d u _ rfl

@[simp] theorem Dev.stc_modRng (d : Dev) (u : Nat) (b : Bool) (f : Rng → Rng) : (d.modRng u b f).stc = d.stc := by
  apply Dev.stc_modCh; cases b <;> rfl

@[simp] theorem Ctl.flagIf_st (c : Ctl) (n : Nat) (b : Bool) : (c.flagIf n b).st = c.st := by
  unfold Ctl.flagIf; split <;> rfl

@[simp] theorem Ctl.rest_st (c : Ctl) : c.rest.st = c.st := rfl

@[simp] theorem Dev.stc_modAq (d : Dev) (u : Nat) (f : Acq → Acq) : (Dev.modAq d u f).stc = d.stc := Dev.stc_of_eq _ _ (by rfl)

@[simp] theorem Dev.stc_acqClose (d : Dev) (u flags : Nat) : (Dev.acqClose d u flags).stc = d.stc := Dev.stc_of_eq _ _ (by rfl)

@[simp] theorem Dev.stc_acqCut (d : Dev) (u flag : Nat) : (Dev.acqCut d u flag).stc = d.stc := by
  (unfold Dev.acqCut; (try simp only []); repeat' split) <;> rfl

@[simp] theorem Dev.stc_wri (d : Dev) (o : Obj) (u i : Nat) (v : Int) : (Dev.wri d o u i v).stc = d.stc := Dev.stc_of_eq _ _ (by rfl)

@[simp] theorem Dev.stc_wr (d : Dev) (o : Obj) (u : Nat) (v : Int) : (Dev.wr d o u v).stc = d.stc := Dev.stc_of_eq _ _ (by rfl)

@[simp] theorem Dev.stc_bump (d : Dev) (o : Obj) (u : Nat) (w n : Nat) : (Dev.bump d o u w n).stc = d.stc := Dev.stc_of_eq _ _ (by rfl)

@[simp] theorem Dev.stc_abandon (d : Dev) (u : Nat) : (Dev.abandon d u).stc = d.stc := by
  (unfold Dev.abandon; (try simp only []); repeat' split) <;> first | rfl | simp

@[simp] theorem Dev.stc_apEnter (d : Dev) (u : Nat) (old x : ChState) : (Dev.apEnter d u old x).stc = d.stc := by
  (unfold Dev.apEnter; (try simp only []); repeat' split) <;> first | rfl | simp

@[simp] theorem Dev.stc_dropStepAperture (d : Dev) (u : Nat) : (Dev.dropStepAperture d u).stc = d.stc := by
  (unfold Dev.dropStepAperture; (try simp only []); repeat' split) <;> first | rfl | simp

@[simp] theorem Dev.stc_crDrop (d : Dev) (u : Nat) : (Dev.crDrop d u).stc = d.stc := by
  (unfold Dev.crDrop; (try simp only []); repeat' split) <;> first | rfl | simp

@[simp] theorem Dev.stc_rngAsk (d : Dev) (u : Nat) (volt : Bool) (j : Nat) (auto_ up : Bool) : (Dev.rngAsk d u volt j auto_ up).stc = d.stc := by
  (unfold Dev.rngAsk; (try simp only []); repeat' split) <;> first | rfl | simp

@[simp] theorem Dev.stc_rangeAsk (d : Dev) (u : Nat) (volt : Bool) (j : Nat) (auto_ up : Bool) : (Dev.rangeAsk d u volt j auto_ up).stc = d.stc := by
  (unfold Dev.rangeAsk; (try simp only []); repeat' split) <;> first | rfl | simp

@[simp] theorem Dev.stc_crRange (d : Dev) (u : Nat) (volt : Bool) (j : Nat) : (Dev.crRange d u volt j).stc = d.stc := by
  (unfold Dev.crRange; (try simp only []); repeat' split) <;> first | rfl | simp

@[simp] theorem Dev.stc_setApRun (d : Dev) (u : Nat) (v : Int) : (Dev.setApRun d u v).stc = d.stc := by
  (unfold Dev.setApRun; (try simp only []); repeat' split) <;> first | rfl | simp

@[simp] theorem Dev.stc_crRestore (d : Dev) (u : Nat) (vs : List Int) : (Dev.crRestore d u vs).stc = d.stc := by
  (unfold Dev.crRestore; (try simp only []); repeat' split) <;> first | rfl | simp

@[simp] theorem Dev.stc_report (d : Dev) (code unit detail : Nat) : (Dev.report d code unit detail).stc = d.stc := Dev.stc_of_eq _ _ (by rfl)

@[simp] theorem Dev.stc_modSt (d : Dev) (k : Nat) (f : Stove → Stove) : (Dev.modSt d k f).stc = d.stc := Dev.stc_of_eq _ _ (by rfl)

@[simp] theorem Dev.stc_putBack (d : Dev) (xs : List (Nat × Option Int)) : (Dev.putBack d xs).stc = d.stc := Dev.stc_of_eq _ _ (by rfl)

@[simp] theorem Dev.stc_ftEnd (d : Dev) (res : Nat) : (Dev.ftEnd d res).stc = d.stc := by
  unfold Dev.ftEnd
  split
  · rfl
  · dsimp only
    split
    · simp; exact Dev.stc_of_eq _ _ rfl
    · split <;> simp <;> exact Dev.stc_of_eq _ _ rfl

@[simp] theorem Dev.stc_ftAbortIf (d : Dev) (c : Bool) : (Dev.ftAbortIf d c).stc = d.stc := by
  (unfold Dev.ftAbortIf; (try simp only []); repeat' split) <;> first | rfl | simp

@[simp] theorem Dev.stc_setQu (d : Dev) (q : Nat) (x : Queue) : (Dev.setQu d q x).stc = d.stc := Dev.stc_of_eq _ _ (by rfl)

@[simp] theorem Dev.stc_charge (d : Dev) (q : Nat) (c : Nat) (n : Int) : (Dev.charge d q c n).stc = d.stc := Dev.stc_of_eq _ _ (by rfl)

@[simp] theorem Dev.stc_putWord (d : Dev) (q : Queue) (p w : Nat) : (Dev.putWord d q p w).stc = d.stc := Dev.stc_of_eq _ _ (by rfl)

@[simp] theorem Dev.stc_noteVisible (d : Dev) (q before : Nat) : (Dev.noteVisible d q before).stc = d.stc := by
  (unfold Dev.noteVisible; (try simp only []); repeat' split) <;> rfl

@[simp] theorem Dev.stc_modCons (d : Dev) (c : Nat) (f : Cons → Cons) : (Dev.modCons d c f).stc = d.stc := Dev.stc_of_eq _ _ (by rfl)

@[simp] theorem Dev.stc_cutLoop (d : Dev) (f c : Nat) : (Dev.cutLoop d f c).stc = d.stc := Dev.stc_of_eq _ _ (by rfl)

@[simp] theorem Dev.stc_raiseFlue (d : Dev) (f g : Nat) : (Dev.raiseFlue d f g).stc = d.stc := by
  (unfold Dev.raiseFlue; (try simp only []); repeat' split) <;> rfl

@[simp] theorem Dev.stc_raiseOn (d : Dev) (f : Nat) (c : Cause) : (Dev.raiseOn d f c).stc = d.stc := by
  (unfold Dev.raiseOn; (try simp only []); repeat' split) <;> first | rfl | simp

@[simp] theorem Dev.stc_wmark (d0 : Dev) (q before : Nat) (c : Cause) : (Dev.wmark d0 q before c).stc = d0.stc := by
  (unfold Dev.wmark; (try simp only []); repeat' split) <;> first | rfl | simp

@[simp] theorem Dev.stc_close (d : Dev) (q id len : Nat) : (Dev.close d q id len).stc = d.stc := by
  (unfold Dev.close; (try simp only []); repeat' split) <;> first | rfl | simp

@[simp] theorem Dev.stc_fill (d : Dev) (q id off w : Nat) : (Dev.fill d q id off w).stc = d.stc := by
  (unfold Dev.fill; (try simp only []); repeat' split) <;> rfl

@[simp] theorem Dev.stc_fillAll (d : Dev) (q id off : Nat) (ws : List Nat) : (Dev.fillAll d q id off ws).stc = d.stc := by
  induction ws generalizing d off with
  | nil => rfl
  | cons w ws ih => rw [Dev.fillAll, ih]; simp

@[simp] theorem Dev.stc_modQu (d : Dev) (q : Nat) (f : Queue → Queue) : (Dev.modQu d q f).stc = d.stc := Dev.stc_of_eq _ _ (by rfl)

@[simp] theorem Dev.stc_putGap (d : Dev) (q : Nat) : (Dev.putGap d q).stc = d.stc := by
  (unfold Dev.putGap; (try simp only []); repeat' split) <;> rfl

@[simp] theorem Dev.stc_wrap (d : Dev) (o : Obj) (u : Nat) (w n : Nat) : (Dev.wrap d o u w n).stc = d.stc := Dev.stc_of_eq _ _ (by rfl)

@[simp] theorem Dev.stc_injHit (d : Dev) (real : Bool) : (Dev.injHit d real).stc = d.stc := by
  (unfold Dev.injHit; (try simp only []); repeat' split) <;> rfl

@[simp] theorem Dev.stc_reportInj (d : Dev) (code unit detail inj : Nat) : (Dev.reportInj d code unit detail inj).stc = d.stc := Dev.stc_of_eq _ _ (by rfl)

@[simp] theorem Dev.stc_qCheck (d : Dev) (q : Nat) : (Dev.qCheck d q).stc = d.stc := by
  (unfold Dev.qCheck; (try simp only []); repeat' split) <;> first | rfl | simp

@[simp] theorem Dev.stc_reserve (d0 : Dev) (q c n : Nat) : (Dev.reserve d0 q c n).stc = d0.stc := by
  (unfold Dev.reserve; (try simp only []); repeat' split) <;> first | rfl | simp

@[simp] theorem Dev.stc_injClose (d : Dev) (u : Nat) : (Dev.injClose d u).stc = d.stc := by
  (unfold Dev.injClose; (try simp only []); repeat' split) <;> first | rfl | simp

@[simp] theorem Dev.stc_injEnd (d : Dev) (u st : Nat) : (Dev.injEnd d u st).stc = d.stc := by
  (unfold Dev.injEnd; (try simp only []); repeat' split) <;> first | rfl | simp

@[simp] theorem Dev.stc_modHe (d : Dev) (h : Nat) (f : Hearth → Hearth) : (Dev.modHe d h f).stc = d.stc := Dev.stc_of_eq _ _ (by rfl)

@[simp] theorem Dev.stc_ilUpdate (d : Dev) (u : Nat) : (Dev.ilUpdate d u).stc = d.stc := by
  (unfold Dev.ilUpdate; (try simp only []); repeat' split) <;> rfl

@[simp] theorem Dev.stc_raiseC (d : Dev) (src : Nat) (c : Cause) : (Dev.raiseC d src c).stc = d.stc := by
  unfold Dev.raiseC
  dsimp only
  split
  · rfl
  · split
    · simp
    · simp; exact Dev.stc_of_eq _ _ rfl

@[simp] theorem Dev.stc_leaveReg (d : Dev) (u : Nat) (c : Cause) : (Dev.leaveReg d u c).stc = d.stc := by
  unfold Dev.leaveReg
  dsimp only
  have h : ∀ e : Dev, (e.modCtl u Ctl.rest).stc = e.stc := fun e => Dev.stc_modCtl e u _ rfl
  repeat' split
  all_goals simp only [Dev.stc_ilUpdate, h, Dev.stc_raiseC]

@[simp] theorem Dev.stc_dropItem (d : Dev) (q : Nat) (c : Option Nat) (causes : Nat) : (Dev.dropItem d q c causes).stc = d.stc := by
  (unfold Dev.dropItem; (try simp only []); repeat' split) <;> rfl

@[simp] theorem Dev.stc_putWords (d : Dev) (q : Queue) (p : Nat) (ws : List Nat) : (Dev.putWords d q p ws).stc = d.stc := by
  induction ws generalizing d p with
  | nil => rfl
  | cons w ws ih => rw [Dev.putWords, ih]; simp

@[simp] theorem Dev.stc_place (d : Dev) (q : Nat) (c : Option Nat) (ws : List Nat) : (Dev.place d q c ws).stc = d.stc := by
  (unfold Dev.place; (try simp only []); repeat' split) <;> first | rfl | simp

@[simp] theorem Dev.stc_append (d0 : Dev) (q : Nat) (c : Option Nat) (ws : List Nat) (by_ : Cause) : (Dev.append d0 q c ws by_).stc = d0.stc := by
  (unfold Dev.append; (try simp only []); repeat' split) <;> first | rfl | simp

@[simp] theorem Dev.stc_stage (d : Dev) (stove : Option Nat) (x : Queue) (p s : Nat) : (Dev.stage d stove x p s).stc = d.stc := by
  (unfold Dev.stage; (try simp only []); repeat' split) <;> rfl

@[simp] theorem Dev.stc_serveStaged (d : Dev) : (Dev.serveStaged d).stc = d.stc := by
  unfold Dev.serveStaged
  apply Dev.stc_foldl
  intro e b
  split
  · rfl
  · rename_i k _
    exact (Dev.stc_of_eq _ (e.modSt k fun x => { x with staged := x.staged.tail }) rfl).trans (Dev.stc_modSt e _ _)

@[simp] theorem Dev.stc_serveFor (d : Dev) (n : Nat) : (Dev.serveFor d n).stc = d.stc := by
  induction n generalizing d with
  | zero => rfl
  | succ n ih => unfold Dev.serveFor; split; · rfl
                 · rw [ih]; simp

@[simp] theorem Dev.stc_staging (d : Dev) : (Dev.staging d).stc = d.stc :=
  (Dev.stc_of_eq _ _ rfl).trans (Dev.stc_serveFor d _)

@[simp] theorem Dev.stc_packet (d0 : Dev) (q c : Nat) (u : Option Nat) (ws : List Nat) : (Dev.packet d0 q c u ws).stc = d0.stc := by
  (unfold Dev.packet; (try simp only []); repeat' split) <;> first | rfl | simp

@[simp] theorem Dev.stc_notifyPort (d : Dev) (p kind unit w1 w5 : Nat) : (Dev.notifyPort d p kind unit w1 w5).stc = d.stc := by
  (unfold Dev.notifyPort; (try simp only []); repeat' split) <;> first | rfl | simp

@[simp] theorem Dev.stc_notifyOwner (d : Dev) (u kind w1 w5 : Nat) : (Dev.notifyOwner d u kind w1 w5).stc = d.stc := by
  (unfold Dev.notifyOwner; (try simp only []); repeat' split) <;> first | rfl | simp

@[simp] theorem Dev.stc_modSq (d : Dev) (u : Nat) (f : Seq → Seq) : (Dev.modSq d u f).stc = d.stc := Dev.stc_of_eq _ _ (by rfl)

@[simp] theorem Dev.stc_setTarget (d : Dev) (u : Nat) (x : Int) : (Dev.setTarget d u x).stc = d.stc := by
  unfold Dev.setTarget; simp

@[simp] theorem Dev.stc_syncTarget (d : Dev) (u m : Nat) : (Dev.syncTarget d u m).stc = d.stc := by
  unfold Dev.syncTarget
  split <;> simp

@[simp] theorem Dev.stc_seqHalt (d : Dev) (u : Nat) (st : SqState) : (Dev.seqHalt d u st).stc = d.stc := by
  (unfold Dev.seqHalt; (try simp only []); repeat' split) <;> first | rfl | simp

@[simp] theorem Dev.stc_seqStop (d : Dev) (u : Nat) : (Dev.seqStop d u).stc = d.stc := by
  (unfold Dev.seqStop; (try simp only []); repeat' split) <;> first | rfl | simp

@[simp] theorem Dev.stc_hsFlag (d : Dev) (h b : Nat) : (Dev.hsFlag d h b).stc = d.stc := Dev.stc_of_eq _ _ (by rfl)

@[simp] theorem Dev.stc_raise (d : Dev) (src : Nat) : (Dev.raise d src).stc = d.stc := by
  (unfold Dev.raise; (try simp only []); repeat' split) <;> first | rfl | simp

@[simp] theorem Dev.stc_degrade (d : Dev) (h : Nat) : (Dev.degrade d h).stc = d.stc := by
  (unfold Dev.degrade; (try simp only []); repeat' split) <;> first | rfl | simp

@[simp] theorem Dev.stc_undegrade (d : Dev) (h : Nat) : (Dev.undegrade d h).stc = d.stc := by
  (unfold Dev.undegrade; (try simp only []); repeat' split) <;> rfl

@[simp] theorem Dev.stc_watchCuts (d : Dev) : (Dev.watchCuts d).stc = d.stc := by
  (unfold Dev.watchCuts; (try simp only []); repeat' split) <;> first | rfl | simp

@[simp] theorem Dev.stc_seqResume (d : Dev) (u : Nat) : (Dev.seqResume d u).stc = d.stc := by
  (unfold Dev.seqResume; (try simp only []); repeat' split) <;> rfl

@[simp] theorem Dev.stc_rejoin (d : Dev) (u : Nat) : (Dev.rejoin d u).stc = d.stc := by
  (unfold Dev.rejoin; (try simp only []); repeat' split) <;> rfl

@[simp] theorem Dev.stc_hearthOff (d : Dev) (h : Nat) : (Dev.hearthOff d h).stc = d.stc := by
  (unfold Dev.hearthOff; (try simp only []); repeat' split) <;> first | rfl | simp

@[simp] theorem Dev.stc_seqPause (d : Dev) (u : Nat) : (Dev.seqPause d u).stc = d.stc := by
  (unfold Dev.seqPause; (try simp only []); repeat' split) <;> first | rfl | simp

@[simp] theorem Dev.stc_say (d : Dev) (x : Status) : (Dev.say d x).stc = d.stc := Dev.stc_of_eq _ _ (by rfl)

@[simp] theorem Dev.stc_modTb (d : Dev) (t : Nat) (f : TimeBase → TimeBase) : (Dev.modTb d t f).stc = d.stc := Dev.stc_of_eq _ _ (by rfl)

@[simp] theorem Dev.stc_advCc (d : Dev) (k : Nat) : (Dev.advCc d k).stc = d.stc := by
  (unfold Dev.advCc; (try simp only []); repeat' split) <;> rfl

@[simp] theorem Dev.stc_leavesOut (d : Dev) (h : Nat) (us : List Nat) : (Dev.leavesOut d h us).stc = d.stc := by
  (unfold Dev.leavesOut; (try simp only []); repeat' split) <;> first | rfl | simp

@[simp] theorem Dev.stc_seqRaise (d : Dev) (u e : Nat) : (Dev.seqRaise d u e).stc = d.stc := by
  (unfold Dev.seqRaise; (try simp only []); repeat' split) <;> first | rfl | simp

@[simp] theorem Dev.stc_seqError (d : Dev) (u e : Nat) : (Dev.seqError d u e).stc = d.stc := by
  (unfold Dev.seqError; (try simp only []); repeat' split) <;> first | rfl | simp

@[simp] theorem Dev.stc_seqFail (d : Dev) (u e : Nat) : (Dev.seqFail d u e).stc = d.stc := by
  (unfold Dev.seqFail; (try simp only []); repeat' split) <;> first | rfl | simp

@[simp] theorem Dev.stc_modConv (d : Dev) (k c : Nat) (f : Conv → Conv) : (Dev.modConv d k c f).stc = d.stc := Dev.stc_of_eq _ _ (by rfl)

@[simp] theorem Dev.stc_needSpare (d : Dev) (k r : Nat) : (Dev.needSpare d k r).stc = d.stc := Dev.stc_of_eq _ _ (by rfl)


theorem Dev.stc_modCtl_st (d : Dev) (u : Nat) (x : ChState) :
    (d.modCtl u fun c => { c with st := x }).stc = (fun v => if v = u then x else d.stc.1 v, d.stc.2) := by
  refine Prod.ext ?_ rfl
  funext v
  show ((d.modCtl u fun c => { c with st := x }).ch v).ctl.st = _
  unfold Dev.stc Dev.modCtl Dev.modCh Dev.setCh Dev.ch
  by_cases e : v = u
  · subst e; simp [SMap.get_ins_same]
  · simp [SMap.get_ins_other _ _ _ _ _ e, e]

/-- Only the channel itself changes state. -/
theorem Dev.stc_setChState (d : Dev) (u : Nat) (x : ChState) :
    (d.setChState u x).stc = (fun v => if v = u then x else d.stc.1 v, d.stc.2) := by
  unfold Dev.setChState
  dsimp only
  split
  · rename_i h
    refine Prod.ext ?_ rfl
    funext v
    by_cases e : v = u
    · subst e; simp only [if_true]; exact h
    · simp [e]
  · rw [Dev.stc_notifyOwner, Dev.stc_modCtl_st]

/-- A channel without a calibration run of its own leaves any run as it is. -/
theorem Dev.crStateLeft_none (d : Dev) (u : Nat) (x : ChState) (h : d.crOf u = none) : d.crStateLeft u x = d := by
  unfold Dev.crStateLeft
  unfold Dev.crOf at h
  split
  · rename_i r hr
    rw [hr] at h
    by_cases e : r.u = u
    · simp [e] at h
    · simp [e]
  · rfl

theorem Dev.crOf_of_stc (d e : Dev) (u : Nat) (h : d.stc.2 = e.stc.2) : d.crOf u = e.crOf u := by
  unfold Dev.crOf
  change d.cr = e.cr at h
  rw [h]

/-- A channel that enters a state is in it, and no other channel changes its state. -/
theorem Dev.stc_enter (d : Dev) (u : Nat) (x : ChState) (c : Cause) (hc : d.crOf u = none) :
    (d.enter u x c).stc = (fun v => if v = u then x else d.stc.1 v, d.stc.2) := by
  unfold Dev.enter
  dsimp only
  split
  · rename_i h
    refine Prod.ext ?_ rfl
    funext v
    by_cases e : v = u
    · subst e; simp only [if_true]; exact h
    · simp [e]
  · have h1 : ∀ e : Dev, (e.modCtl u Ctl.rest).stc = e.stc := fun e => Dev.stc_modCtl e u _ rfl
    have h : ∀ e : Dev, (if (d.ch u).ctl.st.reg && !x.reg then Dev.leaveReg e u c else e).stc = e.stc := by
      intro e; split <;> simp
    have h2 : ∀ e : Dev, (if (d.ch u).ctl.st = .source && x ≠ .source then Dev.injEnd e u 3 else e).stc = e.stc := by
      intro e; split <;> simp
    have key : ∀ e : Dev, e.stc = (fun v => if v = u then x else d.stc.1 v, d.stc.2) →
        (e.crStateLeft u x).stc = (fun v => if v = u then x else d.stc.1 v, d.stc.2) := by
      intro e he
      rw [Dev.crStateLeft_none]
      · exact he
      · rw [Dev.crOf_of_stc e d u (by rw [he]), hc]
    apply key
    cases x
    case source =>
      dsimp only
      split <;> simp only [Dev.stc_modCtl, Dev.stc_modMeas, Dev.stc_apEnter, h, h2, Dev.stc_setChState]
    all_goals simp only [Dev.stc_ftAbortIf, Dev.stc_raiseC, Dev.stc_modRng, Dev.stc_acqCut, Dev.stc_modMeas, Dev.stc_apEnter,
      h, h2, Dev.stc_setChState]

/-- A channel that is fenced is Fenced, and no other channel changes its state. -/
theorem Dev.stc_fenceCh (d : Dev) (u : Nat) (c : Cause) (hc : d.crOf u = none) :
    (d.fenceCh u c).stc = (fun v => if v = u then .fenced else d.stc.1 v, d.stc.2) := by
  unfold Dev.fenceCh
  dsimp only
  split
  · rename_i h
    refine Prod.ext ?_ rfl
    funext v
    by_cases e : v = u
    · subst e; simp only [if_true]; exact h
    · simp [e]
  · have h1 : (d.seqFail u 9).crOf u = none := by rw [Dev.crOf_of_stc _ d u (by rw [Dev.stc_seqFail]), hc]
    have h2 : ((d.seqFail u 9).enter u .fenced c).stc = (fun v => if v = u then .fenced else d.stc.1 v, d.stc.2) := by
      rw [Dev.stc_enter _ _ _ _ h1, Dev.stc_seqFail]
    split
    · rw [Dev.stc_leavesOut, h2]
    · exact h2

/-- A lost-feedback detection fences the channel alone. -/
theorem Dev.stc_lostFeedback (d : Dev) (u flag code detail : Nat) (hc : d.crOf u = none) :
    (d.lostFeedback u flag code detail).stc = (fun v => if v = u then .fenced else d.stc.1 v, d.stc.2) := by
  unfold Dev.lostFeedback
  rw [Dev.stc_report, Dev.stc_modCtl _ u (fun c => c.flagIf flag true) (Ctl.flagIf_st _ _ _), Dev.stc_fenceCh _ _ _ hc]

end Sys2Proof.Machine
end

