-- ==== Sys2Proof/Laws/Coefficients.lean ====
section
/-! SUPPORT. Storing a coefficient, of a hearth on its leaves as well. -/

namespace Sys2Proof.Machine

open Sys2Proof

theorem Dev.ffAdvance_phys (d : Dev) (u : Nat) (hu : u < 256) :
    d.ffAdvance u = if d.flag C.FF_AUTOINC u then d.wr C.FF_SEL u (ffNext (d.rdN C.FF_SEL u) : Nat) else d := by
  unfold Dev.ffAdvance Dev.storeCh Dev.store
  dsimp only
  split
  · rw [if_neg (by simp; omega)]; rfl
  · rfl

theorem Dev.leaves_of_members (d e : Dev) (h : ∀ u i, d.rdi C.MEMBER u i = e.rdi C.MEMBER u i) : d.leaves = e.leaves := by
  have hm : d.members = e.members := by
    funext u; unfold Dev.members Dev.member Dev.rdiN; simp only [h]
  funext u
  unfold Dev.leaves
  have : ∀ n v, d.leavesAux n v = e.leavesAux n v := by
    intro n
    induction n with
    | zero => intro v; rfl
    | succ n ih => intro v; unfold Dev.leavesAux; rw [hm]; simp only [ih]
  exact this 4 u

theorem foldl_noteOld (l : List Nat) (o : Obj) (i : Nat) (d : Dev) :
    (l.foldl (fun e l => e.noteOld o l i) d).rdi = d.rdi ∧ (l.foldl (fun e l => e.noteOld o l i) d).ch = d.ch ∧
    (l.foldl (fun e l => e.noteOld o l i) d).leaves = d.leaves := by
  have h1 : (l.foldl (fun e l => e.noteOld o l i) d).rdi = d.rdi := foldl_keep Dev.rdi (fun e l => e.noteOld o l i) (fun _ _ => rfl) l d
  refine ⟨h1, foldl_keep Dev.ch (fun e l => e.noteOld o l i) (fun _ _ => rfl) l d, ?_⟩
  exact Dev.leaves_of_members _ _ (fun u i => by rw [h1])

theorem coefEffect_rdi (d : Dev) (o : Obj) (u : Nat) (v : Int) : (d.coefEffect o u v).rdi = d.rdi := by
  unfold Dev.coefEffect
  split
  · dsimp only; split <;> simp
  · split
    · exact foldl_keep Dev.rdi (fun e l => e.modCtl l fun c => { c with band := v }) (fun _ _ => by simp) _ d
    · split
      · exact foldl_keep Dev.rdi (fun e l => e.modCtl l fun c => { c with locked := false }) (fun _ _ => by simp) _ d
      · rfl

theorem coefEffect_ch (d : Dev) (o : Obj) (u : Nat) (v : Int) (w : Nat) :
    ((d.coefEffect o u v).ch w).ctl.st = (d.ch w).ctl.st ∧ ((d.coefEffect o u v).ch w).meas = (d.ch w).meas := by
  have key : ∀ (e : Dev) (l : Nat) (f : Ctl → Ctl), (∀ c, (f c).st = c.st) →
      ((e.modCtl l f).ch w).ctl.st = (e.ch w).ctl.st ∧ ((e.modCtl l f).ch w).meas = (e.ch w).meas := by
    intro e l f hf
    by_cases h : w = l
    · subst h; simp [hf]
    · rw [Dev.ch_modCtl_other _ _ _ _ h]; exact ⟨rfl, rfl⟩
  have kf : ∀ (ls : List Nat) (f : Ctl → Ctl), (∀ c, (f c).st = c.st) → ∀ e : Dev,
      ((ls.foldl (fun e l => e.modCtl l f) e).ch w).ctl.st = (e.ch w).ctl.st ∧
      ((ls.foldl (fun e l => e.modCtl l f) e).ch w).meas = (e.ch w).meas := by
    intro ls f hf
    induction ls with
    | nil => intro e; exact ⟨rfl, rfl⟩
    | cons a ls ih =>
      intro e
      rw [List.foldl_cons]
      obtain ⟨a1, a2⟩ := ih (e.modCtl a f)
      obtain ⟨b1, b2⟩ := key e a f hf
      exact ⟨a1.trans b1, a2.trans b2⟩
  unfold Dev.coefEffect
  split
  · dsimp only
    split
    · refine (key _ _ _ ?_).imp (fun h => h.trans (by simp)) (fun h => h.trans (by simp)); intro c; rfl
    · exact key _ _ _ (fun c => rfl)
  · split
    · exact kf _ (fun c => { c with band := v }) (fun c => rfl) d
    · split
      · exact kf _ (fun c => { c with locked := false }) (fun c => rfl) d
      · exact ⟨rfl, rfl⟩

theorem coefEffect_tgt (d : Dev) (u : Nat) (v : Int) :
    ((d.coefEffect C.SETPOINT u v).ch u).ctl.tgt = if (d.ch u).ctl.st = .hold then (d.ch u).ctl.tgt else v := by
  unfold Dev.coefEffect
  rw [if_pos rfl]
  dsimp only
  split <;> simp

theorem storeCh_ch (d : Dev) (o : Obj) (u i : Nat) (v : Int) : (d.storeCh o u i v).ch = d.ch := by
  unfold Dev.storeCh
  dsimp only
  split
  · exact foldl_keep Dev.ch (fun e l => e.store o l i v) (fun _ _ => rfl) _ _
  · rfl

theorem foldl_store_other (ls : List Nat) (o o' : Obj) (i u' i' : Nat) (v : Int) (h : ∀ w, o'.key u' i' ≠ o.key w i) (d : Dev) :
    (ls.foldl (fun e l => e.store o l i v) d).rdi o' u' i' = d.rdi o' u' i' :=
  foldl_keep (fun e : Dev => e.rdi o' u' i') (fun e l => e.store o l i v) (fun a b => Dev.rdi_wri_other _ _ _ _ _ _ _ _ (h b)) ls d

theorem storeCh_other (d : Dev) (o o' : Obj) (u i u' i' : Nat) (v : Int) (h : ∀ w, o'.key u' i' ≠ o.key w i) :
    (d.storeCh o u i v).rdi o' u' i' = d.rdi o' u' i' := by
  unfold Dev.storeCh
  dsimp only
  have h1 : (d.store o u i v).rdi o' u' i' = d.rdi o' u' i' := Dev.rdi_wri_other _ _ _ _ _ _ _ _ (h u)
  split
  · rw [foldl_store_other _ _ _ _ _ _ _ h, h1]
  · exact h1

theorem coef_kept : ∀ o ∈ objectsC, isCoef o = true → (∀ x y v, o.dom.kept x v = o.dom.kept y v) ∧
    o.off ≠ 0x39 ∧ o.off ≠ 0x38 := by
  intro o ho hc
  have h : ∀ o ∈ objectsC, isCoef o = true → (match o.dom with | .w1c _ => false | _ => true) = true ∧ o.off ≠ 0x39 ∧ o.off ≠ 0x38 := by
    decide +kernel
  obtain ⟨h1, h2⟩ := h o ho hc
  refine ⟨?_, h2⟩
  intro x y v
  cases hd : o.dom <;> simp [hd] at h1 <;> simp [Dom.kept]

theorem leaves_lt (d : Dev) (n v : Nat) : ∀ l ∈ d.leavesAux n v, l < 256 := by
  induction n generalizing v with
  | zero =>
    intro l hl
    unfold Dev.leavesAux at hl
    split at hl
    · simp at hl; omega
    · simp at hl
  | succ n ih =>
    intro l hl
    unfold Dev.leavesAux at hl
    split at hl
    · simp at hl; omega
    · rw [List.mem_flatMap] at hl
      obtain ⟨em, _, h⟩ := hl
      exact ih _ _ h

theorem foldl_store_mem (o : Obj) (i l : Nat) (v : Int) (hk : ∀ x y, o.dom.kept x v = o.dom.kept y v) (x : Int)
    (hinj : ∀ a b, a ≠ b → o.key a i ≠ o.key b i) (ls : List Nat) (d : Dev) (h : l ∈ ls ∨ d.rdi o l i = o.dom.kept x v) :
    (ls.foldl (fun e l => e.store o l i v) d).rdi o l i = o.dom.kept x v := by
  induction ls generalizing d with
  | nil =>
    rcases h with h | h
    · simp at h
    · exact h
  | cons a ls ih =>
    rw [List.foldl_cons]
    apply ih
    by_cases e : l = a
    · subst e
      right
      unfold Dev.store
      rw [Dev.rdi_wri_same, hk _ x]
    · rcases h with h | h
      · left; simpa [e] using h
      · right
        unfold Dev.store
        rw [Dev.rdi_wri_other _ _ _ _ _ _ _ _ (hinj _ _ e)]
        exact h

end Sys2Proof.Machine
end

