-- ==== Sys2Proof/Laws/Ranges.lean ====
section
/-! SUPPORT. Range requests and the start of a transfer. -/

namespace Sys2Proof.Machine

open Sys2Proof

theorem Dev.hearthsIn_phys (d : Dev) (u : Nat) (h : u < 256) : d.hearthsIn u = [] := by
  unfold Dev.hearthsIn Dev.hearthsAux; simp [h]

theorem Dev.followLeader_phys (d : Dev) (u : Nat) (h : u < 256) : d.followLeader u = d := by
  unfold Dev.followLeader; rw [Dev.hearthsIn_phys _ _ h]; rfl

theorem Dev.ch_modRng_other (d : Dev) (u v : Nat) (b : Bool) (f : Rng → Rng) (h : v ≠ u) : (d.modRng u b f).ch v = d.ch v :=
  Dev.ch_modCh_other _ _ _ _ h

/-- A change of one variable asked of a physical channel: the requested range is set, and the change waits (R93–R97, R104). -/
theorem Dev.rngAsk_eq (d : Dev) (u : Nat) (volt : Bool) (j : Nat) (auto_ up : Bool) :
    (d.rngAsk u volt j auto_ up).rd (oRange volt) u = j ∧
    ((d.rngAsk u volt j auto_ up).ch u).rng volt =
      (if ((d.ch u).rng volt).ph.busy then { (d.ch u).rng volt with held := some j, deferred := none }
      else if j = ((d.ch u).rng volt).now then { (d.ch u).rng volt with ph := .steady, deferred := none }
      else if d.heldBack u auto_ then { (d.ch u).rng volt with deferred := some (j, up) }
      else { (d.ch u).rng volt with ph := .pending j, deferred := none }) ∧
    (d.rngAsk u volt j auto_ up).outside = d.outside ∧ ∀ v, v ≠ u → (d.rngAsk u volt j auto_ up).ch v = d.ch v := by
  unfold Dev.rngAsk
  dsimp only
  cases hb : ((d.ch u).rng volt).ph.busy <;> by_cases hj : j = ((d.ch u).rng volt).now <;> cases hh : d.heldBack u auto_ <;>
    refine ⟨?_, ?_, ?_, ?_⟩ <;> simp [hj, hb, Rng.ask, Rng.defer] <;>
    (try (simp [← hj, hb, Rng.ask, Rng.defer])) <;>
    (try (intro v hv; rw [Dev.ch_modRng_other _ _ _ _ _ hv]; simp))

theorem Dev.rng_modRng (d : Dev) (u v : Nat) (b b' : Bool) (f : Rng → Rng) :
    ((d.modRng u b f).ch v).rng b' = if v = u ∧ b' = b then f ((d.ch v).rng b') else (d.ch v).rng b' := by
  by_cases h : v = u
  · subst h
    cases b <;> cases b' <;> simp [Dev.modRng, Chan.rng]
  · rw [Dev.ch_modRng_other _ _ _ _ _ h]; simp [h]

theorem Dev.eachRng_rng (d : Dev) (k : Nat) (f : Rng → Rng) (v : Nat) (volt : Bool) :
    ((d.eachRng k f).ch v).rng volt = if stoveOf v = k then f ((d.ch v).rng volt) else (d.ch v).rng volt := by
  unfold Dev.eachRng
  have key : ∀ (n : Nat) , n ≤ 16 → 
      ((((List.range n).foldl (fun e p => (e.modRng (16 * k + p) false f).modRng (16 * k + p) true f) d).ch v).rng volt) =
      if 16 * k ≤ v ∧ v < 16 * k + n then f ((d.ch v).rng volt) else (d.ch v).rng volt := by
    intro n
    induction n with
    | zero => intro _; simp; try omega
    | succ n ih =>
      intro hn
      rw [List.range_succ, List.foldl_append, List.foldl_cons, List.foldl_nil]
      simp only [Dev.rng_modRng]
      rw [ih (by omega)]
      by_cases h : v = 16 * k + n
      · subst h
        cases volt <;> simp
      · have e1 : (16 * k ≤ v ∧ v < 16 * k + (n + 1)) ↔ (16 * k ≤ v ∧ v < 16 * k + n) := by omega
        simp [h, e1]
  rw [key 16 (by omega)]
  unfold stoveOf
  have : (16 * k ≤ v ∧ v < 16 * k + 16) ↔ v / 16 = k := by omega
  simp [this]

theorem Dev.eachRng_keep {γ : Type} (g : Dev → γ) (h : ∀ e u b f, g (Dev.modRng e u b f) = g e) (d : Dev) (k : Nat) (f : Rng → Rng) :
    g (d.eachRng k f) = g d := by
  unfold Dev.eachRng
  apply foldl_keep g
  intro a b; rw [h, h]

theorem Dev.stovePatterns_of (d e : Dev) (k : Nat) (init : Bool) (h1 : d.dict = e.dict) (h2 : d.chans = e.chans) :
    d.stovePatterns k init = e.stovePatterns k init := by
  unfold Dev.stovePatterns Dev.chPattern Dev.varPattern Dev.pattern Dev.rdiN Dev.rdi Dev.ch
  rw [h1, h2]

theorem Dev.stovePatterns_modSt (d : Dev) (k m : Nat) (f : Stove → Stove) (init : Bool) :
    (d.modSt k f).stovePatterns m init = d.stovePatterns m init := Dev.stovePatterns_of _ _ _ _ rfl rfl

/-- A transfer that starts. -/
theorem Dev.startTransfer_eq (d : Dev) (k : Nat) (init : Bool) :
    ((d.startTransfer k init).st k).link = { (d.st k).link with
      xfer := some { pats := (d.startTransfer k init).stovePatterns k init, again := false, init := init,
                     due := d.clk.cc + 10240 }, initDue := false } ∧
    (∀ v volt, ((d.startTransfer k init).ch v).rng volt = if (!init && decide (stoveOf v = k)) = true
      then ((d.ch v).rng volt).join else (d.ch v).rng volt) ∧
    (d.startTransfer k init).clk = d.clk ∧ (d.startTransfer k init).dict = d.dict ∧
    ∀ m, m ≠ k → (d.startTransfer k init).st m = d.st m := by
  have e : ∃ d1 : Dev, d1 = (if init then d else d.eachRng k Rng.join) := ⟨_, rfl⟩
  obtain ⟨d1, hd1⟩ := e
  have hst : d1.st = d.st := by
    rw [hd1]; split
    · rfl
    · exact Dev.eachRng_keep Dev.st (fun e u b f => by simp) _ _ _
  have hck : d1.clk = d.clk := by
    rw [hd1]; split
    · rfl
    · exact Dev.eachRng_keep Dev.clk (fun e u b f => by simp) _ _ _
  have hdi : d1.dict = d.dict := by
    rw [hd1]; split
    · rfl
    · exact Dev.eachRng_keep Dev.dict (fun e u b f => by simp) _ _ _
  unfold Dev.startTransfer
  rw [← hd1]
  dsimp only
  refine ⟨?_, ?_, ?_, ?_, ?_⟩
  · rw [Dev.st_modSt_same, hst, hck]
    simp only [Dev.stovePatterns_modSt]
  · intro v volt
    have : ((d1.modSt k fun s => { s with link := { s.link with xfer := some { pats := d1.stovePatterns k init, again := false, init := init, due := d1.clk.cc + 10240 }, initDue := false } }).ch v) = d1.ch v := by simp
    rw [this, hd1]
    cases init
    · simp [Dev.eachRng_rng]
    · simp
  · simp [hck]
  · simp [hdi]
  · intro m hm; rw [Dev.st_modSt_other _ _ _ _ hm, hst]

end Sys2Proof.Machine
end

