-- ==== Sys2Proof/Laws/Samples.lean ====
section
/-! SUPPORT. What the correction stage leaves for the consumers of a sample. -/

namespace Sys2Proof.Machine

open Sys2Proof

@[simp] theorem Dev.meas_modCtl' (d : Dev) (u v : Nat) (f : Ctl → Ctl) : ((d.modCtl u f).ch v).meas = (d.ch v).meas := by
  by_cases h : v = u
  · subst h; simp
  · rw [Dev.ch_modCtl_other _ _ _ _ h]
@[simp] theorem Dev.chans_putBus (d : Dev) (u n : Nat) (w : Option Int) : (d.putBus u n w).chans = d.chans := by
  unfold Dev.putBus; dsimp only; split <;> simp
@[simp] theorem Dev.clk_putBus (d : Dev) (u n : Nat) (w : Option Int) : (d.putBus u n w).clk = d.clk := by
  unfold Dev.putBus; dsimp only; split <;> simp
theorem Dev.ch_of_chans (d e : Dev) (h : d.chans = e.chans) : d.ch = e.ch := by
  funext v; unfold Dev.ch; rw [h]
@[simp] theorem Dev.ch_putBus (d : Dev) (u n : Nat) (w : Option Int) : (d.putBus u n w).ch = d.ch := 
  Dev.ch_of_chans _ _ (Dev.chans_putBus _ _ _ _)
@[simp] theorem Dev.meas_missed (d : Dev) (u v n c : Nat) : ((d.missed u n c).ch v).meas = (d.ch v).meas := by
  unfold Dev.missed; dsimp only; split <;> simp
@[simp] theorem Dev.clk_missed (d : Dev) (u n c : Nat) : (d.missed u n c).clk = d.clk := by
  unfold Dev.missed; dsimp only; split <;> simp
@[simp] theorem Dev.meas_passOver (d : Dev) (u v : Nat) : ((d.passOver u).ch v).meas = (d.ch v).meas := by
  unfold Dev.passOver; split
  · rfl
  · split <;> simp
@[simp] theorem Dev.clk_passOver (d : Dev) (u : Nat) : (d.passOver u).clk = d.clk := by
  unfold Dev.passOver; split
  · rfl
  · split <;> simp
@[simp] theorem Dev.meas_feed (d : Dev) (u v n : Nat) (a b : Int) (x y : Bool) :
    ((d.feed u n a b x y).ch v).meas = (d.ch v).meas := by
  unfold Dev.feed; simp
theorem Dev.fresh_feed (d : Dev) (u n : Nat) (a b : Int) (x y : Bool) :
    ((d.feed u n a b x y).ch u).ctl.fresh = some n := by
  unfold Dev.feed; simp
@[simp] theorem Dev.clk_feed (d : Dev) (u n : Nat) (a b : Int) (x y : Bool) :
    (d.feed u n a b x y).clk = d.clk := by
  unfold Dev.feed; simp
theorem Dev.consume_meas (d : Dev) (m : Mem) (u n : Nat) (yV yI cV cI : Int) (fV fI : Nat) (swap : Bool) :
    let x := ((d.consume m u n yV yI cV cI fV fI swap).ch u).meas
    x.got = true ∧ x.edge = n ∧ x.yV = yV ∧ x.yI = yI ∧ x.cV = cV ∧ x.cI = cI ∧ x.stale = false := by
  unfold Dev.consume
  simp

end Sys2Proof.Machine
end

