-- ==== Sys2Proof/Laws/Apertures.lean ====
section
/-! SUPPORT. Ending an aperture, the auxiliary scan, and what a range change held back leaves alone. -/

namespace Sys2Proof.Machine

open Sys2Proof

theorem Dev.rangeAsk_phys (d : Dev) (u : Nat) (volt : Bool) (j : Nat) (a b : Bool) (hu : u < 256) :
    d.rangeAsk u volt j a b = d.rngAsk u volt j a b := by unfold Dev.rangeAsk; rw [if_pos hu]

@[simp] theorem Dev.meas_modRng (d : Dev) (u w : Nat) (b : Bool) (f : Rng → Rng) : ((d.modRng u b f).ch w).meas = (d.ch w).meas := by
  by_cases h : w = u
  · subst h; unfold Dev.modRng; rw [Dev.ch_modCh_same]; split <;> rfl
  · rw [Dev.ch_modRng_other _ _ _ _ _ h]

theorem Dev.rngAsk_calm (d : Dev) (u : Nat) (volt : Bool) (j : Nat) (a b : Bool) :
    (∀ w (o : Obj), o.apart C.I_RANGE 0 0 = true → o.apart C.V_RANGE 0 0 = true → (d.rngAsk u volt j a b).rd o w = d.rd o w) ∧
    (∀ w, ((d.rngAsk u volt j a b).ch w).meas = (d.ch w).meas) ∧ (d.rngAsk u volt j a b).clk = d.clk := by
  unfold Dev.rngAsk oRange
  dsimp only
  refine ⟨?_, ?_, ?_⟩
  · intro w o h1 h2
    cases volt <;> split <;> simp [Dev.rd_wr_apart _ _ _ _ _ _ h1, Dev.rd_wr_apart _ _ _ _ _ _ h2]
  · intro w; split <;> simp
  · split <;> simp

theorem Dev.releaseVar_calm (d : Dev) (u : Nat) (volt : Bool) (hu : u < 256) :
    (∀ w (o : Obj), o.apart C.I_RANGE 0 0 = true → o.apart C.V_RANGE 0 0 = true → (d.releaseVar u volt).rd o w = d.rd o w) ∧
    (∀ w, ((d.releaseVar u volt).ch w).meas = (d.ch w).meas) ∧ (d.releaseVar u volt).clk = d.clk := by
  unfold Dev.releaseVar
  dsimp only
  split
  · exact ⟨fun _ _ _ _ => rfl, fun _ => rfl, rfl⟩
  · split
    · refine ⟨fun _ _ _ _ => ?_, fun _ => ?_, ?_⟩ <;> simp
    · split
      · exact ⟨fun _ _ _ _ => rfl, fun _ => rfl, rfl⟩
      · rw [Dev.rangeAsk_phys _ _ _ _ _ _ hu]
        obtain ⟨h1, h2, h3⟩ := Dev.rngAsk_calm (d.modRng u volt fun r => { r with deferred := none }) u volt (by assumption) false false
        exact ⟨fun w o a b => (h1 w o a b).trans (by simp), fun w => (h2 w).trans (by simp), h3.trans (by simp)⟩

/-- Releasing what an aperture held back: other objects, the measurements and the clocks stay. -/
theorem Dev.releaseHeld_calm (d : Dev) (u : Nat) (hu : u < 256) :
    (∀ w (o : Obj), o.apart C.I_RANGE 0 0 = true → o.apart C.V_RANGE 0 0 = true → (d.releaseHeld u).rd o w = d.rd o w) ∧
    (∀ w, ((d.releaseHeld u).ch w).meas = (d.ch w).meas) ∧ (d.releaseHeld u).clk = d.clk := by
  unfold Dev.releaseHeld
  obtain ⟨a1, a2, a3⟩ := Dev.releaseVar_calm d u true hu
  obtain ⟨b1, b2, b3⟩ := Dev.releaseVar_calm (d.releaseVar u true) u false hu
  exact ⟨fun w o x y => (b1 w o x y).trans (a1 w o x y), fun w => (b2 w).trans (a2 w), b3.trans a3⟩

theorem Dev.rd_boundary (d : Dev) (u n w : Nat) (o : Obj) (h : o.apart C.T_APPLIED 0 0 = true) :
    (d.boundary u n).rd o w = d.rd o w := by
  unfold Dev.boundary
  split
  · rfl
  · apply foldl_keep (fun e : Dev => e.rd o w)
    intro a b
    unfold Dev.applyFactors
    split
    · rfl
    · simp [Dev.rd_wr_apart _ _ _ _ _ _ h]

theorem Dev.ap_boundary (d : Dev) (u n w : Nat) : ((d.boundary u n).ch w).meas.ap = (d.ch w).meas.ap := by
  unfold Dev.boundary
  split
  · rfl
  · apply foldl_keep (fun e : Dev => (e.ch w).meas.ap)
    intro a b
    unfold Dev.applyFactors
    split
    · rfl
    · rename_i f _
      by_cases hw : w = b
      · subst hw; simp
      · simp [Dev.ch_modMeas_other _ _ _ _ hw]

theorem Dev.clk_boundary (d : Dev) (u n : Nat) : (d.boundary u n).clk = d.clk := by
  unfold Dev.boundary
  split
  · rfl
  · apply foldl_keep (fun e : Dev => e.clk)
    intro a b
    unfold Dev.applyFactors
    split <;> simp

/-- A complete aperture of a physical channel published: what the result objects hold. -/
theorem Dev.endAperture_facts (d : Dev) (u : Nat) (a : Ap) (hu : u < 256) (ha : (d.ch u).meas.ap = some a) :
    (d.endAperture u).rd C.V_VALUE u = meanF32 a.sumV a.n (d.fs u true ((d.ch u).rngV.at a.edge0)) ∧
    (d.endAperture u).rd C.V_MFLAGS u = (a.flagV ||| 1 : Nat) ∧ (d.endAperture u).rd C.I_MFLAGS u = (a.flagI ||| 1 : Nat) ∧
    (d.endAperture u).rd C.V_COUNT u = (a.n % 2 ^ 32 : Nat) ∧ (d.endAperture u).rd C.I_COUNT u = (a.n % 2 ^ 32 : Nat) ∧
    (d.endAperture u).rd C.V_START u = a.start ∧ (d.endAperture u).rd C.I_START u = a.start ∧
    (d.endAperture u).rd C.V_SEQNO u = (d.rd C.V_SEQNO u + 1) % 2 ^ 32 ∧
    (d.endAperture u).rd C.I_SEQNO u = (d.rd C.I_SEQNO u + 1) % 2 ^ 32 ∧
    ((d.endAperture u).ch u).meas.ap = none ∧ (d.endAperture u).clk = d.clk := by
  have hrel : ∀ (e : Dev) (o : Obj), o.apart C.I_RANGE 0 0 = true → o.apart C.V_RANGE 0 0 = true →
      (e.releaseHeld u).rd o u = e.rd o u := fun e o h1 h2 => (Dev.releaseHeld_calm e u hu).1 u o h1 h2
  have hpub : ∀ (e : Dev) (o : Obj), o.apart C.T_APPLIED 0 0 = true →
      (e.publish u a).rd o u = ((e.publishVar u true a).publishVar u false a).rd o u := by
    intro e o h
    unfold Dev.publish
    dsimp only
    split
    · rw [Dev.rd_boundary _ _ _ _ _ h]; simp
    · simp
  have hE : d.endAperture u = (d.publish u a).releaseHeld u := by unfold Dev.endAperture; rw [ha]
  have hr2 : ((d.publishVar u true a).publishVar u false a).ch = d.ch := by unfold Dev.publishVar; simp
  rw [hE]
  refine ⟨?_, ?_, ?_, ?_, ?_, ?_, ?_, ?_, ?_, ?_, ?_⟩
  iterate 9
    · rw [hrel _ _ (by decide) (by decide), hpub _ _ (by decide)]
      unfold Dev.publishVar
      simp (disch := decide) only [Dev.rd_wr_apart, Dev.rd_wrap_apart, Dev.rd_wr_same, Dev.rd_wrap_same, Bool.false_eq_true, if_false, if_true]
      try rfl
  · rw [(Dev.releaseHeld_calm _ u hu).2.1]
    unfold Dev.publish
    dsimp only
    split
    · rw [Dev.ap_boundary]; rw [Dev.ch_modMeas_same]; unfold Meas.putAway; dsimp only; (repeat' split) <;> rfl
    · rw [Dev.ch_modMeas_same]; unfold Meas.putAway; dsimp only; (repeat' split) <;> rfl
  · rw [(Dev.releaseHeld_calm _ u hu).2.2]
    have hp : ∀ (e : Dev) v, (e.publishVar u v a).clk = e.clk := by intro e v; unfold Dev.publishVar; simp
    unfold Dev.publish
    simp only []
    generalize hq : (d.publishVar u true a).publishVar u false a = q
    have hc : q.clk = d.clk := by rw [← hq, hp, hp]
    split
    · rw [Dev.clk_boundary]; simp [hc]
    · simp [hc]

theorem stWs (e : Dev) (x : Status) : (e.watchCuts.say x).st = e.st := by simp

theorem Dev.auxValue_frame (d : Dev) (entry code : Nat) : (d.auxValue entry code).1.dict = d.dict ∧ (d.auxValue entry code).1.stoves = d.stoves ∧
    (d.auxValue entry code).1.chans = d.chans ∧ (d.auxValue entry code).1.clk = d.clk := by
  unfold Dev.auxValue; split <;> exact ⟨rfl, rfl, rfl, rfl⟩

theorem Dev.auxWatch_frame (d : Dev) (k entry code : Nat) (v : Int) : (d.auxWatch k entry code v).dict = d.dict ∧
    (d.auxWatch k entry code v).stoves = d.stoves ∧ (d.auxWatch k entry code v).chans = d.chans ∧ (d.auxWatch k entry code v).clk = d.clk := by
  unfold Dev.auxWatch; dsimp only; (repeat' split) <;> exact ⟨rfl, rfl, rfl, rfl⟩

end Sys2Proof.Machine
end

