-- ==== Sys2Proof/Laws/Commands.lean ====
section
/-! SUPPORT. What a channel command does to the states of the channels. -/

namespace Sys2Proof.Machine

open Sys2Proof

theorem Dev.stc_chDo (d : Dev) (u : Nat) (x : ChCmd) (y : ChState) (c : Cause) (hu : u < 256) (hc : d.crOf u = none)
    (hy : x.target = some y ∨ (x = .resume ∧ y = .source)) :
    (d.chDo u x false c).stc = (fun v => if v = u then y else d.stc.1 v, d.stc.2) := by
  have hcr : ∀ e : Dev, e.stc = d.stc → e.crOf u = none := by
    intro e h; rw [← hc]; exact Dev.crOf_of_stc _ _ _ (by rw [h])
  have key : ∀ (e : Dev) (z : ChState), e.stc = d.stc →
      (e.enterAll u z c).stc = (fun v => if v = u then z else d.stc.1 v, d.stc.2) := by
    intro e z he
    unfold Dev.enterAll
    rw [if_pos hu, Dev.stc_enter _ _ _ _ (hcr e he), he]
  cases x <;> simp [ChCmd.target] at hy <;> subst hy <;> unfold Dev.chDo
  · exact key _ _ (by simp)
  · exact key _ _ (by simp)
  · exact key _ _ rfl
  · exact key _ _ (by simp)
  · simp only [Dev.stc_seqResume]; exact key _ _ rfl
  · refine (Dev.stc_of_eq _ _ rfl).trans (key _ _ ?_)
    simp

end Sys2Proof.Machine
end

