-- ==== Sys2Proof/Laws/Control.lean ====
section
/-! SUPPORT. The parts of a slot: no generator, no injection, the edge and its landing, the decision. -/

namespace Sys2Proof.Machine

open Sys2Proof

theorem Dev.putBus_own (d : Dev) (u n : Nat) (w : Option Int) (h : d.isMember u = false) : d.putBus u n w = d := by
  unfold Dev.putBus; simp [h]
theorem Dev.injUnit_own (d : Dev) (u : Nat) (h : d.isMember u = false) : d.injUnit u = u := by
  unfold Dev.injUnit; simp [h]
theorem Dev.topOf_own (d : Dev) (u : Nat) (h : d.isMember u = false) : d.topOf u = u := by
  have h' : d.parentOf u = 0 := by simpa [Dev.isMember] using h
  simp [Dev.topOf, h']
theorem Dev.withOlds_none (d : Dev) (f : Dev → Dev) (h : d.olds.at_ ≠ d.clk.tick) : d.withOlds f = f d := by
  unfold Dev.withOlds; rw [if_pos h]
theorem Dev.syncTarget_none (d : Dev) (u m : Nat) (h : d.genTarget u m = none) : d.syncTarget u m = d := by
  unfold Dev.syncTarget; rw [h]
theorem Dev.injSample_off (d : Dev) (u n : Nat) (a b c : Int) (x y : Bool) (k : Nat) (h : (d.ch u).ctl.inj.on = false) :
    d.injSample u n a b c x y k = d := by
  unfold Dev.injSample; simp [Dev.injLive, h]

theorem Dev.slot_own (s : State) (u : Nat) (d : Dev) (hu : u < 256) (hd : d = s.found.reachSlot u s.found.clk.tick)
    (hm : d.isMember u = false) (hr : (d.ch u).ctl.regulating = true) (ho : d.olds.at_ ≠ d.clk.tick)
    (hg : d.genTarget u d.clk.tick = none) : s.found.engineSlot u = d.slotDecision u := by
  have hr' : (s.found.ch u).ctl.regulating = true := by rw [hd, Dev.reachSlot_eq] at hr; simpa using hr
  unfold Dev.engineSlot
  rw [if_neg (by simp [hr']; omega), ← hd, Dev.withOlds_none _ _ ho]
  dsimp only
  rw [Dev.syncTarget_none _ _ _ hg, Dev.topOf_own _ _ hm]
  simp

/-- the commanded state of a channel -/
def Dev.swc (d : Dev) (u : Nat) : Sw × Option Nat × Nat × Inj := ((d.ch u).ctl.sw, (d.ch u).ctl.fresh, (d.ch u).ctl.missRun, (d.ch u).ctl.inj)

theorem Dev.swc_modCtl (d : Dev) (u : Nat) (f : Ctl → Ctl) (h : ∀ c, (f c).sw = c.sw ∧ (f c).fresh = c.fresh ∧ (f c).missRun = c.missRun ∧ (f c).inj = c.inj) :
    (d.modCtl u f).swc u = d.swc u := by
  unfold Dev.swc; simp [h]

theorem Dev.swc_eq (d e : Dev) (u : Nat) (h : d.chans = e.chans) : d.swc u = e.swc u := by
  unfold Dev.swc Dev.ch; rw [h]

theorem Dev.swc_ilUpdate (d : Dev) (u : Nat) : (d.ilUpdate u).swc u = d.swc u := by
  apply Dev.swc_eq
  unfold Dev.ilUpdate; dsimp only; split
  · rfl
  · split <;> simp

theorem Dev.swc_oscPeriod (d : Dev) (u t : Nat) : (d.oscPeriod u t).swc u = d.swc u := by
  unfold Dev.oscPeriod; dsimp only; split
  · apply Dev.swc_modCtl; intro c; exact ⟨rfl, rfl, rfl, rfl⟩
  · apply Dev.swc_modCtl; intro c; exact ⟨rfl, rfl, rfl, rfl⟩

theorem Ctl.flagIf_fields (c : Ctl) (n : Nat) (b : Bool) : (c.flagIf n b).sw = c.sw ∧ (c.flagIf n b).fresh = c.fresh ∧ (c.flagIf n b).missRun = c.missRun ∧ (c.flagIf n b).inj = c.inj := by
  unfold Ctl.flagIf; split <;> exact ⟨rfl, rfl, rfl, rfl⟩

@[simp] theorem Ctl.edge_fields (c : Ctl) (t : Nat) : (c.edge t).sw = c.sw ∧ (c.edge t).fresh = c.fresh ∧ (c.edge t).missRun = c.missRun ∧ (c.edge t).inj = c.inj :=
  ⟨rfl, rfl, rfl, rfl⟩

theorem Dev.swc_land (d : Dev) (u t : Nat) : (d.land u t).swc u = d.swc u := by
  have hil : ∀ (e : Dev) il, (e.ilPeriod u il).swc u = e.swc u := by
    intro e il; unfold Dev.ilPeriod; split
    · rfl
    · rw [Dev.swc_ilUpdate, Dev.swc_modCtl]; intro c; exact ⟨rfl, rfl, rfl, rfl⟩
  have hlk : ∀ (e : Dev) x il, (e.lockPeriod u x il).swc u = e.swc u := by
    intro e x il; unfold Dev.lockPeriod; dsimp only; split <;> rw [Dev.swc_modCtl] <;> intro c
    · exact ⟨rfl, rfl, rfl, rfl⟩
    · exact Ctl.flagIf_fields _ _ _
  have h1 : ∀ e : Dev, (e.landHigh u t).swc u = e.swc u := by
    intro e
    have h2 : ∀ e : Dev, ((e.oscPeriod u t).modCtl u fun c => { c with highs := (t :: c.highs).take 17 }).swc u = e.swc u := by
      intro e
      rw [Dev.swc_modCtl _ _ _ (by intro c; exact ⟨rfl, rfl, rfl, rfl⟩), Dev.swc_oscPeriod]
    unfold Dev.landHigh; dsimp only; split
    · exact h2 e
    · rw [hlk, hil]; exact h2 e
  have h0 : (d.modCtl u fun c => c.edge t).swc u = d.swc u := Dev.swc_modCtl _ _ _ (fun c => Ctl.edge_fields c t)
  unfold Dev.land; dsimp only; split
  · rw [h1, h0]
  · exact h0

theorem Dev.swc_place (d : Dev) (u n t : Nat) (new : Sw) :
    (d.place_ u n t new).swc u = (new, (d.ch u).ctl.fresh, (d.ch u).ctl.missRun, (d.ch u).ctl.inj) := by
  have key : ∀ f : Ctl → Ctl, (∀ c, (f c).sw = new ∧ (f c).fresh = c.fresh ∧ (f c).missRun = c.missRun ∧ (f c).inj = c.inj) →
      (d.modCtl u f).swc u = (new, (d.ch u).ctl.fresh, (d.ch u).ctl.missRun, (d.ch u).ctl.inj) := by
    intro f hf; unfold Dev.swc; simp [hf]
  unfold Dev.place_
  dsimp only
  have hfl : ∀ (b : Bool) (c : Ctl), ({ c.flagIf fPulseClip b with sw := new }).sw = new ∧
      ({ c.flagIf fPulseClip b with sw := new }).fresh = c.fresh ∧ ({ c.flagIf fPulseClip b with sw := new }).missRun = c.missRun ∧ ({ c.flagIf fPulseClip b with sw := new }).inj = c.inj :=
    fun b c => ⟨rfl, (Ctl.flagIf_fields c _ b).2.1, (Ctl.flagIf_fields c _ b).2.2.1, (Ctl.flagIf_fields c _ b).2.2.2⟩
  split
  · apply key; intro c; exact ⟨rfl, rfl, rfl, rfl⟩
  · split
    · rw [Dev.swc_land]; exact key _ (hfl _)
    · rw [Dev.swc_modCtl _ _ _ (by intro c; exact ⟨rfl, rfl, rfl, rfl⟩)]; exact key _ (hfl _)

theorem predict_full (x : Int) (h : List Int) (hl : 4 ≤ h.length) : predict x h = predict 0 h := by
  match h, hl with
  | a :: b :: c :: e :: t, _ => rfl

theorem Dev.injLive_off (d : Dev) (u : Nat) (h : (d.ch u).ctl.inj.on = false) : d.injLive u = false := by
  simp [Dev.injLive, h]

theorem Dev.bandInj_off (d : Dev) (u : Nat) (h : (d.ch u).ctl.inj.on = false) (hm : d.isMember u = false) :
    d.bandInj u = (d.bandNow u, d.bandClamped u) := by
  simp [Dev.bandInj, Dev.inject, Dev.injLive_off d u h, hm]

theorem Dev.swc_flags (d : Dev) (u : Nat) (n : Nat) (b : Bool) : (d.modCtl u fun c => c.flagIf n b).swc u = d.swc u :=
  Dev.swc_modCtl _ _ _ fun c => Ctl.flagIf_fields c n b

theorem Ctl.decided_fields (c : Ctl) (w : Law) (x : Weighed) (a b : Bool) :
    (c.decided w x a b).sw = c.sw ∧ (c.decided w x a b).fresh = c.fresh ∧ (c.decided w x a b).missRun = 0 ∧
    (c.decided w x a b).inj = c.inj := by
  unfold Ctl.decided Ctl.flagIf
  refine ⟨?_, ?_, rfl, ?_⟩ <;> (dsimp only) <;> (repeat' split) <;> rfl

theorem Dev.swc_actOn (d : Dev) (u n : Nat) (x : Weighed) (x0 : Int) (hm : d.isMember u = false) (hk : d.rd C.STAGE_KIND u = 0)
    (hinj : (d.ch u).ctl.inj.on = false) :
    (d.actOn u n x x0).swc u = ((decideSw (d.ch u).ctl.sw x.err.1 x.err.2.1 x.band).getD (d.ch u).ctl.sw,
      (d.ch u).ctl.fresh, (d.ch u).ctl.missRun, (d.ch u).ctl.inj) := by
  have hI : ∀ e : Dev, (e.swc u).2.2.2 = (d.ch u).ctl.inj → (e.ch u).ctl.inj.on = false := by
    intro e h; rw [← hinj, ← h]; rfl
  unfold Dev.actOn
  dsimp only
  rw [if_neg (by simpa using hk)]
  split
  · rename_i h; rw [Dev.injUnit_own d u hm, Dev.injSample_off _ _ _ _ _ _ _ _ _ hinj, h]; rfl
  · rename_i new h
    have h1 : ∀ (f : Ctl → Ctl) t, (∀ c, (f c).fresh = c.fresh ∧ (f c).missRun = c.missRun ∧ (f c).inj = c.inj) →
        ((d.modCtl u f).place_ u n t new).swc u = (new, (d.ch u).ctl.fresh, (d.ch u).ctl.missRun, (d.ch u).ctl.inj) := by
      intro f t hf
      rw [Dev.swc_place]; simp [hf]
    rw [Dev.injUnit_own d u hm]
    have h2 := h1 _ (64 * (n + 11) + (clampI 0 63 (edgeCode new x.err.1 x.err.2.1 x.band (d.ffCorr u (if x.regV = true then 8 + ((d.ch u).rng x.regV).now else ((d.ch u).rng x.regV).now) x.target (new == Sw.high || (d.ch u).ctl.sw == Sw.idle)))).toNat)
      (fun c => (Ctl.flagIf_fields c fEdgeSat (decide (edgeCode new x.err.1 x.err.2.1 x.band (d.ffCorr u (if x.regV = true then 8 + ((d.ch u).rng x.regV).now else ((d.ch u).rng x.regV).now) x.target (new == Sw.high || (d.ch u).ctl.sw == Sw.idle)) ≠ ((clampI 0 63 (edgeCode new x.err.1 x.err.2.1 x.band (d.ffCorr u (if x.regV = true then 8 + ((d.ch u).rng x.regV).now else ((d.ch u).rng x.regV).now) x.target (new == Sw.high || (d.ch u).ctl.sw == Sw.idle)))).toNat : Int)))).2)
    rw [Dev.injSample_off _ _ _ _ _ _ _ _ _ (hI _ (by rw [h2])), h2, h]
    rfl

theorem Dev.swc_decision (d : Dev) (u n : Nat) (w : Law) (hm : d.isMember u = false) (hk : d.rd C.STAGE_KIND u = 0)
    (hinj : (d.ch u).ctl.inj.on = false) (hv : 4 ≤ (d.ch u).ctl.hv.length) (hi : 4 ≤ (d.ch u).ctl.hi.length)
    (hlim : (d.ch u).ctl.limit = none)
    (L : Int × Int × Bool) (hL : L = (if w.fi then predict 0 (d.ch u).ctl.hv else predict 0 (d.ch u).ctl.hi))
    (e : Int × Int × Bool)
    (he : e = errors w.target (if w.fi then predict 0 (d.ch u).ctl.hi else predict 0 (d.ch u).ctl.hv).1
      (if w.fi then predict 0 (d.ch u).ctl.hi else predict 0 (d.ch u).ctl.hv).2.1)
    (hnl : nextLimit none w.hi w.lo L.2.1 e.1 (d.rd C.RETURN_MARGIN u) (d.bandNow u) = none) :
    (d.decision u n w).swc u = ((decideSw (d.ch u).ctl.sw e.1 e.2.1 (d.bandNow u)).getD (d.ch u).ctl.sw,
      (d.ch u).ctl.fresh, 0, (d.ch u).ctl.inj) := by
  have hx : ∀ fr, (d.weigh u w fr).err = e ∧ (d.weigh u w fr).prog = e ∧ (d.weigh u w fr).band = d.bandNow u ∧ (d.weigh u w fr).limited w = L := by
    intro fr
    unfold Dev.weigh Weighed.limited
    dsimp only
    rw [predict_full _ _ hv, predict_full _ _ hi, Dev.bandInj_off d u hinj hm, hlim]
    exact ⟨he.symm, he.symm, rfl, hL.symm⟩
  unfold Dev.decision
  dsimp only
  obtain ⟨x1, x2, x3, x4⟩ := hx (ofTwos 32 (d.freeBits 32))
  generalize d.weigh u w (ofTwos 32 (d.freeBits 32)) = x at x1 x2 x3 x4
  have hd0 : (if (decide ((d.ch u).ctl.hv.length < 4) || decide ((d.ch u).ctl.hi.length < 4)) = true then d.drawn else d) = d :=
    if_neg (by simp; omega)
  rw [hd0, hlim, x4, x2, x3]
  rw [if_neg (by simp [hm, hnl])]
  have hbase : ∀ (f : Ctl → Ctl) (q : Bool) (a b c : Nat),
      (∀ c, (f c).sw = c.sw ∧ (f c).fresh = c.fresh ∧ (f c).missRun = 0 ∧ (f c).inj = c.inj) →
      (if q then (d.modCtl u f).report a b c else d.modCtl u f).swc u = ((d.ch u).ctl.sw, (d.ch u).ctl.fresh, 0, (d.ch u).ctl.inj) ∧
      (if q then (d.modCtl u f).report a b c else d.modCtl u f).rd C.STAGE_KIND u = 0 ∧
      (if q then (d.modCtl u f).report a b c else d.modCtl u f).isMember u = false := by
    intro f q a b c hf
    have e1 : (d.modCtl u f).swc u = ((d.ch u).ctl.sw, (d.ch u).ctl.fresh, 0, (d.ch u).ctl.inj) := by
      unfold Dev.swc; simp [hf]
    cases q <;> simp [hk, hm] <;> exact e1
  obtain ⟨h1, h2, h3⟩ := hbase _ (d.coefOrder u && !bit (d.ch u).ctl.sticky fCoefOrder) 0x1107 u 0
    (fun c => Ctl.decided_fields c w x (d.coefOrder u) (decide (d.rd C.STAGE_KIND u = 0) && x.clamped))
  generalize (if (d.coefOrder u && !bit (d.ch u).ctl.sticky fCoefOrder) = true then _ else _ : Dev) = d2 at h1 h2 h3
  unfold Dev.swc at h1
  simp only [Prod.mk.injEq] at h1
  rw [Dev.swc_actOn _ _ _ _ _ h3 h2 (by rw [h1.2.2.2]; exact hinj), h1.1, h1.2.1, h1.2.2.1, h1.2.2.2, x1, x3]

def Ctl.drv (c : Ctl) : Sw × Sw × Sw × Option Nat × Option Nat × Nat := (c.out, c.sw, c.prior, c.edgeAt, c.pend, c.dac)
def Dev.drv (d : Dev) (u : Nat) := ((d.ch u).ctl.drv, d.dict, d.clk)
theorem Dev.drv_modCtl (d : Dev) (u : Nat) (f : Ctl → Ctl) (h : ∀ c, (f c).drv = c.drv) : (d.modCtl u f).drv u = d.drv u := by
  unfold Dev.drv; simp [h]
theorem Ctl.flagIf_drv (c : Ctl) (n : Nat) (b : Bool) : (c.flagIf n b).drv = c.drv := by unfold Ctl.flagIf; split <;> rfl
theorem Dev.drv_ilUpdate (d : Dev) (u : Nat) : (d.ilUpdate u).drv u = d.drv u := by
  unfold Dev.ilUpdate; dsimp only; split
  · rfl
  · split <;> rfl
theorem Dev.drv_landHigh (d : Dev) (u t : Nat) : (d.landHigh u t).drv u = d.drv u := by
  have hil : ∀ (e : Dev) il, (e.ilPeriod u il).drv u = e.drv u := by
    intro e il; unfold Dev.ilPeriod; split
    · rfl
    · rw [Dev.drv_ilUpdate, Dev.drv_modCtl]; intro c; rfl
  have hlk : ∀ (e : Dev) x il, (e.lockPeriod u x il).drv u = e.drv u := by
    intro e x il; unfold Dev.lockPeriod; dsimp only; split <;> rw [Dev.drv_modCtl] <;> intro c
    · rfl
    · exact Ctl.flagIf_drv c fBandSat _
  have hos : ∀ e : Dev, (e.oscPeriod u t).drv u = e.drv u := by
    intro e; unfold Dev.oscPeriod; dsimp only; split <;> exact Dev.drv_modCtl _ _ _ (fun c => rfl)
  have h2 : ∀ e : Dev, ((e.oscPeriod u t).modCtl u fun c => { c with highs := (t :: c.highs).take 17 }).drv u = e.drv u := by
    intro e
    rw [Dev.drv_modCtl _ _ _ (by intro c; rfl), hos]
  unfold Dev.landHigh; dsimp only; split
  · exact h2 d
  · rw [hlk, hil]; exact h2 d

end Sys2Proof.Machine
end

