-- ==== Sys2Proof/Laws/Counters.lean ====
section
/-! SUPPORT. Clearing counters and sticky flags. -/

namespace Sys2Proof.Machine

open Sys2Proof

theorem Dev.say_say (d : Dev) (x : Status) : d.say x = { d with status := x } := rfl

theorem write_value_refused (d : Dev) (p : Party) (o : Obj) (u i : Nat) (v : Int) (eff : Dev → Dev)
    (ha : d.writeStatus p o u i 0 .ok = .ok) (hd : o.dom = .counter) (hv : v ≠ 0) (hs : ∀ w, d.stateOk o u w = d.stateOk o u 0) :
    d.write p o u i v .ok eff = d.say .value := by
  obtain ⟨h1, h2, ⟨h3, h3b, h3c⟩, h4, h5, h6, h7⟩ := (Dev.writeStatus_ok d p o u i 0 .ok).mp ha
  have : d.writeStatus p o u i v .ok = .value := by
    unfold Dev.writeStatus
    rw [h1]
    simp only [h2, Bool.not_true, Bool.false_eq_true, if_false]
    rw [h4, hs, h6, hd]
    have e1 : (o.acc == .ro || o.acc == .const_ || hearthRo o u) = false := by simp [h3, h3b, h3c]
    have e2 : (!o.ty.holds v || !Dom.counter.accepts v) = true := by simp [Dom.accepts, hv]
    rw [e1, e2]
    rfl
  rw [Dev.write_refused _ _ _ _ _ _ _ _ (by rw [this]; decide), this]

end Sys2Proof.Machine
end

