-- ==== Sys2Proof/Laws/Detectors.lean ====
section
/-! SUPPORT. The detectors of lost feedback, oscillation and injection. -/

namespace Sys2Proof.Machine

open Sys2Proof

theorem bit_or_two_pow (a n : Nat) : bit (a ||| 2 ^ n) n = true := by
  unfold bit
  have h : (a ||| 2 ^ n).testBit n = true := by simp
  rw [Nat.testBit_eq_decide_div_mod_eq] at h
  simpa using h

theorem lost_key (d : Dev) (u flag code detail : Nat) (hc : d.crOf u = none) :
    bit ((d.lostFeedback u flag code detail).ch u).ctl.sticky flag = true ∧
    (fun v => ((d.lostFeedback u flag code detail).ch v).ctl.st) = fun v => if v = u then .fenced else (d.ch v).ctl.st := by
  refine ⟨?_, congrArg Prod.fst (Dev.stc_lostFeedback d u flag code detail hc)⟩
  unfold Dev.lostFeedback
  simp [Ctl.flagIf, bit_or_two_pow]

theorem injEnd_key (d : Dev) (u n : Nat) (h : (d.ch u).ctl.inj.on = true) (hn : n ≠ 3) :
    (d.injEnd u n).rd C.INJ_MODE u = 0 ∧ (d.injEnd u n).rd C.INJ_STATUS u = n ∧ ((d.injEnd u n).ch u).ctl.inj = {} ∧
    ((d.injEnd u n).ch u).ctl.st = (d.ch u).ctl.st := by
  have hst : ((d.injEnd u n).ch u).ctl.st = (d.ch u).ctl.st := congrFun (congrArg Prod.fst (Dev.stc_injEnd d u n)) u
  refine ⟨?_, ?_, ?_, hst⟩
  all_goals
    unfold Dev.injEnd
    rw [if_neg (by simp [h])]
    dsimp only
    rw [if_neg hn]
    simp (disch := decide) [Dev.rd_wr_apart]

end Sys2Proof.Machine
end

