-- ==== Sys2Proof/Laws/Engines.lean ====
section
/-! SUPPORT. The sequence engines: what leaves every engine as it is, and how a step begins. -/

namespace Sys2Proof.Machine

open Sys2Proof

set_option linter.unusedTactic false
set_option linter.unreachableTactic false
set_option linter.unnecessarySeqFocus false

@[simp] theorem Dev.seqs_foldl {β : Type} (f : Dev → β → Dev) (h : ∀ a b, (f a b).seqs = a.seqs) (l : List β) (a : Dev) :
    (l.foldl f a).seqs = a.seqs := foldl_keep Dev.seqs f h l a

@[simp] theorem Dev.seqs_foldr {β : Type} (f : β → Dev → Dev) (h : ∀ a b, (f b a).seqs = a.seqs) (l : List β) (a : Dev) :
    (l.foldr f a).seqs = a.seqs := by
  induction l with
  | nil => rfl
  | cons b l ih => rw [List.foldr_cons, h, ih]

@[simp] theorem Dev.seqs_reach (d : Dev) (t : Nat) : (d.reach t).seqs = d.seqs := by rw [Dev.reach_eq]; simp
@[simp] theorem Dev.seqs_reachCc (d : Dev) (t : Nat) : (d.reachCc t).seqs = d.seqs := by rw [Dev.reachCc_eq]; simp
@[simp] theorem Dev.seqs_reachSlot (d : Dev) (u t : Nat) : (d.reachSlot u t).seqs = d.seqs := by rw [Dev.reachSlot_eq]; simp

@[simp] theorem Dev.seqs_setCh (d : Dev) (u : Nat) (c : Chan) : (Dev.setCh d u c).seqs = d.seqs := by
  (unfold Dev.setCh; (try simp only []); repeat' split) <;> rfl

@[simp] theorem Dev.seqs_modCh (d : Dev) (u : Nat) (f : Chan → Chan) : (Dev.modCh d u f).seqs = d.seqs := by
  unfold Dev.modCh; (try simp only []); (repeat' split) <;> first | rfl | (simp; done) | (simp [apply_ite Dev.seqs]; done) | (simp; rfl)

@[simp] theorem Dev.seqs_modMeas (d : Dev) (u : Nat) (f : Meas → Meas) : (Dev.modMeas d u f).seqs = d.seqs := by
  unfold Dev.modMeas; (try simp only []); (repeat' split) <;> first | rfl | (simp; done) | (simp [apply_ite Dev.seqs]; done) | (simp; rfl)

@[simp] theorem Dev.seqs_wri (d : Dev) (o : Obj) (u i : Nat) (v : Int) : (Dev.wri d o u i v).seqs = d.seqs := by
  (unfold Dev.wri; (try simp only []); repeat' split) <;> rfl

@[simp] theorem Dev.seqs_wr (d : Dev) (o : Obj) (u : Nat) (v : Int) : (Dev.wr d o u v).seqs = d.seqs := by
  unfold Dev.wr; (try simp only []); (repeat' split) <;> first | rfl | (simp; done) | (simp [apply_ite Dev.seqs]; done) | (simp; rfl)

@[simp] theorem Dev.seqs_applyFactors (d : Dev) (u n : Nat) : (Dev.applyFactors d u n).seqs = d.seqs := by
  unfold Dev.applyFactors; (try simp only []); (repeat' split) <;> first | rfl | (simp; done) | (simp [apply_ite Dev.seqs]; done) | (simp; rfl)

@[simp] theorem Dev.seqs_boundary (d : Dev) (u n : Nat) : (Dev.boundary d u n).seqs = d.seqs := by
  unfold Dev.boundary; (try simp only []); (repeat' split) <;> first | rfl | (simp; done) | (apply Dev.seqs_foldl; intro a b; (repeat' split) <;> first | rfl | (simp; done))

@[simp] theorem Dev.seqs_stepBoundary (d : Dev) (u slot : Nat) (own : Bool) : (Dev.stepBoundary d u slot own).seqs = d.seqs := by
  unfold Dev.stepBoundary; (try simp only []); (repeat' split) <;> first | rfl | (simp; done) | (simp [apply_ite Dev.seqs]; done) | (simp; rfl)

@[simp] theorem Dev.seqs_bump (d : Dev) (o : Obj) (u : Nat) (w n : Nat) : (Dev.bump d o u w n).seqs = d.seqs := by
  unfold Dev.bump; (try simp only []); (repeat' split) <;> first | rfl | (simp; done) | (simp [apply_ite Dev.seqs]; done) | (simp; rfl)

@[simp] theorem Dev.seqs_abandon (d : Dev) (u : Nat) : (Dev.abandon d u).seqs = d.seqs := by
  unfold Dev.abandon; (try simp only []); (repeat' split) <;> first | rfl | (simp; done) | (simp [apply_ite Dev.seqs]; done) | (simp; rfl)

@[simp] theorem Dev.seqs_dropStepAperture (d : Dev) (u : Nat) : (Dev.dropStepAperture d u).seqs = d.seqs := by
  unfold Dev.dropStepAperture; (try simp only []); (repeat' split) <;> first | rfl | (simp; done) | (simp [apply_ite Dev.seqs]; done) | (simp; rfl)

@[simp] theorem Dev.seqs_stepAperture (d : Dev) (u mode len n : Nat) : (Dev.stepAperture d u mode len n).seqs = d.seqs := by
  unfold Dev.stepAperture; (try simp only []); (repeat' split) <;> first | rfl | (simp; done) | (simp [apply_ite Dev.seqs]; done) | (simp; rfl)

@[simp] theorem Dev.seqs_modCtl (d : Dev) (u : Nat) (f : Ctl → Ctl) : (Dev.modCtl d u f).seqs = d.seqs := by
  unfold Dev.modCtl; (try simp only []); (repeat' split) <;> first | rfl | (simp; done) | (simp [apply_ite Dev.seqs]; done) | (simp; rfl)

@[simp] theorem Dev.seqs_setTarget (d : Dev) (u : Nat) (x : Int) : (Dev.setTarget d u x).seqs = d.seqs := by
  unfold Dev.setTarget; (try simp only []); (repeat' split) <;> first | rfl | (simp; done) | (simp [apply_ite Dev.seqs]; done) | (simp; rfl)

@[simp] theorem Dev.seqs_modCons (d : Dev) (c : Nat) (f : Cons → Cons) : (Dev.modCons d c f).seqs = d.seqs := by
  (unfold Dev.modCons; (try simp only []); repeat' split) <;> rfl

@[simp] theorem Dev.seqs_report (d : Dev) (code unit detail : Nat) : (Dev.report d code unit detail).seqs = d.seqs := by
  (unfold Dev.report; (try simp only []); repeat' split) <;> rfl

@[simp] theorem Dev.seqs_cutLoop (d : Dev) (f c : Nat) : (Dev.cutLoop d f c).seqs = d.seqs := by
  unfold Dev.cutLoop; (try simp only []); (repeat' split) <;> first | rfl | (simp; done) | (simp [apply_ite Dev.seqs]; done) | (simp; rfl)

@[simp] theorem Dev.seqs_raiseFlue (d : Dev) (f g : Nat) : (Dev.raiseFlue d f g).seqs = d.seqs := by
  (unfold Dev.raiseFlue; (try simp only []); repeat' split) <;> rfl

@[simp] theorem Dev.seqs_seqRaise (d : Dev) (u e : Nat) : (Dev.seqRaise d u e).seqs = d.seqs := by
  unfold Dev.seqRaise; (try simp only []); (repeat' split) <;> first | rfl | (simp; done) | (simp [apply_ite Dev.seqs]; done) | (simp; rfl)

@[simp] theorem Dev.seqs_setQu (d : Dev) (q : Nat) (x : Queue) : (Dev.setQu d q x).seqs = d.seqs := by
  (unfold Dev.setQu; (try simp only []); repeat' split) <;> rfl

@[simp] theorem Dev.seqs_modQu (d : Dev) (q : Nat) (f : Queue → Queue) : (Dev.modQu d q f).seqs = d.seqs := by
  unfold Dev.modQu; (try simp only []); (repeat' split) <;> first | rfl | (simp; done) | (simp [apply_ite Dev.seqs]; done) | (simp; rfl)

@[simp] theorem Dev.seqs_dropItem (d : Dev) (q : Nat) (c : Option Nat) (causes : Nat) : (Dev.dropItem d q c causes).seqs = d.seqs := by
  unfold Dev.dropItem; (try simp only []); (repeat' split) <;> first | rfl | (simp; done) | (simp [apply_ite Dev.seqs]; done) | (simp; rfl)

@[simp] theorem Dev.seqs_charge (d : Dev) (q : Nat) (c : Nat) (n : Int) : (Dev.charge d q c n).seqs = d.seqs := by
  unfold Dev.charge; (try simp only []); (repeat' split) <;> first | rfl | (simp; done) | (simp [apply_ite Dev.seqs]; done) | (simp; rfl)

@[simp] theorem Dev.seqs_putWord (d : Dev) (q : Queue) (p w : Nat) : (Dev.putWord d q p w).seqs = d.seqs := by
  (unfold Dev.putWord; (try simp only []); repeat' split) <;> rfl

@[simp] theorem Dev.seqs_putGap (d : Dev) (q : Nat) : (Dev.putGap d q).seqs = d.seqs := by
  unfold Dev.putGap; (try simp only []); (repeat' split) <;> first | rfl | (simp; done) | (simp [apply_ite Dev.seqs]; done) | (simp; rfl)

@[simp] theorem Dev.seqs_putWords (d : Dev) (q : Queue) (p : Nat) (ws : List Nat) : (Dev.putWords d q p ws).seqs = d.seqs := by
  induction ws generalizing d p with
  | nil => rfl
  | cons w ws ih => rw [Dev.putWords, ih]; simp

@[simp] theorem Dev.seqs_place (d : Dev) (q : Nat) (c : Option Nat) (ws : List Nat) : (Dev.place d q c ws).seqs = d.seqs := by
  unfold Dev.place; (try simp only []); (repeat' split) <;> first | rfl | (simp; done) | (simp [apply_ite Dev.seqs]; done) | (simp; rfl)

@[simp] theorem Dev.seqs_wrap (d : Dev) (o : Obj) (u : Nat) (w n : Nat) : (Dev.wrap d o u w n).seqs = d.seqs := by
  unfold Dev.wrap; (try simp only []); (repeat' split) <;> first | rfl | (simp; done) | (simp [apply_ite Dev.seqs]; done) | (simp; rfl)

@[simp] theorem Dev.seqs_injHit (d : Dev) (real : Bool) : (Dev.injHit d real).seqs = d.seqs := by
  unfold Dev.injHit; (try simp only []); (repeat' split) <;> first | rfl | (simp; done) | (simp [apply_ite Dev.seqs]; done) | (simp; rfl)

@[simp] theorem Dev.seqs_reportInj (d : Dev) (code unit detail inj : Nat) : (Dev.reportInj d code unit detail inj).seqs = d.seqs := by
  (unfold Dev.reportInj; (try simp only []); repeat' split) <;> rfl

@[simp] theorem Dev.seqs_qCheck (d : Dev) (q : Nat) : (Dev.qCheck d q).seqs = d.seqs := by
  unfold Dev.qCheck; (try simp only []); (repeat' split) <;> first | rfl | (simp; done) | (simp [apply_ite Dev.seqs]; done) | (simp; rfl)

@[simp] theorem Dev.seqs_noteVisible (d : Dev) (q before : Nat) : (Dev.noteVisible d q before).seqs = d.seqs := by
  unfold Dev.noteVisible; (try simp only []); (repeat' split) <;> first | rfl | (simp; done) | (simp [apply_ite Dev.seqs]; done) | (simp; rfl)

@[simp] theorem Dev.seqs_raiseOn (d : Dev) (f : Nat) (c : Cause) : (Dev.raiseOn d f c).seqs = d.seqs := by
  unfold Dev.raiseOn; (try simp only []); (repeat' split) <;> first | rfl | (simp; done) | (simp [apply_ite Dev.seqs]; done) | (simp; rfl)

@[simp] theorem Dev.seqs_wmark (d0 : Dev) (q before : Nat) (c : Cause) : (Dev.wmark d0 q before c).seqs = d0.seqs := by
  unfold Dev.wmark; (try simp only []); (repeat' split) <;> first | rfl | (simp; done) | (simp [apply_ite Dev.seqs]; done) | (simp; rfl)

@[simp] theorem Dev.seqs_append (d0 : Dev) (q : Nat) (c : Option Nat) (ws : List Nat) (by_ : Cause) : (Dev.append d0 q c ws by_).seqs = d0.seqs := by
  unfold Dev.append; (try simp only []); (repeat' split) <;> first | rfl | (simp; done) | (simp [apply_ite Dev.seqs]; done) | (simp; rfl)

@[simp] theorem Dev.seqs_modSt (d : Dev) (k : Nat) (f : Stove → Stove) : (Dev.modSt d k f).seqs = d.seqs := by
  (unfold Dev.modSt; (try simp only []); repeat' split) <;> rfl

@[simp] theorem Dev.seqs_stage (d : Dev) (stove : Option Nat) (x : Queue) (p s : Nat) : (Dev.stage d stove x p s).seqs = d.seqs := by
  unfold Dev.stage; (try simp only []); (repeat' split) <;> first | rfl | (simp; done) | (simp [apply_ite Dev.seqs]; done) | (simp; rfl)

@[simp] theorem Dev.seqs_serveStaged (d : Dev) : (Dev.serveStaged d).seqs = d.seqs := by
  unfold Dev.serveStaged; (try simp only []); (repeat' split) <;> first | rfl | (simp; done) | (apply Dev.seqs_foldl; intro a b; (repeat' split) <;> first | rfl | (simp; done))

@[simp] theorem Dev.seqs_serveFor (d : Dev) (n : Nat) : (Dev.serveFor d n).seqs = d.seqs := by
  induction n generalizing d with
  | zero => rfl
  | succ n ih => unfold Dev.serveFor; split; · rfl
                 · rw [ih]; simp

@[simp] theorem Dev.seqs_staging (d : Dev) : (Dev.staging d).seqs = d.seqs := by
  unfold Dev.staging; dsimp only; exact Dev.seqs_serveFor d _

@[simp] theorem Dev.seqs_packet (d0 : Dev) (q c : Nat) (u : Option Nat) (ws : List Nat) : (Dev.packet d0 q c u ws).seqs = d0.seqs := by
  unfold Dev.packet; (try simp only []); (repeat' split) <;> first | rfl | (simp; done) | (simp [apply_ite Dev.seqs]; done) | (simp; rfl)

@[simp] theorem Dev.seqs_record (d : Dev) (u q : Nat) (r : RecFields) : (Dev.record d u q r).seqs = d.seqs := by
  unfold Dev.record; (try simp only []); (repeat' split) <;> first | rfl | (simp; done) | (simp [apply_ite Dev.seqs]; done) | (simp; rfl)

@[simp] theorem Dev.seqs_notifyPort (d : Dev) (p kind unit w1 w5 : Nat) : (Dev.notifyPort d p kind unit w1 w5).seqs = d.seqs := by
  unfold Dev.notifyPort; (try simp only []); (repeat' split) <;> first | rfl | (simp; done) | (simp [apply_ite Dev.seqs]; done) | (simp; rfl)

@[simp] theorem Dev.seqs_notifyOwner (d : Dev) (u kind w1 w5 : Nat) : (Dev.notifyOwner d u kind w1 w5).seqs = d.seqs := by
  unfold Dev.notifyOwner; (try simp only []); (repeat' split) <;> first | rfl | (simp; done) | (simp [apply_ite Dev.seqs]; done) | (simp; rfl)

@[simp] theorem Dev.seqs_notifyStep (d : Dev) (u : Nat) : (Dev.notifyStep d u).seqs = d.seqs := by
  unfold Dev.notifyStep; (try simp only []); (repeat' split) <;> first | rfl | (simp; done) | (simp [apply_ite Dev.seqs]; done) | (simp; rfl)

@[simp] theorem Dev.seqs_liRestart (d : Dev) (g : Nat) : (Dev.liRestart d g).seqs = d.seqs := by
  unfold Dev.liRestart; (try simp only []); (repeat' split) <;> first | rfl | (simp; done) | (apply Dev.seqs_foldl; intro a b; (repeat' split) <;> first | rfl | (simp; done))

@[simp] theorem Dev.seqs_publishVar (d : Dev) (u : Nat) (volt : Bool) (a : Ap) : (Dev.publishVar d u volt a).seqs = d.seqs := by
  unfold Dev.publishVar; (try simp only []); (repeat' split) <;> first | rfl | (simp; done) | (simp [apply_ite Dev.seqs]; done) | (simp; rfl)

@[simp] theorem Dev.seqs_publish (d : Dev) (u : Nat) (a : Ap) : (Dev.publish d u a).seqs = d.seqs := by
  unfold Dev.publish; (try simp only []); (repeat' split) <;> first | rfl | (simp; done) | (simp [apply_ite Dev.seqs]; done) | (simp; rfl)

@[simp] theorem Dev.seqs_modRng (d : Dev) (u : Nat) (volt : Bool) (f : Rng → Rng) : (Dev.modRng d u volt f).seqs = d.seqs := by
  unfold Dev.modRng; (try simp only []); (repeat' split) <;> first | rfl | (simp; done) | (simp [apply_ite Dev.seqs]; done) | (simp; rfl)

@[simp] theorem Dev.seqs_rngAsk (d : Dev) (u : Nat) (volt : Bool) (j : Nat) (auto_ up : Bool) : (Dev.rngAsk d u volt j auto_ up).seqs = d.seqs := by
  unfold Dev.rngAsk; (try simp only []); (repeat' split) <;> first | rfl | (simp; done) | (simp [apply_ite Dev.seqs]; done) | (simp; rfl)

@[simp] theorem Dev.seqs_rangeAsk (d : Dev) (u : Nat) (volt : Bool) (j : Nat) (auto_ up : Bool) : (Dev.rangeAsk d u volt j auto_ up).seqs = d.seqs := by
  unfold Dev.rangeAsk; (try simp only []); (repeat' split) <;> first | rfl | (simp; done) | (apply Dev.seqs_foldl; intro a b; (repeat' split) <;> first | rfl | (simp; done))

@[simp] theorem Dev.seqs_releaseVar (d : Dev) (u : Nat) (volt : Bool) : (Dev.releaseVar d u volt).seqs = d.seqs := by
  unfold Dev.releaseVar; (try simp only []); (repeat' split) <;> first | rfl | (simp; done) | (simp [apply_ite Dev.seqs]; done) | (simp; rfl)

@[simp] theorem Dev.seqs_releaseHeld (d : Dev) (u : Nat) : (Dev.releaseHeld d u).seqs = d.seqs := by
  unfold Dev.releaseHeld; (try simp only []); (repeat' split) <;> first | rfl | (simp; done) | (simp [apply_ite Dev.seqs]; done) | (simp; rfl)

@[simp] theorem Dev.seqs_endAperture (d : Dev) (u : Nat) : (Dev.endAperture d u).seqs = d.seqs := by
  unfold Dev.endAperture; (try simp only []); (repeat' split) <;> first | rfl | (simp; done) | (simp [apply_ite Dev.seqs]; done) | (simp; rfl)

@[simp] theorem Dev.seqs_finishAperture (d : Dev) (u : Nat) : (Dev.finishAperture d u).seqs = d.seqs := by
  unfold Dev.finishAperture; (try simp only []); (repeat' split) <;> first | rfl | (simp; done) | (simp [apply_ite Dev.seqs]; done) | (simp; rfl)

@[simp] theorem Dev.seqs_stepLimits (d : Dev) (u : Nat) (hi lo : Int) : (Dev.stepLimits d u hi lo).seqs = d.seqs := by
  unfold Dev.stepLimits; (try simp only []); (repeat' split) <;> first | rfl | (simp; done) | (simp [apply_ite Dev.seqs]; done) | (simp; rfl)

@[simp] theorem Dev.seqs_setBand (d : Dev) (u : Nat) (v : Int) : (Dev.setBand d u v).seqs = d.seqs := by
  unfold Dev.setBand; (try simp only []); (repeat' split) <;> first | rfl | (simp; done) | (apply Dev.seqs_foldl; intro a b; (repeat' split) <;> first | rfl | (simp; done))

@[simp] theorem Dev.seqs_stepMode (d : Dev) (u v : Nat) : (Dev.stepMode d u v).seqs = d.seqs := by
  unfold Dev.stepMode; (try simp only []); (repeat' split) <;> first | rfl | (simp; done) | (simp [apply_ite Dev.seqs]; done) | (simp; rfl)

@[simp] theorem Dev.seqs_noteOld (d : Dev) (o : Obj) (u i : Nat) : (Dev.noteOld d o u i).seqs = d.seqs := by
  (unfold Dev.noteOld; (try simp only []); repeat' split) <;> rfl


end Sys2Proof.Machine
end

