-- ==== Sys2Proof/Laws/Stoves.lean ====
section
/-! SUPPORT. Dropping a stove: its regulating channels go Off or are fenced. -/

namespace Sys2Proof.Machine

open Sys2Proof

theorem foldl_id {α β : Type} (f : α → β → α) (l : List β) (a : α) (h : ∀ b ∈ l, f a b = a) : l.foldl f a = a := by
  induction l with
  | nil => rfl
  | cons b l ih =>
    rw [List.foldl_cons, h b (by simp)]
    exact ih fun c hc => h c (by simp [hc])

theorem Dev.dropStove_quiet (d : Dev) (k : Nat) (h : ∀ u, stoveOf u = k → (d.ch u).ctl.st.reg = false) : d.dropStove k = d := by
  unfold Dev.dropStove
  apply foldl_id
  intro b hb
  unfold Dev.dropCh
  rw [h _ (by unfold stoveOf; simp at hb; omega)]
  rfl

/-- A channel dropped is Off or Fenced, and no other channel changes its state. -/
theorem Dev.stc_dropCh (d : Dev) (u : Nat) (hu : u < 256) (hc : d.cr = none) :
    (d.dropCh u).stc = (fun v => if v = u ∧ (d.ch v).ctl.st.reg = true then (if d.isMember v then .fenced else .off)
      else (d.ch v).ctl.st, none) := by
  have h0 : d.stc = (fun v => (d.ch v).ctl.st, none) := by unfold Dev.stc; rw [hc]
  have hcr : ∀ v, d.crOf v = none := by intro v; unfold Dev.crOf; rw [hc]
  unfold Dev.dropCh
  cases hr : (d.ch u).ctl.st.reg
  · simp only [Bool.not_false, if_true, h0]
    refine Prod.ext ?_ rfl
    funext v
    by_cases e : v = u
    · subst e; simp [hr]
    · simp [e]
  · simp only [Bool.not_true, Bool.false_eq_true, if_false]
    cases hm : d.isMember u
    · simp only [Bool.false_eq_true, if_false]
      have h1 : (d.seqFail u 10).crOf u = none := by
        rw [Dev.crOf_of_stc _ d u (by rw [Dev.stc_seqFail]), hcr]
      unfold Dev.enterAll
      rw [if_pos hu, Dev.stc_enter _ _ _ _ h1, Dev.stc_seqFail, h0]
      refine Prod.ext ?_ rfl
      funext v
      by_cases e : v = u
      · subst e; simp [hr, hm]
      · simp [e]
    · simp only [if_true]
      rw [Dev.stc_fenceCh _ _ _ (hcr u), h0]
      refine Prod.ext ?_ rfl
      funext v
      by_cases e : v = u
      · subst e; simp [hr, hm]
      · simp [e]

theorem Dev.isMember_of_beyond (d e : Dev) (h : d.beyond = e.beyond) : d.isMember = e.isMember := by
  have h1 : d.beyond.parent = e.beyond.parent := by rw [h]
  change d.parent = e.parent at h1
  funext u
  unfold Dev.isMember Dev.parentOf
  rw [h1]

/-- The channels of a stove that is dropped: those that regulate are Off or Fenced, and no other channel changes its state. -/
theorem Dev.stc_dropStove (d : Dev) (k : Nat) (hk : k < 16) (hc : d.cr = none) :
    (d.dropStove k).stc = (fun v => if stoveOf v = k ∧ (d.ch v).ctl.st.reg = true then (if d.isMember v then .fenced else .off)
      else (d.ch v).ctl.st, none) := by
  have key : ∀ n, n ≤ 16 → ((List.range n).foldl (fun e p => e.dropCh (16 * k + p)) d).stc =
      (fun v => if (16 * k ≤ v ∧ v < 16 * k + n) ∧ (d.ch v).ctl.st.reg = true then (if d.isMember v then .fenced else .off)
      else (d.ch v).ctl.st, none) := by
    intro n
    induction n with
    | zero =>
      intro _
      simp only [List.range_zero, List.foldl_nil]
      refine Prod.ext ?_ hc
      funext v
      show (d.ch v).ctl.st = _
      dsimp only
      rw [if_neg (by omega)]
    | succ n ih =>
      intro hn
      rw [List.range_succ, List.foldl_append, List.foldl_cons, List.foldl_nil]
      have ih' := ih (by omega)
      generalize he : (List.range n).foldl (fun e p => e.dropCh (16 * k + p)) d = e at *
      have hm : e.isMember = d.isMember := by
        apply Dev.isMember_of_beyond
        rw [← he]
        exact Dev.beyond_foldl _ (fun a b => Dev.beyond_dropCh _ _) _ _
      have hs : ∀ v, (e.ch v).ctl.st = _ := fun v => congrFun (congrArg Prod.fst ih') v
      rw [Dev.stc_dropCh _ _ (by omega) (congrArg Prod.snd ih')]
      refine Prod.ext ?_ rfl
      funext v
      simp only [hm]
      have hv := hs v
      dsimp only at hv
      by_cases e1 : v = 16 * k + n
      · subst e1
        rw [if_neg (by omega)] at hv
        rw [hv]
        by_cases hr : (d.ch (16 * k + n)).ctl.st.reg = true <;> simp [hr]
      · rw [hv]
        have e2 : (16 * k ≤ v ∧ v < 16 * k + (n + 1)) ↔ (16 * k ≤ v ∧ v < 16 * k + n) := by omega
        simp [e1, e2]
  have e3 : ∀ v, (16 * k ≤ v ∧ v < 16 * k + 16) ↔ stoveOf v = k := by intro v; unfold stoveOf; omega
  have := key 16 (by omega)
  unfold Dev.dropStove
  rw [this]
  simp only [e3]

theorem Dev.sts_of_stc (d : Dev) (f : Nat → ChState) (c : Option CalRun) (h : d.stc = (f, c)) :
    (fun v => (d.ch v).ctl.st) = f := congrArg Prod.fst h

end Sys2Proof.Machine
end

