-- ==== Sys2Proof/Laws/Members.lean ====
section
/-! SUPPORT. Membership of hearths, re-shares and the following of a leader. -/

namespace Sys2Proof.Machine

open Sys2Proof

theorem Dev.sts_eq (d e : Dev) (h : d.stc = e.stc) : (fun v => (d.ch v).ctl.st) = fun v => (e.ch v).ctl.st := congrArg Prod.fst h

theorem Dev.copyCoefs_frame (d : Dev) (h l : Nat) : (d.copyCoefs h l).parent = d.parent ∧ (d.copyCoefs h l).own = d.own ∧
    (d.copyCoefs h l).stc = d.stc := by
  have key : ∀ {γ : Type} (g : Dev → γ), (∀ e o u i v, g (Dev.wri e o u i v) = g e) →
      g (hearthCoefs.foldl (fun e o => (List.range o.nsubs).foldl (fun e i => e.wri o l i (d.rdi o h i)) e) d) = g d := by
    intro γ g hg
    apply foldl_keep g
    intro a b
    apply foldl_keep g
    intro a c
    exact hg _ _ _ _ _
  unfold Dev.copyCoefs
  refine ⟨?_, ?_, ?_⟩
  · simp; exact key Dev.parent (fun _ _ _ _ _ => rfl)
  · simp; exact key Dev.own (fun _ _ _ _ _ => rfl)
  · rw [Dev.stc_modCtl _ _ _ rfl]; exact key Dev.stc (fun e o u i v => Dev.stc_wri e o u i v)

theorem Dev.copyAll_frame (d : Dev) (t : Nat) (ls : List Nat) :
    (ls.foldl (fun e l => e.copyCoefs t l) d).parent = d.parent ∧ (ls.foldl (fun e l => e.copyCoefs t l) d).own = d.own ∧
    (ls.foldl (fun e l => e.copyCoefs t l) d).stc = d.stc := by
  refine ⟨?_, ?_, ?_⟩
  · exact foldl_keep Dev.parent _ (fun a b => (Dev.copyCoefs_frame a _ b).1) _ _
  · exact foldl_keep Dev.own _ (fun a b => (Dev.copyCoefs_frame a _ b).2.1) _ _
  · exact foldl_keep Dev.stc _ (fun a b => (Dev.copyCoefs_frame a _ b).2.2) _ _

/-- Both copies of the ownership set of a unit without an owner. -/
def noOwner (d : Dev) (m : Nat) : Own := ⟨⟨0, (d.epoch m + 1) % 2 ^ 16⟩, ⟨0, (d.epoch m + 1) % 2 ^ 16⟩, false⟩

/-- A member entry written: membership, ownership and states. -/
theorem Dev.setMember_frame (d : Dev) (h e : Nat) (v : Int) (hq : v ≠ 0xFFFF → (d.sq v.toNat).st.active = false) :
    ∃ d1 : Dev, (∀ m, d.member h e = some m → d1.parent = SMap.set 0 d.parent m 0 ∧ d1.own = SMap.ins d.own m (noOwner d m)) ∧
      (d.member h e = none → d1 = d) ∧
      (d.setMember h e v).parent = (if v = 0xFFFF then d1.parent else SMap.set 0 d1.parent v.toNat h) ∧
      (d.setMember h e v).own = (if v = 0xFFFF then d1.own else SMap.ins d1.own v.toNat (noOwner d1 v.toNat)) ∧
      (d.setMember h e v).stc = d.stc := by
  refine ⟨d.emptyEntry h e, ?_, ?_, ?_⟩
  · intro m hm; unfold Dev.emptyEntry; rw [hm]; exact ⟨rfl, rfl⟩
  · intro hm; unfold Dev.emptyEntry; rw [hm]
  · unfold Dev.setMember
    have hs1 : (d.emptyEntry h e).stc = d.stc := by unfold Dev.emptyEntry; split <;> rfl
    have hq1 : (d.emptyEntry h e).sq = d.sq := by unfold Dev.emptyEntry; split <;> rfl
    revert hs1 hq1
    generalize d.emptyEntry h e = d1
    intro hs1 hq1
    have hfr : ∀ x : Dev, (x.freshSet (x.topOf h)).parent = x.parent ∧ (x.freshSet (x.topOf h)).own = x.own ∧ (x.freshSet (x.topOf h)).stc = x.stc := by
      intro x; unfold Dev.freshSet; refine ⟨rfl, rfl, ?_⟩; simp
    by_cases hv : v = 0xFFFF
    · simp only [hv, if_true]
      refine ⟨(hfr _).1, (hfr _).2.1, (hfr _).2.2.trans ?_⟩
      simp [hs1]
    · simp only [hv, if_false]
      obtain ⟨y, hy⟩ : ∃ y : Dev, y = (d1.wri C.MEMBER h e v).joinHearth h v.toNat := ⟨_, rfl⟩
      rw [← hy]
      have e0 : y.seqStop v.toNat = y := by
        unfold Dev.seqStop
        have : y.sq = d.sq := by rw [hy, ← hq1]; rfl
        rw [this, hq hv]; rfl
      rw [e0]
      obtain ⟨c1, c2, c3⟩ := Dev.copyAll_frame y (y.topOf h) (y.leaves v.toNat)
      refine ⟨(hfr _).1.trans (c1.trans (by rw [hy]; rfl)), (hfr _).2.1.trans (c2.trans (by rw [hy]; rfl)), (hfr _).2.2.trans (c3.trans ?_)⟩
      rw [← hs1, hy]
      exact (Dev.stc_of_eq _ _ rfl).trans (Dev.stc_wri d1 C.MEMBER h e v)

theorem Dev.takeRange_frame (d : Dev) (u : Nat) (volt : Bool) (j : Nat) :
    (d.takeRange u volt j).he = d.he ∧ (d.takeRange u volt j).stc = d.stc ∧ (d.takeRange u volt j).clk = d.clk ∧
    (d.takeRange u volt j).beyond = d.beyond := by
  have h : ∀ (x : Dev) a b, (x.rescaleUnit u volt a b).he = x.he ∧ (x.rescaleUnit u volt a b).stc = x.stc ∧
      (x.rescaleUnit u volt a b).clk = x.clk := by
    intro x a b
    unfold Dev.rescaleUnit
    split
    · exact ⟨rfl, rfl, rfl⟩
    · unfold Dev.rescaleObj
      dsimp only
      (repeat' split) <;> refine ⟨?_, ?_, ?_⟩ <;> simp
  have hc : ∀ (c : Ctl) a b, (c.rescaleHist volt a b).st = c.st := by intro c a b; unfold Ctl.rescaleHist; split <;> rfl
  unfold Dev.takeRange
  dsimp only
  refine ⟨?_, ?_, ?_, by simp⟩ <;> simp [h, hc]

theorem Dev.followVar_frame (d : Dev) (h : Nat) (volt : Bool) :
    (d.followVar h volt).he = d.he ∧ (d.followVar h volt).stc = d.stc ∧ (d.followVar h volt).clk = d.clk ∧
    (d.followVar h volt).beyond = d.beyond := by
  unfold Dev.followVar
  have ht := Dev.takeRange_frame d h volt
  split
  · rename_i l _
    dsimp only
    have h1 : ∀ x : Dev, x = (if ((d.ch l).rng volt).now = ((d.ch h).rng volt).now then d else d.takeRange h volt ((d.ch l).rng volt).now) →
        x.he = d.he ∧ x.stc = d.stc ∧ x.clk = d.clk ∧ x.beyond = d.beyond := by
      intro x hx; rw [hx]; split
      · exact ⟨rfl, rfl, rfl, rfl⟩
      · exact ht _
    generalize hx : (if ((d.ch l).rng volt).now = ((d.ch h).rng volt).now then d else d.takeRange h volt ((d.ch l).rng volt).now) = x
    obtain ⟨a1, a2, a3, a4⟩ := h1 x hx.symm
    split
    · split
      · refine ⟨?_, ?_, ?_, ?_⟩ <;> simp [a1, a2, a3, a4]
      · exact ⟨a1, a2, a3, a4⟩
    · exact ⟨a1, a2, a3, a4⟩
  · exact ⟨rfl, rfl, rfl, rfl⟩

theorem Dev.followLeader_frame (d : Dev) (h : Nat) :
    (d.followLeader h).he = d.he ∧ (d.followLeader h).stc = d.stc ∧ (d.followLeader h).clk = d.clk ∧
    (d.followLeader h).beyond = d.beyond := by
  unfold Dev.followLeader
  have k := fun (x : Dev) (g : Nat) => Dev.followVar_frame x g true
  have k2 := fun (x : Dev) (g : Nat) => Dev.followVar_frame x g false
  refine ⟨foldl_keep Dev.he _ (fun a b => ?_) _ _, foldl_keep Dev.stc _ (fun a b => ?_) _ _, foldl_keep Dev.clk _ (fun a b => ?_) _ _,
    foldl_keep Dev.beyond _ (fun a b => ?_) _ _⟩
  · exact (k2 _ _).1.trans (k a b).1
  · exact (k2 _ _).2.1.trans (k a b).2.1
  · exact (k2 _ _).2.2.1.trans (k a b).2.2.1
  · exact (k2 _ _).2.2.2.trans (k a b).2.2.2

end Sys2Proof.Machine
end

