-- ==== Sys2Proof/Laws/Memories.lean ====
section
/-! SUPPORT. Every operation on the state leaves the queue of commands and keeps the canonical form of the waveform memory and
of the flash. -/

namespace Sys2Proof.Machine

open Sys2Proof

/-- `t` has the queue of `s`, and memories in canonical form where `s` has. -/
def State.carries (s t : State) : Prop :=
  t.pending = s.pending ∧ (Mem.wf 0 s.wmem = true → Mem.wf 0 t.wmem = true) ∧
    (Mem.wf 0xFF s.flash = true → Mem.wf 0xFF t.flash = true)

theorem State.carries_refl (s : State) : s.carries s := ⟨rfl, id, id⟩

theorem State.carries_trans {s t r : State} (h : s.carries t) (k : t.carries r) : s.carries r :=
  ⟨k.1.trans h.1, fun x => k.2.1 (h.2.1 x), fun x => k.2.2 (h.2.2 x)⟩

theorem State.carries_on (s : State) (f : Dev → Dev) : s.carries (s.on f) := ⟨rfl, id, id⟩

theorem State.carries_then {s t : State} (h : s.carries t) (f : Dev → Dev) : s.carries (t.on f) :=
  State.carries_trans h (State.carries_on t f)

theorem State.carries_ite {s a b : State} (c : Prop) [Decidable c] (ha : s.carries a) (hb : s.carries b) :
    s.carries (if c then a else b) := by
  split <;> assumption

theorem State.carries_foldl {α : Type} (f : State → α → State) (hf : ∀ (s : State) (x : α), s.carries (f s x)) (xs : List α) (s : State) :
    s.carries (xs.foldl f s) := by
  induction xs generalizing s with
  | nil => exact State.carries_refl s
  | cons x xs ih => exact State.carries_trans (hf s x) (ih _)

theorem Mem.wf_programBytes (m : Mem) (a : Nat) (bs : List Byte) (h : Mem.wf 0xFF m = true) :
    Mem.wf 0xFF (programBytes m a bs) = true := Mem.wf_write _ _ _ _ h

/-! ### The image and the segments -/

theorem State.carries_imgCommitCmd (s : State) : s.carries s.imgCommitCmd := by
  unfold State.imgCommitCmd
  refine State.carries_ite _ (State.carries_on _ _) ⟨rfl, id, fun h => ?_⟩
  exact Mem.wf_programBytes _ _ _ (Mem.wf_programBytes _ _ _ h)

theorem State.carries_imgCmd (s : State) (p : Party) (v : Int) : s.carries (s.imgCmd p v) := by
  unfold State.imgCmd
  split
  · exact State.carries_then (State.carries_ite _ (State.carries_on _ _) (State.carries_imgCommitCmd s)) _
  · exact State.carries_on _ _

theorem State.carries_imgData (s : State) (p : Party) (bs : List Byte) : s.carries (s.imgData p bs) := by
  unfold State.imgData
  split
  · have h : s.carries (s.imgProgram bs) := ⟨rfl, id, fun h => Mem.wf_programBytes _ _ _ h⟩
    exact State.carries_then h _
  · exact State.carries_on _ _

theorem State.carries_imgDone (s : State) (ok : Bool) : s.carries (s.imgDone ok) := by
  unfold State.imgDone
  simp only []
  refine State.carries_ite _ (State.carries_refl s) (State.carries_ite _ ⟨rfl, id, id⟩
    (State.carries_ite _ ⟨rfl, id, fun h => ?_⟩ ⟨rfl, id, id⟩))
  exact SMap.wf_filter _ _ _ h

theorem State.carries_segData (s : State) (p : Party) (bs : List Byte) : s.carries (s.segData p bs) := by
  unfold State.segData
  split
  · exact ⟨rfl, fun h => Mem.wf_write _ _ _ _ h, id⟩
  · exact State.carries_on _ _

/-! ### Writes of any object -/

theorem State.carries_putNum (s : State) (p : Party) (index sub : Nat) (v : Int) : s.carries (s.putNum p index sub v) := by
  unfold State.putNum
  split
  · exact State.carries_on _ _
  · repeat' refine State.carries_ite _ ?_ ?_
    all_goals first | exact State.carries_on _ _ | exact State.carries_imgCmd s p v

theorem State.carries_putBytes (s : State) (p : Party) (index sub : Nat) (bs : List Byte) :
    s.carries (s.putBytes p index sub bs) := by
  unfold State.putBytes
  split
  · exact State.carries_on _ _
  · repeat' refine State.carries_ite _ ?_ ?_
    all_goals first | exact State.carries_on _ _ | exact State.carries_segData s p bs | exact State.carries_imgData s p bs

theorem State.carries_putTyped (s : State) (p : Party) (index sub : Nat) (bs : List Byte) :
    s.carries (s.putTyped p index sub bs) := by
  unfold State.putTyped
  split
  · exact State.carries_on _ _
  · refine State.carries_ite _ (State.carries_on _ _) (State.carries_ite _ (State.carries_on _ _) ?_)
    split
    · exact State.carries_putNum s p index sub _
    · exact State.carries_on _ _

theorem State.carries_writeAny (s : State) (p : Party) (index sub : Nat) (v : Int) : s.carries (s.writeAny p index sub v) :=
  State.carries_ite _ (State.carries_on _ _) (State.carries_putNum s p index sub v)

theorem State.carries_writeTyped (s : State) (p : Party) (index sub : Nat) (bs : List Byte) :
    s.carries (s.writeTyped p index sub bs) :=
  State.carries_ite _ (State.carries_on _ _) (State.carries_putTyped s p index sub bs)

theorem State.carries_writeDomain (s : State) (p : Party) (index sub : Nat) (bs : List Byte) :
    s.carries (s.writeDomain p index sub bs) :=
  State.carries_ite _ (State.carries_on _ _) (State.carries_putBytes s p index sub bs)

theorem State.carries_writeVal (s : State) (p : Party) (index sub : Nat) (v : Val) : s.carries (s.writeVal p index sub v) := by
  cases v
  · exact State.carries_writeAny s p index sub _
  · exact State.carries_writeDomain s p index sub _

/-! ### Requests -/

theorem State.carries_tlv (s : State) (n at_ : Nat) (t : Tlv) : s.carries (s.tlv n at_ t).st := by
  have hr := State.carries_refl s
  have ho := fun f => State.carries_on s f
  unfold State.tlv
  simp only []
  split
  · split
    · exact hr
    · split <;> exact ho _
  · split
    · exact hr
    · exact State.carries_writeTyped s _ _ _ _
  · split
    · exact hr
    · split <;> exact ho _
  · split
    · exact hr
    · exact State.carries_writeDomain s _ _ _ _
  · split <;> exact hr
  · exact hr

theorem State.carries_tlvs (n at_ : Nat) (abort : Bool) (ts : List Tlv) (s : State) (dead : Bool) (out : List Tlv) :
    s.carries (State.tlvs s n at_ abort ts dead out).1 := by
  induction ts generalizing s dead out with
  | nil => exact State.carries_refl s
  | cons t ts ih =>
    cases dead
    · exact State.carries_trans (State.carries_then (State.carries_tlv s n at_ t) _) (ih _ _ _)
    · exact ih _ _ _

theorem State.carries_runRequest (s : State) (n : Nat) (q : Request) : s.carries (s.runRequest n q) := by
  unfold State.runRequest
  refine State.carries_ite _ (State.carries_on _ _) ?_
  unfold State.runV2
  simp only []
  split
  · exact State.carries_on _ _
  · split
    · exact State.carries_then (State.carries_tlvs _ _ _ _ _ _ _) _
    · exact State.carries_on _ _

theorem State.carries_serve (n k : Nat) (s : State) : s.carries (s.serve n k) := by
  induction k generalizing s with
  | zero => exact State.carries_refl s
  | succ k ih =>
    unfold State.serve
    split
    · exact State.carries_refl s
    · exact State.carries_trans (State.carries_trans (State.carries_on _ _) (State.carries_runRequest _ _ _)) (ih _)

/-! ### Power and boot -/

theorem State.carries_putEntry (s : State) (e : Entry) : s.carries (s.putEntry e).1 := by
  unfold State.putEntry
  refine State.carries_then (State.carries_trans (State.carries_on s Dev.asRunning) ?_) _
  split
  · exact State.carries_writeDomain _ _ _ _ _
  · exact State.carries_writeTyped _ _ _ _ _

theorem State.carries_applyEntry (s : State) (e : Entry) : s.carries (s.applyEntry e) :=
  State.carries_ite _ (State.carries_putEntry s e) (State.carries_on _ _)

theorem State.carries_imageEntry (st : State × State) (e : Entry) : st.1.carries (State.imageEntry st e).1 := by
  unfold State.imageEntry
  simp only []
  repeat' split
  all_goals first | exact State.carries_on _ _ | exact State.carries_applyEntry _ _

theorem State.carries_applyImage (s : State) (es : List Entry) : s.carries (s.applyImage es) := by
  unfold State.applyImage
  generalize s.on (fun d => { d with pd := 2 ^ 300 - 1 }) = t
  induction es generalizing s t with
  | nil => exact State.carries_refl s
  | cons e es ih =>
    exact State.carries_trans (State.carries_imageEntry (s, t) e) (ih _ _)

theorem State.carries_applyHeld (s : State) : s.carries s.applyHeld := by
  unfold State.applyHeld
  exact State.carries_trans (State.carries_on _ _) (State.carries_foldl _ State.carries_applyEntry _ _)

theorem State.carries_domainOff (s : State) (n : Nat) : s.carries (s.domainOff n) := by
  refine ⟨rfl, fun h => ?_, id⟩
  show Mem.wf 0 (if n = 298 then [] else s.wmem) = true
  split
  · rfl
  · exact h

theorem State.carries_domainOn (s : State) (n : Nat) : s.carries (s.domainOn n) :=
  State.carries_then (State.carries_trans (State.carries_on _ _) (State.carries_applyHeld _)) _

theorem State.carries_switchDone (s : State) : s.carries s.switchDone := by
  unfold State.switchDone
  split
  · exact State.carries_refl s
  · refine State.carries_then ?_ _
    split
    · exact State.carries_on _ _
    · split
      · exact State.carries_trans (State.carries_on _ _) (State.carries_domainOn _ _)
      · exact State.carries_trans (State.carries_on _ _) (State.carries_domainOff _ _)

theorem State.carries_loadImage (s : State) : s.carries s.loadImage := by
  unfold State.loadImage
  simp only []
  exact State.carries_ite _ (State.carries_on _ _) (State.carries_trans (State.carries_on _ _) (State.carries_applyImage _ _))

theorem State.carries_phaseFlash (s : State) : s.carries s.phaseFlash := by
  unfold State.phaseFlash
  simp only []
  refine State.carries_then ?_ _
  have h1 : s.carries (if s.dev.boot.core then s else if s.dev.pwr.flash then s.on Dev.loadCal else s.on Dev.noCal) :=
    State.carries_ite _ (State.carries_refl s) (State.carries_ite _ (State.carries_on _ _) (State.carries_on _ _))
  exact State.carries_ite _ (State.carries_trans h1 (State.carries_loadImage _)) h1

theorem State.carries_recordedOff (s : State) (n : Nat) : s.carries (s.recordedOff n) :=
  State.carries_ite _ (State.carries_refl s) (State.carries_ite _ (State.carries_domainOff s n) (State.carries_on _ _))

theorem State.carries_phaseStoves (s : State) : s.carries s.phaseStoves := by
  unfold State.phaseStoves
  have h1 := State.carries_foldl _ State.carries_recordedOff s.dev.boot.wantOff s
  exact State.carries_then (State.carries_trans (State.carries_then (State.carries_then h1 _) _) (State.carries_applyHeld _)) _

theorem State.carries_phaseEnd (s : State) : s.carries s.phaseEnd := by
  unfold State.phaseEnd
  refine State.carries_ite _ (State.carries_refl s) (State.carries_then ?_ _)
  have h1 := State.carries_on s fun d => d.reachCc (d.boot.phaseAt + s.phaseCc)
  split
  · exact State.carries_then h1 _
  · exact State.carries_then h1 _
  · refine State.carries_trans h1 ?_
    unfold State.phaseMemory
    exact State.carries_ite _ (State.carries_on _ _) ⟨rfl, fun _ => rfl, id⟩
  · exact State.carries_trans h1 (State.carries_phaseFlash _)
  · exact State.carries_trans h1 (State.carries_phaseStoves _)
  · exact State.carries_then h1 _
  · exact State.carries_then h1 _

/-! ### The console -/

theorem State.carries_command (s : State) (scopes : List Nat) (f : State → State) (hf : s.carries (f s)) :
    s.carries (s.command scopes f) := by
  unfold State.command
  exact State.carries_ite _ (State.carries_on _ _) (State.carries_then (State.carries_ite _ hf (State.carries_on _ _)) _)

theorem State.carries_flashCmd (s : State) (scopes : List Nat) (c : FlashCmd) : s.carries (s.flashCmd scopes c) := by
  unfold State.flashCmd
  refine State.carries_ite _ (State.carries_on _ _) (State.carries_command _ _ _ ?_)
  split <;> exact State.carries_on _ _

theorem State.carries_flashFree (s : State) : s.carries s.flashFree := by
  unfold State.flashFree
  refine State.carries_ite _ (State.carries_refl s) (State.carries_then ?_ _)
  exact State.carries_trans (State.carries_on _ _) (State.carries_foldl _ (fun a c => State.carries_then (State.carries_on _ _) _) _ _)

theorem State.carries_clearCommand (s : State) (target : Nat) (v : Int) : s.carries (s.clearCommand target v) := by
  refine State.carries_command _ _ _ ?_
  refine State.carries_ite _ ?_ (State.carries_on _ _)
  have h := State.carries_putNum s .console 0x2305 1 target
  exact State.carries_ite _ (State.carries_trans h (State.carries_putNum _ _ _ _ _)) h

end Sys2Proof.Machine
end

