-- ==== Sys2Proof/Laws/Rotation.lean ====
section
/-! SUPPORT. Spare rotation: what the converters of a stove hold after each of its operations. -/

namespace Sys2Proof.Machine

open Sys2Proof

@[simp] theorem bit_setBit_true (n i : Nat) : bit (setBit n i true) i = true := by
  unfold setBit
  split
  · assumption
  · rename_i h
    rw [if_pos rfl]
    unfold bit at *
    rw [Nat.add_div_right _ (Nat.two_pow_pos i)]
    simp only [beq_iff_eq] at *
    omega

theorem Dev.conv_of_stoves {d e : Dev} (h : d.stoves = e.stoves) : d.conv = e.conv := by
  funext k c; unfold Dev.conv; rw [Dev.st_of_stoves h]
theorem Dev.conv_of_st {d e : Dev} (h : d.st = e.st) : d.conv = e.conv := by
  funext k c; unfold Dev.conv; rw [h]

@[simp] theorem Dev.conv_modConv_same (d : Dev) (k c : Nat) (f : Conv → Conv) : (d.modConv k c f).conv k c = f (d.conv k c) := by
  unfold Dev.modConv Dev.conv; simp

theorem Dev.conv_modConv_other (d : Dev) (k c c' : Nat) (f : Conv → Conv) (h : c' ≠ c) : (d.modConv k c f).conv k c' = d.conv k c' := by
  unfold Dev.modConv Dev.conv; simp [SMap.get_ins_other _ _ _ _ _ h]

@[simp] theorem Dev.st_modConv (d : Dev) (k c : Nat) (f : Conv → Conv) :
    (d.modConv k c f).st k = { d.st k with conv := SMap.ins (d.st k).conv c (f (d.conv k c)) } := by
  unfold Dev.modConv; simp

@[simp] theorem Dev.modConv_frame (d : Dev) (k c : Nat) (f : Conv → Conv) : (d.modConv k c f).rdi = d.rdi ∧ (d.modConv k c f).rd = d.rd ∧
    (d.modConv k c f).rdN = d.rdN ∧ (d.modConv k c f).flag = d.flag ∧ (d.modConv k c f).dict = d.dict ∧
    (d.modConv k c f).chans = d.chans ∧ (d.modConv k c f).ch = d.ch ∧ (d.modConv k c f).clk = d.clk ∧ (d.modConv k c f).pdOn = d.pdOn := by
  unfold Dev.modConv; refine ⟨rfl, rfl, rfl, rfl, rfl, rfl, rfl, rfl, rfl⟩

@[simp] theorem Dev.modRot_frame (d : Dev) (k : Nat) (f : Rot → Rot) : (d.modRot k f).rdi = d.rdi ∧ (d.modRot k f).rd = d.rd ∧
    (d.modRot k f).rdN = d.rdN ∧ (d.modRot k f).flag = d.flag ∧ (d.modRot k f).dict = d.dict ∧
    (d.modRot k f).chans = d.chans ∧ (d.modRot k f).ch = d.ch ∧ (d.modRot k f).clk = d.clk ∧ (d.modRot k f).pdOn = d.pdOn := by
  unfold Dev.modRot; refine ⟨rfl, rfl, rfl, rfl, rfl, rfl, rfl, rfl, rfl⟩

@[simp] theorem Dev.st_modRot (d : Dev) (k : Nat) (f : Rot → Rot) : (d.modRot k f).st k = { d.st k with rot := f (d.st k).rot } := by
  unfold Dev.modRot; simp

@[simp] theorem Dev.conv_modRot (d : Dev) (k : Nat) (f : Rot → Rot) : (d.modRot k f).conv k = d.conv k := by
  funext c; unfold Dev.conv; simp

@[simp] theorem Dev.conv_report (d : Dev) (a b c : Nat) : (d.report a b c).conv = d.conv := rfl
@[simp] theorem Dev.conv_wr (d : Dev) (o : Obj) (u : Nat) (v : Int) : (d.wr o u v).conv = d.conv := rfl
@[simp] theorem Dev.conv_bump (d : Dev) (o : Obj) (u w n : Nat) : (d.bump o u w n).conv = d.conv := rfl
@[simp] theorem Dev.conv_wrap (d : Dev) (o : Obj) (u w n : Nat) : (d.wrap o u w n).conv = d.conv := rfl
@[simp] theorem Dev.conv_reportRole (d : Dev) (a b c : Nat) : (d.reportRole a b c).conv = d.conv := rfl
@[simp] theorem Dev.st_reportRole (d : Dev) (a b c : Nat) : (d.reportRole a b c).st = d.st := rfl
@[simp] theorem Dev.rdi_reportRole (d : Dev) (a b c : Nat) : (d.reportRole a b c).rdi = d.rdi := rfl
@[simp] theorem Dev.rd_reportRole (d : Dev) (a b c : Nat) : (d.reportRole a b c).rd = d.rd := rfl
@[simp] theorem Dev.chans_reportRole (d : Dev) (a b c : Nat) : (d.reportRole a b c).chans = d.chans := rfl
theorem Dev.flag_wr_apart (d : Dev) (o o' : Obj) (u u' : Nat) (v : Int) (h : o'.apart o 0 0 = true) :
    (d.wr o u v).flag o' u' = d.flag o' u' := by unfold Dev.flag; rw [Dev.rd_wr_apart _ _ _ _ _ _ h]
theorem Dev.rdN_wr_apart (d : Dev) (o o' : Obj) (u u' : Nat) (v : Int) (h : o'.apart o 0 0 = true) :
    (d.wr o u v).rdN o' u' = d.rdN o' u' := by unfold Dev.rdN; rw [Dev.rd_wr_apart _ _ _ _ _ _ h]
@[simp] theorem Dev.st_wr (d : Dev) (o : Obj) (u : Nat) (v : Int) : (d.wr o u v).st = d.st := rfl
@[simp] theorem Dev.st_bump (d : Dev) (o : Obj) (u w n : Nat) : (d.bump o u w n).st = d.st := rfl
@[simp] theorem Dev.st_wrap (d : Dev) (o : Obj) (u w n : Nat) : (d.wrap o u w n).st = d.st := rfl
@[simp] theorem Dev.conv_modSt_rot (d : Dev) (k : Nat) (f : Stove → Stove) (h : ∀ s, (f s).conv = s.conv) :
    (d.modSt k f).conv k = d.conv k := by
  funext c; unfold Dev.conv; simp [h]
@[simp] theorem Dev.conv_raise (d : Dev) (n : Nat) : (d.raise n).conv = d.conv := Dev.conv_of_st (by simp)
@[simp] theorem Dev.conv_markSwap (d : Dev) (k r e : Nat) : (d.markSwap k r e).conv = d.conv := rfl
@[simp] theorem Dev.st_markSwap (d : Dev) (k r e : Nat) : (d.markSwap k r e).st = d.st := rfl

theorem Dev.convPass_eq (d : Dev) (k c : Nat) : d.convPass k c =
    { (d.modConv k c fun v => { v with failed := false, result := 1, time := d.now2, fact := d.free + 1 }) with
      free := d.free + 32 } := rfl

@[simp] theorem Dev.st_convPass (d : Dev) (k c : Nat) : (d.convPass k c).st k =
    { d.st k with conv := SMap.ins (d.st k).conv c { d.conv k c with failed := false, result := 1, time := d.now2, fact := d.free + 1 } } := by
  have h : (d.convPass k c).st = (d.modConv k c fun v => { v with failed := false, result := 1, time := d.now2, fact := d.free + 1 }).st := rfl
  rw [h, Dev.st_modConv]

@[simp] theorem Dev.conv_convPass (d : Dev) (k c : Nat) : (d.convPass k c).conv k c =
    { d.conv k c with failed := false, result := 1, time := d.now2, fact := d.free + 1 } := by
  have h : (d.convPass k c).conv = (d.modConv k c fun v => { v with failed := false, result := 1, time := d.now2, fact := d.free + 1 }).conv := rfl
  rw [h, Dev.conv_modConv_same]

@[simp] theorem Dev.convPass_frame (d : Dev) (k c : Nat) : (d.convPass k c).dict = d.dict ∧ (d.convPass k c).rdi = d.rdi ∧
    (d.convPass k c).rd = d.rd ∧ (d.convPass k c).flag = d.flag ∧ (d.convPass k c).clk = d.clk ∧ (d.convPass k c).chans = d.chans := by
  refine ⟨rfl, rfl, rfl, rfl, rfl, rfl⟩

@[simp] theorem Dev.convFail_frame (d : Dev) (k c : Nat) : (d.convFail k c).dict = d.dict ∧ (d.convFail k c).rdi = d.rdi ∧
    (d.convFail k c).rd = d.rd ∧ (d.convFail k c).flag = d.flag ∧ (d.convFail k c).clk = d.clk ∧ (d.convFail k c).chans = d.chans := by
  refine ⟨rfl, rfl, rfl, rfl, rfl, rfl⟩

@[simp] theorem Dev.st_convFail (d : Dev) (k c : Nat) : (d.convFail k c).st k =
    { d.st k with conv := SMap.ins (d.st k).conv c { d.conv k c with failed := true, result := 2 } } := by
  unfold Dev.convFail; simp

@[simp] theorem Dev.conv_convFail (d : Dev) (k c : Nat) : (d.convFail k c).conv k c =
    { d.conv k c with failed := true, result := 2 } := by
  unfold Dev.convFail; simp

end Sys2Proof.Machine
end

