-- ==== Sys2Proof/Tests/Slice0.lean ====
section
/-! SUPPORT. Tests: the ill-formed terms that WellFormed refuses, single steps, and witnesses of the statements' hypotheses. -/

set_option Elab.async false

namespace Sys2Proof.Tests

open Sys2Proof Sys2Proof.Machine

/-- A device that runs, every domain on, with what `f` sets. -/
def running (f : Dev → Dev) : State :=
  { dev := f { held := false, dict := [(D.DS_STATE.key 0 0, 1)], pd := 2 ^ 300 - 1, pwr := { vsrv := true } } }

/-- A channel in a state, its control record further changed by `f`. -/
def inState (u : Nat) (x : ChState) (f : Ctl → Ctl) (d : Dev) : Dev := d.modCtl u fun c => f { c with st := x }

/-- The hearth 256 with the leaves 0, in stove 0, and 16, in stove 1. -/
def hearthOfTwo (d : Dev) : Dev :=
  { ((d.wri C.MEMBER 256 0 0).wri C.MEMBER 256 1 16) with
    parent := [(0, 256), (16, 256)], hearths := [(256, {})] }

/-- WellFormed refuses each command that names no unit of the device. -/
theorem test_wellFormed_unit : ([
    .chCmdOff .a 384, .chCmdMonitor .a 384, .chCmdSource .a 384, .chCmdHold .a 384, .chCmdResume .a 384,
    .chCmdCalibrate .a 384, .sampleCorrected 384 0 0 none, .engineDecision 384, .idleForced 384, .deferredEdge 384,
    .bandLockTimeout 384, .coefficientWrite .a 384 0 0, .ffDataWrite .a 384 0, .ffDataRead .a 384, .oscDetection 384,
    .fbStuckDetect 384, .kelvinHalfPeriod 384, .fbSatDetect 384, .injModeStart .a 384 0, .injModeStop .a 384,
    .injCountEnd 384, .rangeWrite .a 384 true 0, .autorangeUp 384 true, .autorangeDown 384 true,
    .tMakeElapsed 384 true, .lpModeWrite .a 384 0, .lpSettleEnd 384, .apertureEnd 384, .lineTimeout 384,
    .apRunWrite .a 384 0, .accRun .a 384 true, .accStop .a 384 true, .accClear .a 384 true,
    .accClearAndRun .a 384 true, .lockinSettleEnd 384, .lockinWindowEnd 384, .sqCmdStart .a 384, .sqCmdStop .a 384,
    .sqCmdJump .a 384, .stepForce 384, .stepRamp 384, .rampEnd 384, .stepSine 384, .sineDurationEnd 384,
    .stepSweep 384, .sweepPointStart 384, .pointDelayEnd 384, .pointComplete 384, .stepDwell 384, .dwellEnd 384,
    .stepMeasure 384, .measureComplete 384, .stepWait 384, .waitConditionMet 384, .waitTimeout 384, .stepPost 384,
    .stepJump 384, .stepEnd 384, .stepPlay 384, .stepLoop 384, .stepLoopEnd 384, .stepCall 384, .stepReturn 384,
    .segmentBoundary 384, .starvedSegmentStart 384, .acqCmdArm .a 384, .acqCmdDisarm .a 384, .acqCmdForce .a 384,
    .waitSpaceGrant 384, .acqSample 384, .captureCommit 384, .rearmEnd 384, .maskStopSequence 384, .freezeEnd 384,
    .tempPoll 384, .tempSourceStale 384, .factorsApplyIdle 384] : List Instr).all (fun i => !i.wellFormed) = true := by decide

/-- WellFormed refuses each command that names no 16-bit operand of the device. -/
theorem test_wellFormed_u16 : ([
    .coefficientWrite .a 0 65536 0, .counterClearWrite .a 65536 0 0, .stickyFlagClear .a 65536 0 0,
    .auxEntryEnd 0 65536, .urgEntryEnd 0 65536, .queueAppend 65536 ⟨0, []⟩, .reservationRequest 65536 0 0,
    .reservationClose 65536 0, .txTsqEntry 0 65536, .tlvRead .a 65536 0, .tlvWrite .a 65536 0 [],
    .tlvDomainRead .a 65536 0 0, .tlvDomainWrite .a 65536 0 [], .limturReadWords 0 65536 0 0,
    .limturReadWords 0 0 65536 0, .limturWriteWords 0 65536 0 [], .limturWriteWords 0 0 65536 [],
    .dictWrite .a 65536 0 (.num 0), .consoleRd 65536 0, .consoleWr 65536 0 (.num 0), .consoleDrd 65536 0 0,
    .consoleDwr 65536 0 [], .consoleClear 65536, .consoleFence 65536] : List Instr).all (fun i => !i.wellFormed) = true := by decide

/-- WellFormed refuses each command that names no byte of the device. -/
theorem test_wellFormed_u8 : ([
    .counterClearWrite .a 0 256 0, .stickyFlagClear .a 0 256 0, .segDescWrite .a 256 0, .ptpMessageTx 0 256,
    .ptpCfgWrite .a 0 256 0, .portCfgWrite .a 0 256 (.num 0), .tlvRead .a 0 256, .tlvWrite .a 0 256 [],
    .tlvDomainRead .a 0 256 0, .tlvDomainWrite .a 0 256 [], .dictWrite .a 0 256 (.num 0), .calFactorsWrite .a 256 [],
    .cvClockWrite .a 256 0, .consoleRd 0 256, .consoleWr 0 256 (.num 0), .consoleDrd 0 256 0, .consoleDwr 0 256 []] : List Instr).all (fun i => !i.wellFormed) = true := by decide

/-- WellFormed refuses each command that names no stove of the device. -/
theorem test_wellFormed_stove : ([
    .rangeLinkTransferStart 16, .rangeLinkCheckDone 16 0 0, .refreshTransfer 16, .seCmdWrite .a 16 0,
    .stageEnMismatch 16, .ilkNLow 16, .ilkNHigh 16, .rotationStart 16, .rotEnWrite .a 16 0, .spareCalDone 16 true,
    .matchComplete 16, .converterSwap 16, .freedCalDone 16 true, .substitution 16, .auxStart .a 16,
    .auxEntryEnd 16 0, .urgCmd .a 16, .urgEntryEnd 16 0, .comparatorCrossing 16 0 true, .testDacRouteWrite .a 16 0,
    .tpSelect true 0 16, .stoveDomainSupplyOut 16] : List Instr).all (fun i => !i.wellFormed) = true := by decide

/-- WellFormed refuses each command that names no virtual channel of the device. -/
theorem test_wellFormed_hearth : ([
    .memberWrite .a 384 0 0, .hearthReshare 384] : List Instr).all (fun i => !i.wellFormed) = true := by decide

/-- WellFormed refuses each command that names no member entry of the device. -/
theorem test_wellFormed_leaf : ([
    .memberWrite .a 256 64 0] : List Instr).all (fun i => !i.wellFormed) = true := by decide

/-- WellFormed refuses each command that names no comparator of the device. -/
theorem test_wellFormed_cmp : ([
    .comparatorCrossing 0 12 true] : List Instr).all (fun i => !i.wellFormed) = true := by decide

/-- WellFormed refuses each command that names no trigger group of the device. -/
theorem test_wellFormed_group : ([
    .tgCmdArm .a 64, .tgCmdDisarm .a 64, .tgCmdForce .a 64, .groupTriggerDelivery 64] : List Instr).all (fun i => !i.wellFormed) = true := by decide

/-- WellFormed refuses each command that names no producer class of the device. -/
theorem test_wellFormed_class : ([
    .reservationRequest 0 4 0, .quotaWrite .a 4 0] : List Instr).all (fun i => !i.wellFormed) = true := by decide

/-- WellFormed refuses each command that names no 32-bit operand of the device. -/
theorem test_wellFormed_u32 : ([
    .reservationRequest 0 0 4294967296, .reservationClose 0 4294967296, .tlvDomainRead .a 0 0 4294967296,
    .limturReadWords 0 0 0 4294967296, .streamHoldoffExpiry 0 4294967296, .ownClaimClaim .a 4294967296,
    .ownClaimRelease .a 4294967296, .ownClaimHandOver .a 4294967296, .hist 4294967296, .flashRead 0 4294967296,
    .tpSelect true 4294967296 0, .consoleDrd 0 0 4294967296] : List Instr).all (fun i => !i.wellFormed) = true := by decide

/-- WellFormed refuses each command that names no pin or unit of sixteen of the device. -/
theorem test_wellFormed_sixteen : ([
    .eviEdge 16 true, .eviCfgWrite .a 16 0, .evoPulseEnd 16, .compareMatch 16, .capTimeRead .a 16] : List Instr).all (fun i => !i.wellFormed) = true := by decide

/-- WellFormed refuses each command that names no time base of the device. -/
theorem test_wellFormed_base : ([
    .stepAbs .a 4 0, .stepRel .a 4 0, .stepUnlock .a 4, .tbIncWrite .a 4 0, .timeAcceptStep .a 4,
    .timeAcceptSlew .a 4, .tbNowRead .a 4, .servoOffset 4 0 1, .announceTimeout 4, .syncTimeout 4,
    .masterQualified 4 0] : List Instr).all (fun i => !i.wellFormed) = true := by decide

/-- WellFormed refuses each command that names no 64-bit operand of the device. -/
theorem test_wellFormed_u64 : ([
    .masterQualified 0 18446744073709551616] : List Instr).all (fun i => !i.wellFormed) = true := by decide

/-- WellFormed refuses each command that names no port of the device. -/
theorem test_wellFormed_port : ([
    .ptpMessageRx 2 ⟨0, 0, 0, 0, false, 0, 0, 0, []⟩, .ptpMessageTx 2 0, .ptpCfgWrite .a 2 0 0, .txTsqEntry 2 0,
    .tsqHeadRead .a 2, .lqFrameWrite .a 2 [], .launchTime 2, .lqFlush .a 2, .portCfgWrite .a 2 0 (.num 0), .linkUp 2,
    .linkDown 2, .frameRx 2 ⟨0, 0, none, 0, true, []⟩, .samovarRequest 2 0 [], .limturReadWords 2 0 0 0,
    .limturWriteWords 2 0 0 [], .streamFrameSend 2, .streamHoldoffExpiry 2 0, .stEnableWrite .a 2 0,
    .stCmdFlush .a 2, .stCmdSkip .a 2, .leaseExpiry 2, .refclkLoss 2, .portReferenceRestored 2] : List Instr).all (fun i => !i.wellFormed) = true := by decide

/-- WellFormed refuses each command that names no rail of the device. -/
theorem test_wellFormed_rail : ([
    .railBrownout 32, .supplySample 32 0] : List Instr).all (fun i => !i.wellFormed) = true := by decide

/-- WellFormed refuses each command that names no die of the device. -/
theorem test_wellFormed_die : ([
    .dieTempSample 32 0] : List Instr).all (fun i => !i.wellFormed) = true := by decide

/-- WellFormed refuses each command that names no power domain of the device. -/
theorem test_wellFormed_domain : ([
    .pdCmdOn .a 300, .pdCmdOff .a 300] : List Instr).all (fun i => !i.wellFormed) = true := by decide

/-- WellFormed refuses each command that names no ball of the device. -/
theorem test_wellFormed_ball : ([
    .cont 4096] : List Instr).all (fun i => !i.wellFormed) = true := by decide

/-- WellFormed refuses structured operands out of their ranges. -/
theorem test_wellFormed_structured : ([
    .queueAppend 0 ⟨4, []⟩, .queueAppend 0 ⟨0, [4294967296]⟩, .servoOffset 0 0 0,
    .ptpMessageRx 0 ⟨256, 0, 0, 0, false, 0, 0, 0, []⟩, .ptpMessageRx 0 ⟨0, 0, 256, 0, false, 0, 0, 0, []⟩,
    .frameRx 0 ⟨0, 0, none, 65536, true, []⟩, .limturWriteWords 0 0 0 [65536],
    .faultReport ⟨65536, 0, 0, 0⟩, .faultReport ⟨0, 65536, 0, 0⟩, .faultReport ⟨0, 0, 4294967296, 0⟩] :
      List Instr).all (fun i => !i.wellFormed) = true := by decide

/-- WellFormed takes operands at the ends of their ranges. -/
theorem test_wellFormed_takes : ([
    .chCmdOff .a 383, .memberWrite .b 383 63 0xFFFF, .seCmdWrite .console 15 1, .pdCmdOn .a 299, .cont 4095,
    .comparatorCrossing 15 11 true, .quotaWrite .a 3 0, .tbIncWrite .a 3 0, .linkUp 1, .tgCmdArm .a 63] :
      List Instr).all Instr.wellFormed = true := by decide

/-- Hypotheses of channel_command_reaches_its_state: a listed command at both ends of the physical channels, one that names
the state the channel is in, and SOURCE where R40 holds. -/
theorem witness_channel_command :
    (∀ u ∈ [0, 255], (running id).accepts .console C.CH_CMD u 0 (ChCmd.code .monitor) ∧ (running id).found.crOf u = none ∧
      (running id).found.isMember u = false ∧ ChCmd.monitor.listed ((running id).found.ch u).ctl.st = true) ∧
    ((running id).accepts .console C.CH_CMD 255 0 (ChCmd.code .off) ∧
      ChCmd.off.target = some ((running id).found.ch 255).ctl.st) ∧
    (running (·.wr S.SE_CMD 15 1)).accepts .console C.CH_CMD 255 0 (ChCmd.code .source) ∧
      (running (·.wr S.SE_CMD 15 1)).found.ftHolds 255 = false ∧ (running (·.wr S.SE_CMD 15 1)).found.sourceOk 255 = true := by
  unfold State.accepts; decide +kernel

/-- Hypotheses of hearth_command_lands_two_cv_later. -/
theorem witness_hearth_command : (running hearthOfTwo).accepts .console C.CH_CMD 256 0 (ChCmd.code .monitor) ∧
    (running hearthOfTwo).found.crOf 256 = none ∧ (running hearthOfTwo).found.chCheck 256 .monitor = .ok ∧
    ChCmd.monitor.target ≠ some ((running hearthOfTwo).found.stateFor 256) ∧ (running hearthOfTwo).found.inStoves 256 = true := by
  unfold State.accepts; decide +kernel

/-- A hearth whose two leaves have a sample of edge 0. -/
def sampledHearth : State :=
  running fun d => ((hearthOfTwo d).modMeas 0 fun m => { m with got := true }).modMeas 16 fun m => { m with got := true }

/-- Hypotheses of sample_is_corrected_and_given_to_the_consumers, for a channel at either end and for a hearth. -/
theorem witness_sample_is_corrected :
    (∀ u ∈ [0, 255], ((running id).found.reachSlot u 0).delivers u = true ∧ (running id).found.flag C.LP_MODE u = false ∧
      ((running id).found.ch u).meas.ap = none) ∧
    (let d := sampledHearth.found;
      d.leaderOf 256 = some 0 ∧ (d.ch 256).ctl.st ≠ .calibrating ∧ (d.ch 256).meas.ap = none ∧ (d.ch 256).meas.got = false ∧
        ∀ v ∈ d.active 256, ((d.ch v).meas.sampleAt (d.sumEdge 256 0)).isSome = true) := by
  decide +kernel

/-- A channel on Source, its control record as `f` leaves it, at tick 100. -/
def regulatingAt (u : Nat) (f : Ctl → Ctl) : State :=
  running fun d => { inState u .source f d with clk := { cc := 2000, tick := 100 } }

/-- Hypotheses of decision_commands_the_switch_state_of_r51, at both ends of the physical channels. -/
theorem witness_decision : ∀ u ∈ [0, 255],
    let s := regulatingAt u fun c => { c with fresh := some 0, hv := [0, 0, 0, 0], hi := [0, 0, 0, 0] };
    let d := s.found.reachSlot u s.found.clk.tick;
    let c := (d.ch u).ctl;
    let w := d.ownLaw u;
    let L := if w.fi then predict 0 c.hv else predict 0 c.hi;
    let q := if w.fi then predict 0 c.hi else predict 0 c.hv;
    d.isMember u = false ∧ c.regulating = true ∧ d.rd C.STAGE_KIND u = 0 ∧ d.olds.at_ ≠ d.clk.tick ∧
      d.genTarget u d.clk.tick = none ∧ c.inj.on = false ∧ c.fresh = some 0 ∧ c.swapSlot = false ∧
      4 ≤ c.hv.length ∧ 4 ≤ c.hi.length ∧ c.limit = none ∧
      nextLimit none w.hi w.lo L.2.1 (errors w.target q.1 q.2.1).1 (d.rd C.RETURN_MARGIN u) (d.bandNow u) = none := by
  decide +kernel

/-- Hypotheses of missed_decisions_hold_then_force_idle: a slot without a sample, and one after the fourth in a row. -/
theorem witness_missed_decision :
    (∀ u ∈ [0, 255],
      let s := regulatingAt u id;
      let d := s.found.reachSlot u s.found.clk.tick;
      let c := (d.ch u).ctl;
      c.regulating = true ∧ d.isMember u = false ∧ d.olds.at_ ≠ d.clk.tick ∧ d.genTarget u d.clk.tick = none ∧
        c.inj.on = false ∧ c.fresh = none ∧ c.swapSlot = false) ∧
    (let d := (regulatingAt 0 fun c => { c with missRun := 4 }).found;
      let c := (d.ch 0).ctl;
      c.regulating = true ∧ 4 ≤ c.missRun ∧ c.idled = false ∧ d.rd C.STAGE_KIND 0 = 0) := by
  decide +kernel

/-- Hypotheses of pending_edge_lands_and_lock_times_out. -/
theorem witness_pending_edge :
    (((regulatingAt 0 fun c => { c with pend := some 6401 }).found.ch 0).ctl).pend = some 6401 ∧
    (((regulatingAt 0 fun c => { c with highs := [0], locked := true }).found.ch 0).ctl).highs = 0 :: [] ∧
    (((regulatingAt 0 fun c => { c with highs := [0], locked := true }).found.ch 0).ctl).locked = true := by
  decide +kernel

/-- Hypotheses of coefficient_write_is_stored: SETPOINT of a channel and BAND of a hearth, whose leaves take it too. -/
theorem witness_coefficient_write :
    (findObj objectsC C.SETPOINT.off C.SETPOINT.sub = some C.SETPOINT ∧ isCoef C.SETPOINT = true ∧
      (running id).accepts .console C.SETPOINT 255 0 (-2147483648)) ∧
    (findObj objectsC C.BAND.off C.BAND.sub = some C.BAND ∧ isCoef C.BAND = true ∧ leafCopied C.BAND = true ∧
      (running hearthOfTwo).accepts .console C.BAND 256 0 65536 ∧ (running hearthOfTwo).found.leaves 256 = [0, 16]) := by
  unfold State.accepts; decide +kernel

/-- Hypotheses of ff_data_reaches_the_selected_entry. -/
theorem witness_ff_data : (running id).accepts .console C.FF_DATA 255 0 0 ∧
    (running id).found.readStatus .console C.FF_DATA 255 0 = .ok := by
  unfold State.accepts; decide +kernel

/-- Hypotheses of oscillation_detection_reacts, for reactions 0 and 2. -/
theorem witness_oscillation :
    ∀ r ∈ [(0 : Int), 2],
      let s := running fun d => ((inState 0 .source (fun c => { c with oscRun := 65535 }) d).wr C.OSC_EN 0 1).wr C.OSC_REACT 0 r;
      (s.found.ch 0).ctl.regulating = true ∧ s.found.flag C.OSC_EN 0 = true ∧
        s.found.rdN C.OSC_CYCLES 0 ≤ (s.found.ch 0).ctl.oscRun ∧ s.found.rdN C.OSC_REACT 0 = r.toNat ∧
        s.found.crOf 0 = none := by
  decide +kernel

/-- Hypotheses of lost_feedback_fences_the_channel: each detector at its threshold. -/
theorem witness_lost_feedback :
    (let s := regulatingAt 0 fun c => { c with stuckV := { c.stuckV with edge := true, run := 65536 }, satRun := 65536 };
      s.found.crOf 0 = none ∧ (s.found.ch 0).ctl.regulating = true ∧ s.found.stuck 0 true = true ∧
        s.found.rdN C.SAT_COUNT 0 ≤ (s.found.ch 0).ctl.satRun) ∧
    (let s := running fun d => (inState 0 .hold (fun c => { c with kelN := 8192, kelHalf := some 0, kelSum := 0 }) d).wr C.KELVIN_EN 0 1;
      s.found.flag C.KELVIN_EN 0 = true ∧ (s.found.ch 0).ctl.regulating = true ∧
        ((s.found.ch 0).ctl.kelSum - 0).natAbs ≤ s.found.rd C.KELVIN_WINDOW 0 * 8192) ∧
    (let s := running fun d => ((inState 0 .hold (fun c =>
        { c with kelN := 8192, kelHalf := some 0, kelSum := 1, kelBad := 1 }) d).wr C.KELVIN_EN 0 1).wr C.KELVIN_WINDOW 0 0;
      s.found.flag C.KELVIN_EN 0 = true ∧ 1 ≤ (s.found.ch 0).ctl.kelBad ∧
        s.found.rd C.KELVIN_WINDOW 0 * 8192 < ((s.found.ch 0).ctl.kelSum - 0).natAbs) := by
  decide +kernel

/-- Hypotheses of injection_starts_and_ends: a start of either tone at the lowest period, a stop, the end by INJ_COUNT. -/
theorem witness_injection :
    (let s := running fun d => (inState 0 .source id d).wr C.INJ_PERIOD 0 2;
      s.accepts .console C.INJ_MODE 0 0 2 ∧ (s.found.ch 0).ctl.st = .source ∧ (s.found.ch 0).ctl.inj.on = false ∧
        2 ≤ s.found.rdN C.INJ_PERIOD 0 ∧ s.found.acqs = []) ∧
    (let s := running fun d => (inState 0 .source (fun c => { c with inj := { c.inj with on := true, k := 1 } }) d).wr C.INJ_COUNT 0 1;
      s.accepts .console C.INJ_MODE 0 0 0 ∧ (s.found.ch 0).ctl.inj.on = true ∧ 0 < s.found.rdN C.INJ_COUNT 0 ∧
        s.found.rdN C.INJ_COUNT 0 ≤ (s.found.ch 0).ctl.inj.k) := by
  unfold State.accepts; decide +kernel

/-- Hypotheses of counters_clear_by_zero_alone: counters of a channel and of a stove. -/
theorem witness_counter_clear : ∀ x ∈ [(0x400E, 1, C.MISS_COUNT, 0), (0x30F3, 3, S.RETRIES, 15)],
    ∃ f, lookupObj x.1 x.2.1 = some f ∧ f.o = x.2.2.1 ∧ f.unit = x.2.2.2 ∧ f.o.there f.unit f.i = true ∧
      (running id).accepts .console f.o f.unit f.i 0 := by
  unfold State.accepts
  intro x hx
  simp only [List.mem_cons, List.not_mem_nil, or_false] at hx
  rcases hx with rfl | rfl
  · exact ⟨⟨C.MISS_COUNT, 0, 0⟩, by decide +kernel⟩
  · exact ⟨⟨S.RETRIES, 15, 0⟩, by decide +kernel⟩

/-- Hypotheses of sticky_flags_clear_by_ones. -/
theorem witness_sticky_clear : ∀ x ∈ [(0x400A, 0, C.CTL_FLAGS), (0x4022, 3, C.SQ_FLAGS)],
    ∃ f, lookupObj x.1 x.2.1 = some f ∧ f.o = x.2.2 ∧ f.o.there f.unit f.i = true ∧
      (running id).accepts .console f.o f.unit f.i 1 ∧ (running id).found.genTarget f.unit ((running id).found.lastSlot f.unit) = none := by
  unfold State.accepts
  intro x hx
  simp only [List.mem_cons, List.not_mem_nil, or_false] at hx
  rcases hx with rfl | rfl
  · exact ⟨⟨C.CTL_FLAGS, 0, 0⟩, by decide +kernel⟩
  · exact ⟨⟨C.SQ_FLAGS, 0, 0⟩, by decide +kernel⟩

/-- Hypotheses of range_requests_become_pending_changes: a write at both ends of the ranges, the up-condition below and at the
highest range, the down-condition, T_MAKE. -/
theorem witness_range_requests :
    (∀ j ∈ [(0 : Int), 7], (running id).accepts .console (oRange false) 255 0 j ∧ (running id).found.rangeCheck 255 false j = .ok) ∧
    (∀ n ∈ [0, 7],
      let s := running fun d => ((d.wr C.AR_I 0 1).modRng 0 false fun r => { r with now := n, up := 65535 }).modMeas 0 id
        |> inState 0 .monitor id;
      s.found.arFree 0 false = true ∧ s.found.rdN C.AR_UP_COUNT 0 ≤ ((s.found.ch 0).rng false).up ∧
        (decide (((s.found.ch 0).rng false).now + 1 < s.found.ranges 0 false) = decide (n = 0))) ∧
    (let s := running fun d => ((d.wr C.AR_I 0 1).modRng 0 false fun r => { r with now := 1, below := some 0 })
        |> inState 0 .monitor id;
      ((s.found.ch 0).rng false).below = some 0 ∧ s.found.arFree 0 false = true ∧ 0 < ((s.found.ch 0).rng false).now ∧
        (s.found.reach (0 + s.found.rdN C.AR_DWELL 0)).downOk 0 false 0 = true) ∧
    ((((running fun d => d.modRng 0 true fun r => { r with ph := .made 0 5 }).found.ch 0).rng true).ph = .made 0 5) := by
  unfold State.accepts; decide +kernel

/-- Hypotheses of range_link_transfers_start_and_repeat: a change that waits, a refresh that is due, a first attempt whose CHECK
brings back other bits. -/
theorem witness_range_link :
    (let d := (running fun d => d.modRng 0 false fun r => { r with ph := .pending 3 }).found;
      d.linkUp 0 = true ∧ (d.st 0).link.xfer = none ∧ ((d.st 0).link.initDue || d.wantsTransfer 0) = true) ∧
    (let d := (running fun d => d.wr S.REFRESH 15 1).found;
      d.linkUp 15 = true ∧ (d.st 15).link.xfer = none ∧ 0 < d.rdN S.REFRESH 15) ∧
    (let x : Transfer := { pats := [], again := false, init := false, due := 10240 };
      let d := (running fun d => d.modSt 0 fun t => { t with link := { t.link with xfer := some x } }).found;
      (d.st 0).link.xfer = some x ∧ (1 : BitVec 128).toNat ≠ frameBits x.pats ∧ (d.reachCc x.due).injArmed .rangeLink 0 = false) := by
  decide +kernel

/-- Hypotheses of stage_enable_and_interlock_drop_the_stove: SE_CMD 1 and 0, the pin found low, ILK_N low, at both ends of the
stoves, with a channel of the stove on Source or none. -/
theorem witness_stage_enable :
    (∀ k ∈ [0, 15], (running id).accepts .console S.SE_CMD k 0 1 ∧ (running id).found.seCheck k 1 = .ok ∧
      (running id).found.chans = []) ∧
    (∀ k ∈ [0, 15],
      let s := running fun d => inState (16 * k) .source id (d.wr S.SE_CMD k 1);
      s.found.cr = none ∧ s.accepts .console S.SE_CMD k 0 0 ∧ s.found.sePin k = true ∧ (s.found.wr S.SE_CMD k 0).sePin k = false ∧
        (s.found.st k).ilk = true ∧ (s.found.ch (16 * k)).ctl.st.reg = true ∧ s.found.ftOnStove k = false) := by
  unfold State.accepts; decide +kernel

/-- Hypotheses of members_join_and_leave_a_hearth: an entry filled at both ends of the list, one emptied, an active set that
comes into force. -/
theorem witness_members :
    (∀ e ∈ [0, 63], (running id).accepts .console C.MEMBER 256 e 255 ∧ (running id).found.memberCheck .console 256 e 255 = .ok ∧
      (running id).found.rdi C.MEMBER 256 e ≠ 255 ∧ ((running id).found.sq (255 : Int).toNat).st.active = false) ∧
    ((running hearthOfTwo).accepts .console C.MEMBER 256 1 0xFFFF ∧
      (running hearthOfTwo).found.memberCheck .console 256 1 0xFFFF = .ok ∧
      (running hearthOfTwo).found.rdi C.MEMBER 256 1 ≠ 0xFFFF ∧ (running hearthOfTwo).found.member 256 1 = some 16) ∧
    (let d := (running fun d => (hearthOfTwo d).modHe 256 fun x => { x with due := some 3, leaving := [16] }).found;
      (d.he 256).due = some 3 ∧
        ∀ g ∈ ((d.reach 3).modHe 256 Hearth.next).hearthsIn 256,
          ((d.reach 3).modHe 256 Hearth.next).rdN C.MIN_MEMBERS g ≤ (((d.reach 3).modHe 256 Hearth.next).active g).length) := by
  unfold State.accepts; decide +kernel

/-- A channel whose aperture is as `a`. -/
def integrating (u : Nat) (a : Ap) : State := running fun d => d.modMeas u fun m => { m with ap := some a }

/-- Hypotheses of apertures_are_published_or_abandoned. -/
theorem witness_apertures :
    (∀ u ∈ [0, 255], (((integrating u { start := 0, edge0 := 0, owner := .free, mode := 0, len := 1, n := 1 }).found.ch u).meas.ap.map
      fun a => a.full) = some true) ∧
    (((integrating 0 { start := 0, edge0 := 0, owner := .free, mode := 1, len := 1, n := 1 }).found.ch 0).meas.ap.map
      fun a => (a.mode, a.ended)) = some (1, false) ∧
    (let s := integrating 0 { start := 0, edge0 := 0, owner := .free, mode := 0, len := 1, n := 0 };
      s.accepts .console C.AP_RUN 0 0 0 ∧ (s.found.ch 0).meas.ap.map (fun a => a.owner) = some .free) ∧
    (let s := running fun d => (inState 0 .monitor id d).wr C.AP_RUN 0 0;
      s.accepts .console C.AP_RUN 0 0 1 ∧ s.found.flag C.AP_RUN 0 = false ∧ (s.found.ch 0).meas.ap = none ∧
        (s.found.ch 0).meas.stepNext = none ∧ (s.found.ch 0).ctl.st.integrates = true) ∧
    (running id).accepts .console C.LP_MODE 255 0 1 ∧
    ((running fun d => d.modMeas 0 fun m => { m with settle := some 4096 }).found.ch 0).meas.settle = some 4096 := by
  unfold State.accepts; decide +kernel

/-- Hypotheses of accumulator_commands_wait_and_lockin_windows_publish. -/
theorem witness_accumulators :
    (running id).accepts .console C.Q_ACC_CMD 0 0 1 ∧ (running id).accepts .console C.E_ACC_CMD 255 0 4 ∧
    ((running fun d => d.modMeas 0 fun m => { m with li := { m.li with ph := .settled } }).found.ch 0).meas.li.ph = .settled ∧
    ((running fun d => d.modMeas 255 fun m => { m with li := { m.li with done := some ⟨1, 0, 0, 0, 0, 0⟩ } }).found.ch 255).meas.li.done =
      some ⟨1, 0, 0, 0, 0, 0⟩ := by
  unfold State.accepts; decide +kernel

/-- Hypotheses of auxiliary_scan_comparators_and_test_dac, at both ends of the stoves. -/
theorem witness_auxiliary : ∀ k ∈ [0, 15], (running id).found.pdOn (256 + k) = true ∧
    (running id).accepts .console S.AUX_START k 0 1 ∧ ((running id).found.st k).aux.ph = .idle ∧
    (running id).accepts .console S.URG_CMD k 0 1 ∧
    ((running fun d => d.modAux k fun a => { a with ph := .seq 16, copy := [] }).found.st k).aux.ph = .seq 16 ∧
    (let d := (running fun d => d.wri S.CMP k 11 0x8000).found;
      bit (d.rdiN S.CMP k 11) 15 = true ∧ bit (d.st k).cmp 11 = !true ∧ bit (d.rdN S.CMP_START k) 11 = false) ∧
    (running id).accepts .console S.TD_ROUTE k 0 2 ∧ (running id).found.tdCheck .console k 2 = .ok := by
  unfold State.accepts; decide +kernel

end Sys2Proof.Tests
end

section
/-! PROOFS (00_scope). Channels and stoves by number, and the full index of an object (R8, R9). -/

namespace Sys2Proof.Machine

open Sys2Proof

theorem Obj.index_phys (o : Obj) (n : Nat) (hb : o.blk = .chan) (hn : n < 256) :
    o.index n = 0x4000 + 0x40 * n + o.off := by simp [Obj.index, hb, hn]

theorem Obj.index_virt (o : Obj) (n : Nat) (hb : o.blk = .chan) (hn : 256 ≤ n) :
    o.index n = 0x8000 + 0x40 * (n - 256) + o.off := by simp [Obj.index, hb, Nat.not_lt.mpr hn]

theorem Obj.index_stove (o : Obj) (k : Nat) (hb : o.blk = .stove) : o.index k = 0x3000 + 0x10 * k + o.off := by
  simp [Obj.index, hb]

/-- Settles O22, from the full index of each kind of object. -/
theorem channelsLieInStovesAndIndicesResolve : Obligations.channels_lie_in_stoves_and_indices_resolve := by
  unfold Obligations.channels_lie_in_stoves_and_indices_resolve
  refine ⟨fun n _ => ⟨rfl, rfl⟩, fun o n hb => ⟨o.index_phys n hb, fun h _ => o.index_virt n hb h⟩, ?_⟩
  exact fun o k hb => o.index_stove k hb

end Sys2Proof.Machine
end

section
/-! PROOFS (00_scope). Counters that a write of 0 clears (R66, R534). Each such write is one `Dev.write` whose effect is
`Dev.clearCounter`; what that effect reads as and leaves alone is a fact about folds of stores. -/

namespace Sys2Proof.Machine

open Sys2Proof

/-! ### Where a write of a number goes -/

section
variable {s : State} {p : Party} {index sub : Nat} {v : Int} {f : Found}

theorem State.putNum_chan (hl : lookupObj index sub = some f) (ht : f.o.there f.unit f.i = true) (hty : f.o.ty ≠ .domain)
    (hb : f.o.blk = .chan) :
    s.putNum p index sub v = s.on fun d => d.chanWrite s.wmem p f.o f.unit f.i v := by
  have hi : f.o ≠ D.IMG_CMD := fun h => by simp [h, D.IMG_CMD] at hb
  simp [State.putNum, hl, ht, hty, hi, hb]

theorem State.putNum_stove (hl : lookupObj index sub = some f) (ht : f.o.there f.unit f.i = true)
    (hty : f.o.ty ≠ .domain) (hb : f.o.blk = .stove) :
    s.putNum p index sub v = s.on fun d => d.stoveWrite p f.o f.unit f.i v := by
  have hi : f.o ≠ D.IMG_CMD := fun h => by simp [h, D.IMG_CMD] at hb
  simp [State.putNum, hl, ht, hty, hi, hb]

theorem exec_counterClearWrite (hl : lookupObj index sub = some f) (hd : f.o.dom = .counter) :
    exec (.counterClearWrite p index sub v) s = .next (s.putNum p index sub v) := by
  change execCounterClearWrite p index sub v s = _
  simp [execCounterClearWrite, hl, hd]

end

/-! ### The counters -/

/-- The counters of CTL_COUNT, which a hearth clears in every leaf as well (R66). -/
def ctlCounters : List Obj := [C.MISS_COUNT, C.HANDOVER_COUNT, C.OSC_COUNT]

/-- The other counters of a channel that 0 clears. -/
def chanCounters : List Obj := [C.ABANDONED, C.STARVES, C.VIOL_COUNT, C.TRIG_MISSED, C.ARM_WAITS]

/-- The counters of a stove that 0 clears. -/
def stoveCounters : List Obj :=
  [S.RETRIES, S.UPSETS, S.ILK_EVENTS, S.MATCH_FAILS, S.OVERRUNS, S.URG_OVERRUNS, S.SLOT_OVERRUNS]

/-- The counters of channels and stoves that 0 clears (R534). -/
def zeroCounters : List Obj := ctlCounters ++ chanCounters ++ stoveCounters

theorem zeroCounters_row : ∀ o ∈ zeroCounters, o.dom = .counter ∧ o.ty ≠ .domain ∧ o.nsubs = 1 ∧ o.off ≠ 0x01 ∧ o.off < 64 := by
  decide

theorem chan_of_mem_counters : ∀ o ∈ ctlCounters ++ chanCounters, o.blk = .chan ∧ o.apart C.HS_FLAGS 0 0 = true := by
  decide

theorem stove_of_mem_counters : ∀ o ∈ stoveCounters, o.blk = .stove ∧ o.off < 16 ∧ o.sub < 256 := by decide

/-- One subindex is one place. -/
theorem Obj.there_place_zero {o : Obj} {u i : Nat} (ht : o.there u i = true) (hn : o.nsubs = 1) : i = 0 := by
  simp only [Obj.there, Bool.and_eq_true, decide_eq_true_eq] at ht
  omega

theorem Obj.there_stove_lt {o : Obj} {k i : Nat} (ht : o.there k i = true) (hb : o.blk = .stove) : k < 16 := by
  simp [Obj.there, hb] at ht
  exact ht.2

/-- No event and no watching of cuts writes a counter that 0 clears. -/
theorem plainHs_of_mem_zeroCounters {o : Obj} {u i : Nat} (ho : o ∈ zeroCounters) (ht : o.there u i = true) : o.plainHs u i := by
  obtain rfl : i = 0 := Obj.there_place_zero ht (zeroCounters_row o ho).2.2.1
  rcases List.mem_append.mp ho with hc | hs
  · obtain ⟨hb, ha⟩ := chan_of_mem_counters o hc
    exact o.plainHs_chan u 0 hb ha
  · obtain ⟨hb, hoff, hsub⟩ := stove_of_mem_counters o hs
    exact o.plainHs_stove u 0 hb ⟨Obj.there_stove_lt ht hb, hoff, hsub⟩

/-- Rows of different units have different keys. -/
theorem Obj.key_ne_of_unit_ne (o : Obj) (i : Nat) (h : o.off < 64) (a b : Nat) (hab : a ≠ b) :
    o.key a i ≠ o.key b i := by
  unfold Obj.key Obj.index
  cases o.blk with
  | chan =>
    dsimp only
    split <;> split <;> omega
  | stove => dsimp only; omega
  | dev => dsimp only; omega

/-! ### The effect of an accepted 0 -/

/-- The units in which a write to a counter clears it: of CTL_COUNT the unit and its leaves, else the unit alone (R66). -/
def Dev.counterUnits (d : Dev) (o : Obj) (u : Nat) : List Nat := if o ∈ ctlCounters then d.withLeaves u else [u]

/-- A counter cleared in every unit it is cleared in. -/
def Dev.clearCounter (d : Dev) (o : Obj) (u i : Nat) : Dev :=
  (d.counterUnits o u).foldl (fun e l => e.store o l i 0) d

theorem Dev.mem_counterUnits (d : Dev) (o : Obj) (u : Nat) : u ∈ d.counterUnits o u := by
  unfold Dev.counterUnits Dev.withLeaves
  split
  · split <;> simp
  · simp

theorem Dev.rdi_clearCounter_same (d : Dev) (o : Obj) (u i : Nat) (hd : o.dom = .counter) (hlt : o.off < 64) :
    (d.clearCounter o u i).rdi o u i = 0 := by
  have hk : ∀ x, o.dom.kept x 0 = 0 := fun x => by rw [hd]; rfl
  have h := foldl_store_mem o i u 0 (fun x y => by rw [hk, hk]) 0 (o.key_ne_of_unit_ne i hlt) (d.counterUnits o u) d
    (.inl (d.mem_counterUnits o u))
  exact h.trans (hk 0)

theorem Dev.rdi_clearCounter_other (d : Dev) (o o' : Obj) (u i u' i' : Nat) (h : ∀ w, o'.key u' i' ≠ o.key w i) :
    (d.clearCounter o u i).rdi o' u' i' = d.rdi o' u' i' := foldl_store_other _ _ _ _ _ _ _ h d

theorem Dev.chans_clearCounter (d : Dev) (o : Obj) (u i : Nat) : (d.clearCounter o u i).chans = d.chans :=
  foldl_keep Dev.chans (fun e l => e.store o l i 0) (fun _ _ => rfl) _ d

theorem Dev.outside_clearCounter (d : Dev) (o : Obj) (u i : Nat) : (d.clearCounter o u i).outside = d.outside :=
  foldl_keep Dev.outside (fun e l => e.store o l i 0) (fun _ _ => rfl) _ d

/-! ### The write of a counter -/

/-- A counter takes no value but 0, so an effect need only be known at 0. -/
theorem Dev.write_counter_congr (d : Dev) (p : Party) (o : Obj) (u i : Nat) (v : Int) (eff eff' : Dev → Dev)
    (hd : o.dom = .counter) (h : v = 0 → eff d = eff' d) : d.write p o u i v .ok eff = d.write p o u i v .ok eff' := by
  by_cases hw : d.writeStatus p o u i v .ok = .ok
  · obtain ⟨-, -, -, -, ⟨-, hv⟩, -⟩ := (d.writeStatus_ok p o u i v .ok).mp hw
    rw [Dev.write_ok _ _ _ _ _ _ _ _ hw, Dev.write_ok _ _ _ _ _ _ _ _ hw, h (by simpa [hd, Dom.accepts] using hv)]
  · rw [Dev.write_refused _ _ _ _ _ _ _ _ hw, Dev.write_refused _ _ _ _ _ _ _ _ hw]

/-- CTL_COUNT has a write of its own (R66). -/
theorem Dev.chanWrite_ctlCounter (d : Dev) (m : Mem) (p : Party) (o : Obj) (u i : Nat) (v : Int) (ho : o ∈ ctlCounters) :
    d.chanWrite m p o u i v = d.ctlCountWrite p o u i v := by
  simp only [ctlCounters, List.mem_cons, List.not_mem_nil, or_false] at ho
  rcases ho with rfl | rfl | rfl <;> rfl

/-- The other counters of a channel have no rule beside their row. -/
theorem Dev.chanWrite_chanCounter (d : Dev) (m : Mem) (p : Party) (o : Obj) (u i : Nat) (v : Int) (ho : o ∈ chanCounters) :
    d.chanWrite m p o u i v = d.write p o u i v .ok fun e => e.store o u i v := by
  simp only [chanCounters, List.mem_cons, List.not_mem_nil, or_false] at ho
  rcases ho with rfl | rfl | rfl | rfl | rfl <;> rfl

/-- The counters of a stove have no rule beside their row. -/
theorem Dev.stoveWrite_stoveCounter (d : Dev) (p : Party) (o : Obj) (k i : Nat) (v : Int) (ho : o ∈ stoveCounters) :
    d.stoveWrite p o k i v = d.write p o k i v .ok fun e => e.store o k i v := by
  simp only [stoveCounters, List.mem_cons, List.not_mem_nil, or_false] at ho
  rcases ho with rfl | rfl | rfl | rfl | rfl | rfl | rfl <;> rfl

theorem Dev.clearCounter_ctl (d : Dev) (o : Obj) (u i : Nat) (ho : o ∈ ctlCounters) (hd : o.dom = .counter) :
    d.clearCounter o u i = (d.withLeaves u).foldl (fun e l => e.wri o l i 0) d := by
  simp only [Dev.clearCounter, Dev.counterUnits, if_pos ho, Dev.store, hd, Dom.kept]

theorem Dev.clearCounter_own (d : Dev) (o : Obj) (u i : Nat) (ho : o ∉ ctlCounters) : d.clearCounter o u i = d.store o u i 0 := by
  simp only [Dev.clearCounter, Dev.counterUnits, if_neg ho, List.foldl_cons, List.foldl_nil]

theorem not_ctl_of_mem_counters : ∀ o ∈ chanCounters ++ stoveCounters, o ∉ ctlCounters := by decide

/-- A write to a counter is one write with one effect: the counter cleared. -/
theorem exec_counterClearWrite_zeroCounter {s : State} {p : Party} {index sub : Nat} {f : Found} (v : Int)
    (hl : lookupObj index sub = some f) (ht : f.o.there f.unit f.i = true) (ho : f.o ∈ zeroCounters) :
    exec (.counterClearWrite p index sub v) s =
      .next (s.on fun d => d.write p f.o f.unit f.i v .ok fun e => e.clearCounter f.o f.unit f.i) := by
  obtain ⟨hd, hty, -⟩ := zeroCounters_row f.o ho
  rw [exec_counterClearWrite hl hd]
  congr 1
  have hstore : f.o ∈ chanCounters ++ stoveCounters → ∀ d : Dev, v = 0 →
      d.store f.o f.unit f.i v = d.clearCounter f.o f.unit f.i := by
    rintro hm d rfl
    exact (d.clearCounter_own _ _ _ (not_ctl_of_mem_counters _ hm)).symm
  rcases List.mem_append.mp ho with hc | hs
  · rw [State.putNum_chan hl ht hty (chan_of_mem_counters _ hc).1]
    refine congrArg s.on (funext fun d => ?_)
    rcases List.mem_append.mp hc with hctl | hch
    · rw [d.chanWrite_ctlCounter _ _ _ _ _ _ hctl]
      exact d.write_counter_congr _ _ _ _ _ _ _ hd fun _ => (d.clearCounter_ctl _ _ _ hctl hd).symm
    · rw [d.chanWrite_chanCounter _ _ _ _ _ _ hch]
      exact d.write_counter_congr _ _ _ _ _ _ _ hd (hstore (List.mem_append_left _ hch) d)
  · rw [State.putNum_stove hl ht hty (stove_of_mem_counters _ hs).1]
    refine congrArg s.on (funext fun d => ?_)
    rw [d.stoveWrite_stoveCounter _ _ _ _ _ hs]
    exact d.write_counter_congr _ _ _ _ _ _ _ hd (hstore (List.mem_append_right _ hs) d)

/-- Only CH_CMD is refused by its value in a state of the channel (R414). -/
theorem Dev.stateOk_value (d : Dev) (o : Obj) (u : Nat) (v w : Int) (h : o.off ≠ 0x01) : d.stateOk o u v = d.stateOk o u w := by
  have h1 : (o.off == 0x01) = false := by simpa using h
  simp [Dev.stateOk, h1]

/-- Settles O20: the write is accepted with 0 alone, and its effect is a fold of stores of 0. -/
theorem countersClearByZeroAlone : Obligations.counters_clear_by_zero_alone := by
  unfold Obligations.counters_clear_by_zero_alone
  rintro s p index sub f _ hl rfl ht ho ha
  replace ho : f.o ∈ zeroCounters := ho
  obtain ⟨hd, -, -, hoff, hlt⟩ := zeroCounters_row f.o ho
  refine ⟨State.leads_of (exec_counterClearWrite_zeroCounter 0 hl ht ho) ?_, fun v hv =>
    State.leads_of (exec_counterClearWrite_zeroCounter v hl ht ho) ?_⟩
  · rw [State.dev_on, Dev.write_ok _ _ _ _ _ _ _ _ ha]
    refine ⟨rfl, ?_, fun o' u' i' hp hk => ?_, by simp [Dev.chans_clearCounter], by simp [Dev.outside_clearCounter]⟩
    · exact (Dev.rdi_watchCuts _ _ _ _ (plainHs_of_mem_zeroCounters ho ht)).trans (Dev.rdi_clearCounter_same _ _ _ _ hd hlt)
    · exact (Dev.rdi_watchCuts _ _ _ _ hp).trans (Dev.rdi_clearCounter_other _ _ _ _ _ _ _ hk)
  · rw [State.dev_on]
    exact write_value_refused _ _ _ _ _ _ _ ha hd hv fun w => Dev.stateOk_value _ _ _ _ _ hoff

end Sys2Proof.Machine
end

section
/-! PROOFS (01_architecture). The step of an empty queue: one core cycle, in which the clocks count and each time base adds its
increment (R18, R313). -/

namespace Sys2Proof.Machine

open Sys2Proof

/-- Where no command waits, the step is one core cycle of the device (log 2). -/
theorem step_of_pending_nil (s : State) (h : s.pending = []) : step s = .next (s.on fun d => d.advCc 1) := by
  unfold step
  rw [h]

/-- Each of the four time bases adds its increment once for every core cycle that passes (R313): `Dev.advCc` changes them one
after the other, and of these changes only the base's own touches it. -/
theorem Dev.tbase_advCc (d : Dev) (k n : Nat) (hn : n < 4) :
    (d.advCc k).tbase n = { d.tbase n with acc := (d.tbase n).acc + k * (d.tbase n).inc } := by
  unfold Dev.advCc
  split
  next hk => simp [hk]
  next =>
    have clockOnly (c : Clock) : Dev.tbase { d with clk := c } n = d.tbase n := rfl
    match n, hn with
    | 0, _ | 1, _ | 2, _ | 3, _ => simp [Dev.tbase_modTb_other, clockOnly]

/-- Settles O2: the step is `Dev.advCc 1` on the device as found, whose clock, time bases and frame are the laws of time. -/
theorem anEmptyQueuePassesOneCoreCycle : Obligations.an_empty_queue_passes_one_core_cycle := by
  unfold Obligations.an_empty_queue_passes_one_core_cycle
  intro s hq
  have hclk : (s.found.advCc 1).clk = s.found.clk.adv 1 := Dev.advCc_clk s.found 1
  refine ⟨_, step_of_pending_nil s hq, ?_⟩
  rw [State.dev_on]
  refine ⟨congrArg Clock.cc hclk, hclk, fun n hn => ?_, by simp, by simp, by simp, rfl, rfl, hq⟩
  simpa using s.found.tbase_advCc 1 n hn

end Sys2Proof.Machine
end

section
/-! PROOFS (02_control_engine). Channel commands (R36–R42): a command that is accepted leaves its channel in the state it names
and every other channel as it was. -/

namespace Sys2Proof.Machine

open Sys2Proof

/-- The state a channel command leaves its channel in: the one it names; for RESUME, which names none, Source (R38, R39). -/
def ChCmd.reached (x : ChCmd) : ChState := x.target.getD .source

/-- A write of a command's code is judged by that command and carries it out. -/
theorem Dev.chCmd_code (d : Dev) (p : Party) (u : Nat) (x : ChCmd) :
    d.chCmd p u x.code = d.write p C.CH_CMD u 0 x.code (d.chCheck u x) fun e =>
      ((e.chApply u x false).crFailOn u 5).ftAbortIf (x = .off && (e.active u).any e.ftHolds) := by
  cases x <;> rfl

/-- A physical channel that is no member takes the command that names its state, and one that R38 lists for its state where
R40 holds. -/
theorem Dev.chCheck_ok (d : Dev) (u : Nat) (x : ChCmd) (hu : u < 256) (hm : d.isMember u = false)
    (h : x.target = some (d.ch u).ctl.st ∨
      (x.listed (d.ch u).ctl.st = true ∧ (x = .source → d.ftHolds u = false ∧ d.sourceOk u = true))) :
    d.chCheck u x = .ok := by
  have hst : d.stateFor u = (d.ch u).ctl.st := if_pos hu
  have hnv : ¬ 256 ≤ u := by omega
  unfold Dev.chCheck
  rcases h with hsame | ⟨hlisted, hsource⟩
  · simp [hst, hm, hsame]
  · by_cases hx : x = .source
    · obtain ⟨hft, hok⟩ := hsource hx
      simp [hst, hm, hlisted, hft, hok, hnv]
    · simp [hst, hm, hlisted, hx, hnv]

theorem Dev.crFailOn_none (d : Dev) (u res : Nat) (h : d.crOf u = none) : d.crFailOn u res = d := by
  simp [Dev.crFailOn, h]

/-- A command to a physical channel leaves it in the command's state, and every other channel and the calibration run as
they were: where the channel is in the state the command names, nothing happens, else the command is carried out. -/
theorem Dev.stc_chApply (d : Dev) (u : Nat) (x : ChCmd) (hu : u < 256) (hc : d.crOf u = none) :
    (d.chApply u x false).stc = (fun v => if v = u then x.reached else d.stc.1 v, d.stc.2) := by
  have hnv : ¬ 256 ≤ u := by omega
  unfold Dev.chApply
  split
  next hsame =>
    have hst : (d.ch u).ctl.st = x.reached := by simp [ChCmd.reached, hsame, Dev.stateFor, hu]
    refine Prod.ext (funext fun v => ?_) rfl
    by_cases hv : v = u
    · subst hv; simp only [if_true]; exact hst
    · simp [hv]
  next =>
    rw [if_neg (by simp [hnv])]
    exact Dev.stc_chDo d u x x.reached {} hu hc (by cases x <;> simp [ChCmd.reached, ChCmd.target])

/-- Settles O9: the command is accepted, and its effect on the states is `Dev.stc_chApply`. -/
theorem channelCommandReachesItsState : Obligations.channel_command_reaches_its_state := by
  unfold Obligations.channel_command_reaches_its_state
  intro s p u c x y hcmd hu ha hc hm hs
  have hrow : exec c s = .next (s.on fun d => d.chCmd p u x.code) ∧ y = x.reached := by
    simp only [List.mem_cons, Prod.mk.injEq, List.not_mem_nil, or_false] at hcmd
    rcases hcmd with h | h | h | h | h | h <;> obtain ⟨rfl, rfl, rfl⟩ := h <;> exact ⟨rfl, rfl⟩
  obtain ⟨hexec, rfl⟩ := hrow
  have happly := s.found.stc_chApply u x hu hc
  have hrun : (s.found.chApply u x false).crOf u = none := by
    rw [Dev.crOf_of_stc _ s.found u (by rw [happly]), hc]
  refine State.leads_write (P := fun d => d.status = .ok ∧ (fun v => (d.ch v).ctl.st) = _) hexec (Dev.chCmd_code _ _ _ _)
    ha (s.found.chCheck_ok u x hu hm hs) ⟨rfl, ?_⟩
  have hstc : ((((s.found.chApply u x false).crFailOn u 5).ftAbortIf
      (x = .off && (s.found.active u).any s.found.ftHolds)).watchCuts.say .ok).stc = (s.found.chApply u x false).stc := by
    simp [Dev.crFailOn_none _ _ _ hrun]
  exact congrArg Prod.fst (hstc.trans happly)

end Sys2Proof.Machine
end

section
/-! PROOFS (02_control_engine). The slot of a channel that is no member (R49–R51, R64, R65): its sample taken up, and then
decided by the channel's own law or missed. -/

namespace Sys2Proof.Machine

open Sys2Proof

/-- Channel `u` with its newest sample taken up by the slot, whatever the slot then makes of it (R49). -/
def Dev.slotTaken (d : Dev) (u : Nat) : Dev := d.modCtl u fun c => { c with fresh := none, swapSlot := false }

@[simp] theorem Dev.ctl_slotTaken (d : Dev) (u : Nat) :
    ((d.slotTaken u).ch u).ctl = { (d.ch u).ctl with fresh := none, swapSlot := false } := by simp [Dev.slotTaken]

theorem Dev.ch_slotTaken_other (d : Dev) (u v : Nat) (h : v ≠ u) : (d.slotTaken u).ch v = d.ch v :=
  Dev.ch_modCtl_other _ _ _ _ h

@[simp] theorem Dev.slotTaken_frame (d : Dev) (u : Nat) :
    (d.slotTaken u).rd = d.rd ∧ (d.slotTaken u).isMember = d.isMember ∧ (d.slotTaken u).outside = d.outside := by
  simp [Dev.slotTaken]

@[simp] theorem Dev.bandNow_slotTaken (d : Dev) (u : Nat) : (d.slotTaken u).bandNow u = d.bandNow u := by
  simp [Dev.slotTaken, Dev.bandNow, Dev.bandInverted, Dev.bandClamp]

@[simp] theorem Dev.ownLaw_slotTaken (d : Dev) (u : Nat) : (d.slotTaken u).ownLaw u = d.ownLaw u := by
  simp [Dev.slotTaken, Dev.ownLaw, Dev.target, Dev.inject, Dev.injLive]

/-- The slot of a channel that is no member decides a fresh sample by the channel's own law (R49). -/
theorem Dev.slotDecision_fresh (d : Dev) (u n : Nat) (hm : d.isMember u = false) (hf : (d.ch u).ctl.fresh = some n)
    (hs : (d.ch u).ctl.swapSlot = false) : d.slotDecision u = (d.slotTaken u).decision u n (d.ownLaw u) := by
  have hlaw : (d.slotTaken u).lawOf u n = some (d.ownLaw u) := by simp [Dev.lawOf, hm]
  unfold Dev.slotDecision
  simp only [hs, hf, Option.getD_some, Option.isNone_some, Bool.false_eq_true, if_false]
  rw [← Dev.slotTaken, hlaw]

/-- The slot of a channel without a sample misses its decision, for cause 0 (R64). -/
theorem Dev.slotDecision_absent (d : Dev) (u : Nat) (hf : (d.ch u).ctl.fresh = none)
    (hs : (d.ch u).ctl.swapSlot = false) :
    d.slotDecision u = ((d.slotTaken u).missed u (d.edgeNow u) 0).injMissed u (d.edgeNow u) := by
  unfold Dev.slotDecision
  simp only [hs, hf, Option.getD_none, Option.isNone_none, Bool.false_eq_true, if_false, if_true]
  rfl

/-- Settles O12: the slot is a decision by the channel's own law, of which `Dev.swc_decision` gives the commanded state. -/
theorem decisionCommandsTheSwitchStateOfR51 : Obligations.decision_commands_the_switch_state_of_r51 := by
  unfold Obligations.decision_commands_the_switch_state_of_r51
  rintro s u d c n w b pv pi hu hd rfl rfl rfl rfl rfl hm hr hk ho hg hinj hf hswap hv hi hlim L hL e he hnext
  refine State.leads_dev (f := fun d => d.engineSlot u)
    (P := fun t => (t.ch u).ctl.sw = _ ∧ (t.ch u).ctl.fresh = none ∧ (t.ch u).ctl.missRun = 0) rfl ?_
  rw [Dev.slot_own s u d hu hd hm hr ho hg, Dev.slotDecision_fresh d u n hm hf hswap]
  have hdec := Dev.swc_decision (d.slotTaken u) u n (d.ownLaw u) (by simpa using hm) (by simpa using hk) (by simpa using hinj)
    (by simpa using hv) (by simpa using hi) (by simpa using hlim) L (by simpa using hL) e (by simpa using he)
    (by simpa using hnext)
  simp only [Dev.swc, Dev.ctl_slotTaken, Dev.bandNow_slotTaken, Prod.mk.injEq] at hdec
  obtain ⟨hsw, hfresh, hmiss, -⟩ := hdec
  exact ⟨hsw, hfresh, hmiss⟩

/-- A decision missed without a sample by a channel that is no member: the miss flagged and counted, its cause kept and
reported (R64, R66). -/
theorem Dev.missed_own (d : Dev) (u n : Nat) (hm : d.isMember u = false) :
    d.missed u n 0 =
      ((((d.modCtl u fun c => { c.flagIf fCtlMiss true with missRun := c.missRun + 1 }).bump C.MISS_COUNT u 32 1).wr
        C.LAST_MISS_CAUSE u 0).wr C.LAST_MISS_CAUSE u 0).report 0x1100 u 0 := by
  have htop : ∀ e : Dev, e.parentOf = d.parentOf → e.topOf u = u := fun e h =>
    Dev.topOf_own e u (by simpa [Dev.isMember, h] using hm)
  unfold Dev.missed
  rw [Dev.putBus_own _ _ _ _ (by simpa using hm)]
  simp only [Nat.zero_ne_one, if_false]
  rw [htop _ (by simp)]
  rfl

/-- Without an injection a missed decision leaves no record (R88). -/
theorem Dev.injMissed_off (d : Dev) (u n : Nat) (hm : d.isMember u = false) (h : (d.ch u).ctl.inj.on = false) :
    d.injMissed u n = d := by
  simp [Dev.injMissed, Dev.injUnit_own d u hm, Dev.injLive_off d u h]

/-- What a decision missed without a sample leaves behind, of a channel that is no member and has no injection: the
control record with the sample taken and the miss in it, the count and the cause (R64, R66). -/
theorem Dev.slotDecision_missed (d : Dev) (u : Nat) (hm : d.isMember u = false) (hi : (d.ch u).ctl.inj.on = false)
    (hf : (d.ch u).ctl.fresh = none) (hs : (d.ch u).ctl.swapSlot = false) :
    ((d.slotDecision u).ch u).ctl =
      { (d.ch u).ctl with sticky := (d.ch u).ctl.sticky ||| 2 ^ fCtlMiss, missRun := (d.ch u).ctl.missRun + 1 } ∧
    (d.slotDecision u).rd C.MISS_COUNT u = min (d.rd C.MISS_COUNT u + 1) (2 ^ 32 - 1) ∧
    (d.slotDecision u).rd C.LAST_MISS_CAUSE u = 0 ∧ (d.slotDecision u).outside = d.outside ∧
    ∀ v, v ≠ u → (d.slotDecision u).ch v = d.ch v := by
  have hmt : (d.slotTaken u).isMember u = false := by simpa using hm
  rw [Dev.slotDecision_absent d u hf hs, Dev.missed_own _ _ _ hmt,
    Dev.injMissed_off _ _ _ (by simpa using hm) (by simpa [Ctl.flagIf] using hi)]
  refine ⟨?_, ?_, ?_, ?_, fun v hv => ?_⟩
  · simp [Ctl.flagIf, ← hf, ← hs]
  · simp (disch := decide) [Dev.rd_wr_apart]
  · simp
  · simp
  · simp [Dev.ch_modCtl_other _ _ _ _ hv, Dev.ch_slotTaken_other _ _ _ hv]

/-- A switching channel that has missed four decisions in a row is idle from the edge of the following cv on (R65). -/
theorem Dev.forceIdle_switching (d : Dev) (u : Nat) (hr : (d.ch u).ctl.regulating = true) (hn : 4 ≤ (d.ch u).ctl.missRun)
    (hi : (d.ch u).ctl.idled = false) (hk : d.rd C.STAGE_KIND u = 0) :
    d.forceIdle u = (((d.reach (d.clk.tick + 1)).modCtl u fun c => { c with idled := true }).modCtl u fun c =>
      { c with sw := .idle, out := .idle, prior := .idle, pend := none, highs := [], locked := false, oscSum := 0, oscN := 0
      }).report 0x1101 u 0 := by
  have hguard : (!(d.ch u).ctl.regulating || decide ((d.ch u).ctl.missRun < 4) || (d.ch u).ctl.idled) = false := by
    simp [hr, hi, hn]
  simp [Dev.forceIdle, hguard, hk]

/-- Settles O13: the slot without a sample by `Dev.slotDecision_missed`, the idle state by `Dev.forceIdle_switching`. -/
theorem missedDecisionsHoldThenForceIdle : Obligations.missed_decisions_hold_then_force_idle := by
  unfold Obligations.missed_decisions_hold_then_force_idle
  rintro s u d c hu rfl hr
  refine ⟨fun hd hm ho hg hi hf hs => ?_, fun hd hn hidle hk => ?_⟩
  · refine State.leads_of (t := s.on fun d => d.engineSlot u) rfl ?_
    rw [State.dev_on, Dev.slot_own s u d hu hd hm hr ho hg]
    obtain ⟨hctl, hcount, hcause, hout, hother⟩ := Dev.slotDecision_missed d u hm hi hf hs
    simp only [hctl, true_and]
    exact ⟨hcount, hcause, hout, hother⟩
  · refine State.leads_of (t := s.on fun d => d.forceIdle u) rfl ?_
    rw [State.dev_on, ← hd, Dev.forceIdle_switching d u hr hn hidle hk, Dev.reach_eq]
    refine ⟨by simp, by simp, by simp, by simp, by simp, by simp, by simp, by simp, by simp, fun v hv => ?_⟩
    simp [Dev.ch_modCtl_other _ _ _ _ hv]

end Sys2Proof.Machine
end

section
/-! PROOFS (02_control_engine). A coefficient's write (R41, R72, R133): the value kept, on a hearth's leaves as well, the
target of a SETPOINT, and what stays. -/

namespace Sys2Proof.Machine

open Sys2Proof

/-! ### Coefficients in the channel table -/

/-- The key of a coefficient is one that no event and no watching of cuts writes. -/
theorem Obj.plainHs_coef {o : Obj} {u i : Nat} (ho : o ∈ objectsC) (hc : isCoef o = true) (hi : o.sub + i < 256) :
    o.plainHs u i := by
  obtain ⟨hb, hlt, -, -⟩ := objectsC_rows o ho
  obtain ⟨-, h39, -⟩ := coef_kept o ho hc
  refine o.plainHs_chan u i hb ?_
  have hrow : C.HS_FLAGS.blk = .chan ∧ C.HS_FLAGS.off = 0x39 ∧ C.HS_FLAGS.sub = 1 := ⟨rfl, rfl, rfl⟩
  simp only [Obj.apart, hb, hrow, Bool.and_eq_true, decide_eq_true_eq]
  omega

/-- COEFFICIENT_WRITE of a coefficient without a rule of its own is one write that stores it. -/
theorem exec_coefficientWrite {s : State} {p : Party} {o : Obj} {u i : Nat} {v : Int}
    (hf : findObj objectsC o.off (o.sub + i) = some o) (hc : isCoef o = true) (h1 : o ≠ C.FF_DATA) (h2 : o ≠ C.INJ_MODE)
    (hi : o.sub + i < 256) :
    exec (.coefficientWrite p u (256 * o.off + (o.sub + i)) v) s =
      .next (s.on fun d => d.write p o u i v .ok fun e => e.coefStore o u i v) := by
  have hoff : (256 * o.off + (o.sub + i)) / 256 = o.off := by omega
  have hsub : (256 * o.off + (o.sub + i)) % 256 = o.sub + i := by omega
  change execCoefficientWrite p u (256 * o.off + (o.sub + i)) v s = _
  simp [execCoefficientWrite, hoff, hsub, hf, hc, Dev.coefWrite, h1, h2]

/-! ### What storing a coefficient leaves -/

/-- The unit itself keeps the value, written to its leaves or not. -/
theorem Dev.rdi_storeCh_same (d : Dev) (o : Obj) (u i : Nat) (v : Int) (hk : ∀ x y, o.dom.kept x v = o.dom.kept y v)
    (hlt : o.off < 64) : (d.storeCh o u i v).rdi o u i = o.dom.kept (d.rdi o u i) v := by
  have hown : (d.store o u i v).rdi o u i = o.dom.kept (d.rdi o u i) v := Dev.rdi_wri_same _ _ _ _ _
  unfold Dev.storeCh
  dsimp only
  split
  · exact foldl_store_mem o i u v hk _ (o.key_ne_of_unit_ne i hlt) _ _ (.inr hown)
  · exact hown

/-- A hearth's leaf keeps the value of an object that is copied to the leaves (R133). -/
theorem Dev.rdi_storeCh_leaf (d : Dev) (o : Obj) (u i l : Nat) (v : Int) (hk : ∀ x y, o.dom.kept x v = o.dom.kept y v)
    (hlt : o.off < 64) (hu : 256 ≤ u) (hcopied : leafCopied o = true) (hl : l ∈ d.leaves u) :
    (d.storeCh o u i v).rdi o l i = o.dom.kept (d.rdi o l i) v := by
  unfold Dev.storeCh
  dsimp only
  rw [if_pos (by simp [hu, hcopied])]
  exact foldl_store_mem o i l v hk _ (o.key_ne_of_unit_ne i hlt) _ _ (.inl hl)

/-- What reads after a coefficient is stored is what storing it leaves, on a device that has noted the old values. -/
theorem Dev.rdi_coefStore (d : Dev) (o : Obj) (u i : Nat) (v : Int) :
    (d.coefStore o u i v).rdi = (((d.withLeaves u).foldl (fun e l => e.noteOld o l i) d).storeCh o u i v).rdi :=
  coefEffect_rdi _ _ _ _

theorem Dev.rdi_coefStore_same (d : Dev) (o : Obj) (u i : Nat) (v : Int) (hk : ∀ x y, o.dom.kept x v = o.dom.kept y v)
    (hlt : o.off < 64) : (d.coefStore o u i v).rdi o u i = o.dom.kept (d.rdi o u i) v := by
  rw [Dev.rdi_coefStore, Dev.rdi_storeCh_same _ _ _ _ _ hk hlt, (foldl_noteOld _ _ _ _).1]

theorem Dev.rdi_coefStore_leaf (d : Dev) (o : Obj) (u i l : Nat) (v : Int) (hk : ∀ x y, o.dom.kept x v = o.dom.kept y v)
    (hlt : o.off < 64) (hu : 256 ≤ u) (hcopied : leafCopied o = true) (hl : l ∈ d.leaves u) :
    (d.coefStore o u i v).rdi o l i = o.dom.kept (d.rdi o l i) v := by
  obtain ⟨hrdi, -, hleaves⟩ := foldl_noteOld (d.withLeaves u) o i d
  rw [Dev.rdi_coefStore, Dev.rdi_storeCh_leaf _ _ _ _ _ _ hk hlt hu hcopied (by rw [hleaves]; exact hl), hrdi]

theorem Dev.rdi_coefStore_other (d : Dev) (o o' : Obj) (u i u' i' : Nat) (v : Int) (h : ∀ w, o'.key u' i' ≠ o.key w i) :
    (d.coefStore o u i v).rdi o' u' i' = d.rdi o' u' i' := by
  rw [Dev.rdi_coefStore, storeCh_other _ _ _ _ _ _ _ _ h, (foldl_noteOld _ _ _ _).1]

/-- Neither the state nor the measurements of any channel go by a coefficient's write. -/
theorem Dev.ch_coefStore (d : Dev) (o : Obj) (u i w : Nat) (v : Int) :
    ((d.coefStore o u i v).ch w).ctl.st = (d.ch w).ctl.st ∧ ((d.coefStore o u i v).ch w).meas = (d.ch w).meas := by
  have h := coefEffect_ch (((d.withLeaves u).foldl (fun e l => e.noteOld o l i) d).storeCh o u i v) o u v w
  rwa [storeCh_ch, (foldl_noteOld _ _ _ _).2.1] at h

/-- A SETPOINT is the target in force, unless the channel is on Hold (R41). -/
theorem Dev.tgt_coefStore_setpoint (d : Dev) (u i : Nat) (v : Int) :
    ((d.coefStore C.SETPOINT u i v).ch u).ctl.tgt = if (d.ch u).ctl.st = .hold then (d.ch u).ctl.tgt else v := by
  have h := coefEffect_tgt (((d.withLeaves u).foldl (fun e l => e.noteOld C.SETPOINT l i) d).storeCh C.SETPOINT u i v) u v
  rwa [storeCh_ch, (foldl_noteOld _ _ _ _).2.1] at h

/-- Settles O15: the write is accepted, its effect is `Dev.coefStore`, and watching the cuts leaves what it stored. -/
theorem coefficientWriteIsStored : Obligations.coefficient_write_is_stored := by
  unfold Obligations.coefficient_write_is_stored
  intro s p o u i v hf hc h1 h2 ha
  obtain ⟨ho, -, -, -, hsubs⟩ := findObj_some _ _ _ _ hf
  obtain ⟨-, hlt, hend, -⟩ := objectsC_rows o ho
  have hi : o.sub + i < 256 := by omega
  obtain ⟨hkept, -⟩ := coef_kept o ho hc
  have hk := fun x y => hkept x y v
  have hplain : ∀ w, o.plainHs w i := fun _ => Obj.plainHs_coef ho hc hi
  refine State.leads_of (exec_coefficientWrite hf hc h1 h2 hi) ?_
  rw [State.dev_on, Dev.write_ok _ _ _ _ _ _ _ _ ha]
  refine ⟨rfl, ?_, ?_, ?_, ?_, ?_⟩
  · exact (Dev.rdi_watchCuts _ _ _ _ (hplain u)).trans (Dev.rdi_coefStore_same _ _ _ _ _ hk hlt)
  · rintro rfl
    simpa using Dev.tgt_coefStore_setpoint s.found u i v
  · exact fun hu hcopied l hl =>
      (Dev.rdi_watchCuts _ _ _ _ (hplain l)).trans (Dev.rdi_coefStore_leaf _ _ _ _ _ _ hk hlt hu hcopied hl)
  · exact fun o' u' i' hp hne => (Dev.rdi_watchCuts _ _ _ _ hp).trans (Dev.rdi_coefStore_other _ _ _ _ _ _ _ _ hne)
  · intro w
    simpa using Dev.ch_coefStore s.found o u i w v

end Sys2Proof.Machine
end

section
/-! PROOFS (02_control_engine). The window on the feed-forward tables (R58, R59): FF_DATA is the entry that FF_SEL selects, and
each access to it advances ENTRY where FF_AUTOINC is set. -/

namespace Sys2Proof.Machine

open Sys2Proof

/-- Advancing ENTRY of a physical channel changes its FF_SEL, and neither a channel's record nor what lies outside the
dictionary. -/
theorem Dev.ffAdvance_spec (d : Dev) (u : Nat) (hu : u < 256) :
    (d.ffAdvance u).rd C.FF_SEL u =
      (if d.flag C.FF_AUTOINC u then (ffNext (d.rdN C.FF_SEL u) : Int) else d.rd C.FF_SEL u) ∧
    (d.ffAdvance u).chans = d.chans ∧ (d.ffAdvance u).ch = d.ch ∧ (d.ffAdvance u).outside = d.outside := by
  rw [Dev.ffAdvance_phys d u hu]
  split <;> simp

/-- The entry that a physical channel's FF_SEL selects with the value `v`, the old one noted for the slot of this cv (R72). -/
def Dev.ffStored (d : Dev) (u : Nat) (v : Int) : Dev :=
  (d.noteOld C.FF_DATA u 0).modCtl u fun c => { c with ff := SMap.set 0 c.ff (d.ffPlace u) v.toNat }

/-- Noting the old values changes no object and no channel. -/
theorem Dev.ffStored_reads (d : Dev) (u : Nat) (v : Int) :
    (d.ffStored u v).rd = d.rd ∧ (d.ffStored u v).rdN = d.rdN ∧ (d.ffStored u v).flag = d.flag := by
  simp only [Dev.ffStored, Dev.modCtl_frame]
  exact ⟨rfl, rfl, rfl⟩

theorem Dev.ff_ffStored (d : Dev) (u k : Nat) (v : Int) :
    SMap.get 0 ((d.ffStored u v).ch u).ctl.ff k =
      if k = d.ffPlace u then v.toNat else SMap.get 0 (d.ch u).ctl.ff k := by
  have hnoted : (d.noteOld C.FF_DATA u 0).ch u = d.ch u := rfl
  by_cases hk : k = d.ffPlace u
  · simp [Dev.ffStored, hk]
  · simp [Dev.ffStored, hk, hnoted, SMap.get_set_other]

theorem Dev.ffWrite_phys (d : Dev) (p : Party) (u : Nat) (v : Int) (hu : u < 256) :
    d.ffWrite p u v = d.write p C.FF_DATA u 0 v .ok fun e => (e.ffStored u v).ffAdvance u := by
  simp [Dev.ffWrite, Dev.withLeaves, hu, Dev.ffStored]

/-- A read of FF_DATA that is served gives the selected entry and advances ENTRY. -/
theorem Dev.ffRead_ok (d : Dev) (p : Party) (u : Nat) (h : d.readStatus p C.FF_DATA u 0 = .ok) :
    d.ffRead p u = (d.ffAdvance u).give (.num (SMap.get 0 (d.ch u).ctl.ff (d.ffPlace u) : Nat)) := by
  have hok : firstOf [d.readStatus p C.FF_DATA u 0, .ok] = .ok := (firstOf_ok _).mpr (by simp [h])
  simp only [Dev.ffRead, Dev.read, hok]

/-- Settles O16: the write is `Dev.ffStored` and the read leaves the tables; both end in `Dev.ffAdvance`. -/
theorem ffDataReachesTheSelectedEntry : Obligations.ff_data_reaches_the_selected_entry := by
  unfold Obligations.ff_data_reaches_the_selected_entry
  refine fun s p u hu => ⟨fun v ha => ?_, fun hread => ?_⟩
  · refine State.leads_of (t := s.on fun d => d.ffWrite p u v) rfl ?_
    rw [State.dev_on, Dev.ffWrite_phys _ _ _ _ hu, Dev.write_ok _ _ _ _ _ _ _ _ ha]
    obtain ⟨hsel, -, hch, -⟩ := (s.found.ffStored u v).ffAdvance_spec u hu
    obtain ⟨hrd, hrdN, hflag⟩ := s.found.ffStored_reads u v
    rw [hrd, hrdN, hflag] at hsel
    refine ⟨rfl, fun k => ?_, (Dev.rd_ws_chan _ _ _ _ (by decide)).trans hsel⟩
    simpa [hch] using s.found.ff_ffStored u k v
  · refine State.leads_of (t := s.on fun d => d.ffRead p u) rfl ?_
    rw [State.dev_on, Dev.ffRead_ok _ _ _ hread]
    obtain ⟨hsel, hchans, -, hout⟩ := s.found.ffAdvance_spec u hu
    exact ⟨rfl, rfl, by simpa using hsel, by simpa using hchans, by simpa using hout⟩

end Sys2Proof.Machine
end

section
/-! PROOFS (02_control_engine). The detectors of a regulating channel (R76–R82): what an oscillation detection does, and lost
feedback, each detector as the case of its definition that its threshold selects. -/

namespace Sys2Proof.Machine

open Sys2Proof

/-! ### Oscillation (R76) -/

/-- An oscillation detection before its reaction: flagged, its cycles counted anew, counted, raised and reported (R76). -/
def Dev.oscNoted (d : Dev) (u : Nat) : Dev :=
  (((d.modCtl u fun c => { c.flagIf fOscDetect true with oscRun := 0 }).bump C.OSC_COUNT u 16 1).raise (srcCh u 10)).report
    0x1103 u 0

@[simp] theorem Dev.ctl_oscNoted (d : Dev) (u : Nat) : ((d.oscNoted u).ch u).ctl =
    { (d.ch u).ctl with sticky := (d.ch u).ctl.sticky ||| 2 ^ fOscDetect, oscRun := 0 } := by
  simp [Dev.oscNoted, Ctl.flagIf]

theorem Dev.ch_oscNoted_other (d : Dev) (u v : Nat) (h : v ≠ u) : (d.oscNoted u).ch v = d.ch v := by
  simp [Dev.oscNoted, Dev.ch_modCtl_other _ _ _ _ h]

@[simp] theorem Dev.outside_oscNoted (d : Dev) (u : Nat) : (d.oscNoted u).outside = d.outside := by simp [Dev.oscNoted]

@[simp] theorem Dev.stc_oscNoted (d : Dev) (u : Nat) : (d.oscNoted u).stc = d.stc := by simp [Dev.oscNoted]

/-- The event of the detection writes no object of a channel. -/
theorem Dev.rd_oscNoted (d : Dev) (u u' : Nat) (o : Obj) (h : (o.blk == .chan && o.apart C.HS_FLAGS 0 0) = true) :
    (d.oscNoted u).rd o u' = (d.bump C.OSC_COUNT u 16 1).rd o u' := by
  rw [Bool.and_eq_true] at h
  obtain ⟨hplain, -⟩ := o.plainHs_chan u' 0 (by simpa using h.1) h.2
  exact Dev.rdi_raise _ (srcCh u 10) o u' 0 hplain

/-- The detection counts once. -/
@[simp] theorem Dev.oscCount_oscNoted (d : Dev) (u : Nat) :
    (d.oscNoted u).rd C.OSC_COUNT u = min (d.rd C.OSC_COUNT u + 1) (2 ^ 16 - 1) := by
  rw [Dev.rd_oscNoted _ _ _ _ (by decide), Dev.rd_bump_same]
  rfl

@[simp] theorem Dev.oscReact_oscNoted (d : Dev) (u : Nat) : (d.oscNoted u).rdN C.OSC_REACT u = d.rdN C.OSC_REACT u :=
  congrArg Int.toNat ((Dev.rd_oscNoted _ _ _ _ (by decide)).trans (Dev.rd_bump_apart _ _ _ _ _ _ _ (by decide)))

@[simp] theorem Dev.lockShift_oscNoted (d : Dev) (u : Nat) : (d.oscNoted u).rd C.LOCK_SHIFT u = d.rd C.LOCK_SHIFT u :=
  (Dev.rd_oscNoted _ _ _ _ (by decide)).trans (Dev.rd_bump_apart _ _ _ _ _ _ _ (by decide))

/-- A detection of a regulating channel is noted, and then OSC_REACT chooses what follows. -/
theorem Dev.oscDetect_reacts (d : Dev) (u : Nat) (hr : (d.ch u).ctl.regulating = true) (he : d.flag C.OSC_EN u = true)
    (hn : d.rdN C.OSC_CYCLES u ≤ (d.ch u).ctl.oscRun) :
    d.oscDetect u =
      if d.rdN C.OSC_REACT u = 1 then (d.oscNoted u).wr C.LOCK_SHIFT u (min 15 (d.rd C.LOCK_SHIFT u + 1))
      else if d.rdN C.OSC_REACT u = 2 then (d.oscNoted u).fenceCh u
      else d.oscNoted u := by
  have hguard : (!(d.ch u).ctl.regulating || !d.flag C.OSC_EN u ||
      decide ((d.ch u).ctl.oscRun < d.rdN C.OSC_CYCLES u)) = false := by simp [hr, he, hn]
  unfold Dev.oscDetect
  simp only [hguard, Bool.false_eq_true, if_false]
  rw [← Dev.oscNoted, Dev.oscReact_oscNoted, Dev.lockShift_oscNoted]
  split
  next h1 => rw [if_pos h1]
  next h2 => rw [if_neg (by omega), if_pos h2]
  next h1 h2 => rw [if_neg h1, if_neg h2]

/-- Settles O17, by the reaction that OSC_REACT chooses. -/
theorem oscillationDetectionReacts : Obligations.oscillation_detection_reacts := by
  unfold Obligations.oscillation_detection_reacts
  rintro s u c rfl hr he hn
  have hdetect := s.found.oscDetect_reacts u hr he hn
  refine ⟨fun h2 => ?_, fun h2 hc => ?_⟩
  · refine State.leads_of (t := s.on fun d => d.oscDetect u) rfl ?_
    rw [State.dev_on, hdetect, if_neg h2]
    split
    · refine ⟨by simp, ?_, by simp, by simp, fun v hv => by simp [Dev.ch_oscNoted_other _ _ _ hv]⟩
      rw [Dev.rd_wr_apart _ _ _ _ _ _ (by decide), Dev.oscCount_oscNoted]
    · exact ⟨by simp, by simp, by simp, by simp, fun v hv => Dev.ch_oscNoted_other _ _ _ hv⟩
  · refine State.leads_of (t := s.on fun d => d.oscDetect u) rfl ?_
    rw [State.dev_on, hdetect, if_neg (by omega), if_pos h2]
    have hrun : (s.found.oscNoted u).crOf u = none := by rw [Dev.crOf_of_stc _ s.found u (by simp), hc]
    have hfenced := Dev.stc_fenceCh (s.found.oscNoted u) u {} hrun
    rw [Dev.stc_oscNoted] at hfenced
    exact congrArg Prod.fst hfenced

/-! ### Lost feedback (R79–R82) -/

/-- Lost feedback of a channel whose control record has changed, but not its state, fences it alone. -/
theorem lost_modCtl (d : Dev) (u : Nat) (g : Ctl → Ctl) (flag code detail : Nat) (hg : (g (d.ch u).ctl).st = (d.ch u).ctl.st)
    (hc : d.crOf u = none) :
    bit (((d.modCtl u g).lostFeedback u flag code detail).ch u).ctl.sticky flag = true ∧
    (fun v => (((d.modCtl u g).lostFeedback u flag code detail).ch v).ctl.st) =
      fun v => if v = u then .fenced else (d.ch v).ctl.st := by
  have hstates : ∀ v, ((d.modCtl u g).ch v).ctl.st = (d.ch v).ctl.st := congrFun (congrArg Prod.fst (Dev.stc_modCtl d u g hg))
  simpa only [hstates] using lost_key (d.modCtl u g) u flag code detail hc

/-- A stuck converter of either variable is lost feedback, and its role then waits for a spare (R79, R171). -/
theorem Dev.stuckDetect_found (d : Dev) (u : Nat) (h : d.stuck u true = true ∨ d.stuck u false = true) :
    ∃ detail k r, d.stuckDetect u = (d.lostFeedback u fFbStuck 0x1104 detail).needSpare k r := by
  have hguard : (!d.stuck u true && !d.stuck u false) = false := by
    rcases h with h | h <;> simp [h]
  simp only [Dev.stuckDetect, hguard, Bool.false_eq_true, if_false]
  exact ⟨_, _, _, rfl⟩

/-- Saturation that lasted SAT_COUNT samples is lost feedback (R81). -/
theorem Dev.satDetect_found (d : Dev) (u : Nat) (hr : (d.ch u).ctl.regulating = true)
    (hn : d.rdN C.SAT_COUNT u ≤ (d.ch u).ctl.satRun) : d.satDetect u = d.lostFeedback u fFbSat 0x1106 0 := by
  simp [Dev.satDetect, hr, Nat.not_lt.mpr hn]

section
variable {d : Dev} {u : Nat} (hr : (d.ch u).ctl.regulating = true) (he : d.flag C.KELVIN_EN u = true)
  (hn : 8192 ≤ (d.ch u).ctl.kelN)

include hr he hn

/-- The first half of a Kelvin period keeps its sum and reverses the current (R80). -/
theorem Dev.kelvinHalf_first (hh : (d.ch u).ctl.kelHalf = none) :
    d.kelvinHalf u = d.modCtl u fun c =>
      { c with kelN := 0, kelSum := 0, kelHalf := some c.kelSum, kelRev := !c.kelRev } := by
  simp [Dev.kelvinHalf, hr, he, Nat.not_lt.mpr hn, hh]

/-- A full Kelvin period within its window counts as none failed (R80). -/
theorem Dev.kelvinHalf_good {h : Int} (hh : (d.ch u).ctl.kelHalf = some h)
    (hw : (((d.ch u).ctl.kelSum - h).natAbs : Int) ≤ d.rd C.KELVIN_WINDOW u * 8192) :
    d.kelvinHalf u = d.modCtl u fun c =>
      { c with kelN := 0, kelSum := 0, kelHalf := none, kelRev := !c.kelRev, kelBad := 0 } := by
  rw [Int.natCast_natAbs] at hw
  simp [Dev.kelvinHalf, hr, he, Nat.not_lt.mpr hn, hh, not_lt.mpr hw]

/-- A full Kelvin period out of its window, after one that failed before it, is lost feedback (R80). -/
theorem Dev.kelvinHalf_failed {h : Int} (hh : (d.ch u).ctl.kelHalf = some h)
    (hw : d.rd C.KELVIN_WINDOW u * 8192 < (((d.ch u).ctl.kelSum - h).natAbs : Int)) (hb : 1 ≤ (d.ch u).ctl.kelBad) :
    d.kelvinHalf u = (d.modCtl u fun c =>
      { c with kelN := 0, kelSum := 0, kelHalf := none, kelRev := !c.kelRev, kelBad := (d.ch u).ctl.kelBad + 1
      }).lostFeedback u fFbKelvin 0x1105 0 := by
  rw [Int.natCast_natAbs] at hw
  simp [Dev.kelvinHalf, hr, he, Nat.not_lt.mpr hn, hh, hw, hb]

end

/-- Settles O18: each detector over its threshold is `Dev.lostFeedback`, of which `lost_key` gives the flag and the fence. -/
theorem lostFeedbackFencesTheChannel : Obligations.lost_feedback_fences_the_channel := by
  unfold Obligations.lost_feedback_fences_the_channel
  rintro s u c rfl hc hr
  refine ⟨fun hstuck => ?_, fun hn => ?_, fun he hn => ⟨fun hh => ?_, fun h hh hw => ?_, fun h hh hw hb => ?_⟩⟩
  · refine State.leads_of (t := s.on fun d => d.stuckDetect u) rfl ?_
    obtain ⟨detail, k, r, hlost⟩ := s.found.stuckDetect_found u hstuck
    rw [State.dev_on, hlost]
    exact lost_key s.found u fFbStuck 0x1104 detail hc
  · refine State.leads_of (t := s.on fun d => d.satDetect u) rfl ?_
    rw [State.dev_on, Dev.satDetect_found _ _ hr hn]
    exact lost_key s.found u fFbSat 0x1106 0 hc
  · refine State.leads_of (t := s.on fun d => d.kelvinHalf u) rfl ?_
    rw [State.dev_on, Dev.kelvinHalf_first hr he hn hh]
    exact ⟨by simp, by simp, by simp, fun v hv => Dev.ch_modCtl_other _ _ _ _ hv⟩
  · refine State.leads_of (t := s.on fun d => d.kelvinHalf u) rfl ?_
    rw [State.dev_on, Dev.kelvinHalf_good hr he hn hh hw]
    exact ⟨by simp, by simp, by simp⟩
  · refine State.leads_of (t := s.on fun d => d.kelvinHalf u) rfl ?_
    rw [State.dev_on, Dev.kelvinHalf_failed hr he hn hh hw hb]
    exact lost_modCtl s.found u _ fFbKelvin 0x1105 0 rfl hc

end Sys2Proof.Machine
end

section
/-! PROOFS (02_control_engine). Sticky flags that a write of 1 clears (R63, R534). -/

namespace Sys2Proof.Machine

open Sys2Proof

section
variable {s : State} {p : Party} {index sub : Nat} {v : Int} {f : Found}

/-- STICKY_FLAG_CLEAR of flags that ones clear is a write of the number. -/
theorem exec_stickyFlagClear {mask : Nat} (hl : lookupObj index sub = some f) (hd : f.o.dom = .w1c mask) :
    exec (.stickyFlagClear p index sub v) s = .next (s.putNum p index sub v) := by
  change execStickyFlagClear p index sub v s = _
  simp [execStickyFlagClear, hl, hd]

/-- SQ_FLAGS have no rule beside their row, whose mask keeps the flags no write clears. -/
theorem exec_stickyFlagClear_sqFlags (hl : lookupObj index sub = some f) (ht : f.o.there f.unit f.i = true)
    (ho : f.o = C.SQ_FLAGS) :
    exec (.stickyFlagClear p index sub v) s =
      .next (s.on fun d => d.write p C.SQ_FLAGS f.unit f.i v .ok fun e => e.store C.SQ_FLAGS f.unit f.i v) := by
  have hdom : f.o.dom = .w1c 0x000F := by rw [ho]; rfl
  rw [exec_stickyFlagClear hl hdom, State.putNum_chan hl ht (by rw [ho]; decide) (by rw [ho]; rfl), ho]
  rfl

/-- CTL_FLAGS have a write of their own (R63). -/
theorem exec_stickyFlagClear_ctlFlags (hl : lookupObj index sub = some f) (ht : f.o.there f.unit f.i = true)
    (ho : f.o = C.CTL_FLAGS) :
    exec (.stickyFlagClear p index sub v) s = .next (s.on fun d => d.ctlFlagsWrite p f.unit v) := by
  have hdom : f.o.dom = .w1c 0xFFFF := by rw [ho]; rfl
  rw [exec_stickyFlagClear hl hdom, State.putNum_chan hl ht (by rw [ho]; decide) (by rw [ho]; rfl), ho]
  rfl

end

/-- The sticky flags of a physical channel for which no generator has a target due are cleared where the write has ones. -/
theorem Dev.ctlFlagsWrite_phys (d : Dev) (p : Party) (u : Nat) (v : Int) (hu : u < 256)
    (hg : d.genTarget u (d.lastSlot u) = none) (ha : d.writeStatus p C.CTL_FLAGS u 0 v .ok = .ok) :
    d.ctlFlagsWrite p u v =
      (d.modCtl u fun c => { c with sticky := c.sticky - (c.sticky &&& v.toNat) }).watchCuts.say .ok := by
  unfold Dev.ctlFlagsWrite
  rw [Dev.write_ok _ _ _ _ _ _ _ _ ha]
  simp [Dev.withLeaves, hu, Dev.syncTarget_none _ _ _ hg]

/-- Settles O21: SQ_FLAGS keep what their row's domain keeps, CTL_FLAGS by their own write. -/
theorem stickyFlagsClearByOnes : Obligations.sticky_flags_clear_by_ones := by
  unfold Obligations.sticky_flags_clear_by_ones
  intro s p index sub f v hl ht ha
  refine ⟨fun ho => ?_, fun ho hu hg => ?_⟩
  · refine State.leads_of (exec_stickyFlagClear_sqFlags hl ht ho) ?_
    rw [ho] at ht ha
    have hi : f.i = 0 := Obj.there_place_zero ht rfl
    rw [State.dev_on, Dev.write_ok _ _ _ _ _ _ _ _ ha, hi]
    refine ⟨rfl, ?_, by simp [Dev.store], by simp [Dev.store]⟩
    have hkept := (Dev.rd_ws_chan (s.found.store C.SQ_FLAGS f.unit 0 v) .ok C.SQ_FLAGS f.unit (by decide)).trans
      (Dev.rdi_wri_same _ _ _ _ _)
    exact congrArg Int.toNat hkept
  · refine State.leads_of (exec_stickyFlagClear_ctlFlags hl ht ho) ?_
    rw [ho] at ht ha
    rw [Obj.there_place_zero ht rfl] at ha
    rw [State.dev_on, Dev.ctlFlagsWrite_phys _ _ _ _ hu hg ha]
    exact ⟨rfl, by simp, by simp, fun w hw => by simp [Dev.ch_modCtl_other _ _ _ _ hw]⟩

end Sys2Proof.Machine
end

section
/-! PROOFS (03_ranges_and_hearths). A channel command to a hearth whose active leaves lie in more than one stove: it waits for
its cv (R124, R125). -/

namespace Sys2Proof.Machine

open Sys2Proof

/-- Across stoves a command that changes the hearth's state joins the hearth's commands, due 2 cv later. -/
theorem Dev.chApply_inStoves (d : Dev) (h : Nat) (x : ChCmd) (hh : 256 ≤ h) (hs : d.inStoves h = true)
    (hx : x.target ≠ some (d.stateFor h)) :
    d.chApply h x false = d.modHe h fun y =>
      { y with cmds := y.cmds ++ [⟨x.code, (d.stateFor h).code, false, {}, d.clk.tick + 2⟩] } := by
  simp [Dev.chApply, hx, hh, hs]

/-- Settles O10: the command is accepted, and its effect is the queuing of `Dev.chApply_inStoves`; no calibration run and no
field test ends. -/
theorem hearthCommandLandsTwoCvLater : Obligations.hearth_command_lands_two_cv_later := by
  unfold Obligations.hearth_command_lands_two_cv_later
  intro s p h c x hcmd hh ha hc hcheck hx hs hft
  have hexec : exec c s = .next (s.on fun d => d.chCmd p h x.code) := by
    simp only [List.mem_cons, Prod.mk.injEq, List.not_mem_nil, or_false] at hcmd
    rcases hcmd with h | h | h | h | h | h <;> obtain ⟨rfl, rfl⟩ := h <;> rfl
  have happly := s.found.chApply_inStoves h x hh hs hx
  have hrun : (s.found.chApply h x false).crOf h = none := by rw [happly]; exact hc
  have htest : (decide (x = .off) && (s.found.active h).any s.found.ftHolds) = false := by
    by_cases hoff : x = .off
    · simp [hft hoff]
    · simp [hoff]
  refine State.leads_write (P := fun d => d.status = .ok ∧ (d.he h).cmds = _ ∧ d.chans = _) hexec (Dev.chCmd_code _ _ _ _)
    ha hcheck ?_
  rw [htest, Dev.crFailOn_none _ _ _ hrun, happly]
  exact ⟨rfl, by simp [Dev.ftAbortIf], by simp [Dev.ftAbortIf]⟩

end Sys2Proof.Machine
end

section
/-! PROOFS (03_ranges_and_hearths). Range requests to a physical channel (R93–R97, R104): each is one `Dev.rngAsk`, by a write
or by autorange. -/

namespace Sys2Proof.Machine

open Sys2Proof

/-- A request to a physical channel is its own, and no hearth follows it. -/
theorem Dev.rangeAsk_followed_phys (d : Dev) (u : Nat) (volt : Bool) (j : Nat) (auto_ up : Bool) (hu : u < 256) :
    (d.rangeAsk u volt j auto_ up).followLeader u = d.rngAsk u volt j auto_ up := by
  rw [Dev.followLeader_phys _ _ hu, Dev.rangeAsk_phys _ _ _ _ _ _ hu]

/-- Both requested ranges are objects of a channel that no event and no watching of cuts writes. -/
theorem oRange_plain : ∀ volt, ((oRange volt).blk == .chan && (oRange volt).apart C.HS_FLAGS 0 0) = true := by decide

/-- Autorange makes requests in Steady alone (R95). -/
theorem Dev.steady_of_arFree {d : Dev} {u : Nat} {volt : Bool} (h : d.arFree u volt = true) :
    ((d.ch u).rng volt).ph = .steady := by
  simp only [Dev.arFree, Bool.and_eq_true, beq_iff_eq] at h
  obtain ⟨⟨⟨⟨⟨-, hsteady⟩, -⟩, -⟩, -⟩, -⟩ := h
  exact hsteady

/-- A request of autorange to another range, in Steady: the change is pending, or held back (R95–R97). -/
theorem Dev.rngAsk_auto (d : Dev) (u : Nat) (volt : Bool) (j : Nat) (up : Bool) (hs : ((d.ch u).rng volt).ph = .steady)
    (hj : j ≠ ((d.ch u).rng volt).now) :
    (d.rngAsk u volt j true up).rd (oRange volt) u = j ∧
    ((d.rngAsk u volt j true up).ch u).rng volt =
      (if d.heldBack u true then { (d.ch u).rng volt with deferred := some (j, up) }
      else { (d.ch u).rng volt with ph := .pending j, deferred := none }) ∧
    (d.rngAsk u volt j true up).outside = d.outside ∧ ∀ v, v ≠ u → (d.rngAsk u volt j true up).ch v = d.ch v := by
  simpa [hs, hj, RngPhase.busy] using d.rngAsk_eq u volt j true up

/-- An up-request below the highest range (R95). -/
theorem Dev.autoUp_below (d : Dev) (u : Nat) (volt : Bool) (hu : u < 256) (hf : d.arFree u volt = true)
    (hn : d.rdN C.AR_UP_COUNT u ≤ ((d.ch u).rng volt).up) (hr : ((d.ch u).rng volt).now + 1 < d.ranges u volt) :
    d.autoUp u volt = d.rngAsk u volt (((d.ch u).rng volt).now + 1) true true := by
  simp [Dev.autoUp, hf, Nat.not_lt.mpr hn, hr, Dev.rangeAsk_followed_phys _ _ _ _ _ _ hu]

/-- An up-condition at the highest range sets OVER_TOP, reported where it was clear (R95). -/
theorem Dev.autoUp_top (d : Dev) (u : Nat) (volt : Bool) (hf : d.arFree u volt = true)
    (hn : d.rdN C.AR_UP_COUNT u ≤ ((d.ch u).rng volt).up) (hr : d.ranges u volt ≤ ((d.ch u).rng volt).now + 1) :
    d.autoUp u volt =
      if ((d.ch u).rng volt).overTop then d.modRng u volt fun r => { r with overTop := true }
      else (d.modRng u volt fun r => { r with overTop := true }).report 0x1310 u 0 := by
  simp [Dev.autoUp, hf, Nat.not_lt.mpr hn, Nat.not_lt.mpr hr]

/-- A down-request after AR_DWELL (R95). -/
theorem Dev.autoDown_dwelt (d : Dev) (u : Nat) (volt : Bool) (t : Nat) (hu : u < 256) (hf : d.arFree u volt = true)
    (hb : ((d.ch u).rng volt).below = some t) (h0 : 0 < ((d.ch u).rng volt).now)
    (hok : (d.reach (t + d.rdN C.AR_DWELL u)).downOk u volt (((d.ch u).rng volt).now - 1) = true) :
    d.autoDown u volt =
      (d.reach (t + d.rdN C.AR_DWELL u)).rngAsk u volt (((d.ch u).rng volt).now - 1) true false := by
  have hch : (d.reach (t + d.rdN C.AR_DWELL u)).ch = d.ch := by simp [Dev.reach_eq]
  simp [Dev.autoDown, hb, hf, hch, h0, hok, Dev.rangeAsk_followed_phys _ _ _ _ _ _ hu]

/-- The passing of time holds back no request and releases none. -/
theorem Dev.heldBack_reach (d : Dev) (t u : Nat) (auto_ : Bool) : (d.reach t).heldBack u auto_ = d.heldBack u auto_ := by
  simp [Dev.heldBack, Dev.apOpen, Dev.frozen, Dev.reach_eq]

/-- Settles O25: a write and both requests of autorange are one `Dev.rngAsk`; T_MAKE is the phase's own change. -/
theorem rangeRequestsBecomePendingChanges : Obligations.range_requests_become_pending_changes := by
  unfold Obligations.range_requests_become_pending_changes
  rintro s u volt d r hu hd rfl
  refine ⟨fun p j ha hcheck => ?_, fun hf hn => ⟨fun hr => ?_, fun hr => ?_⟩, fun t hb hf h0 hok => ?_, fun old since hph => ?_⟩
  · refine State.leads_of (t := s.on fun d => d.rangeWrite p u volt j) rfl ?_
    have hs : s.found.writeStatus p (oRange volt) u 0 j (s.found.rangeCheck u volt j) = .ok := by
      rw [← hd, hcheck, hd]; exact ha
    rw [State.dev_on, Dev.rangeWrite, Dev.write_ok _ _ _ _ _ _ _ _ hs, ← hd]
    simp only [Dev.rangeAsk_followed_phys _ _ _ _ _ _ hu, Int.toNat_natCast]
    obtain ⟨hrd, hrng, hout, hother⟩ := d.rngAsk_eq u volt j false false
    exact ⟨rfl, (Dev.rd_ws_chan _ _ _ _ (oRange_plain volt)).trans hrd, by simpa using hrng, by simpa using hout,
      by simpa using hother⟩
  · refine State.leads_of (t := s.on fun d => d.autoUp u volt) rfl ?_
    rw [State.dev_on, ← hd, Dev.autoUp_below _ _ _ hu hf hn hr]
    exact d.rngAsk_auto u volt _ true (Dev.steady_of_arFree hf) (Nat.succ_ne_self _)
  · refine State.leads_of (t := s.on fun d => d.autoUp u volt) rfl ?_
    rw [State.dev_on, ← hd, Dev.autoUp_top _ _ _ hf hn hr]
    split
    next => exact ⟨by simp, rfl, fun _ => rfl, rfl, fun v hv => Dev.ch_modRng_other _ _ _ _ _ hv⟩
    next hclear =>
      exact ⟨by simp, rfl, fun hset => absurd hset hclear, rfl, fun v hv => by simp [Dev.ch_modRng_other _ _ _ _ _ hv]⟩
  · refine State.leads_of (t := s.on fun d => d.autoDown u volt) rfl ?_
    rw [State.dev_on, ← hd, Dev.autoDown_dwelt _ _ _ _ hu hf hb h0 hok]
    have hch : (d.reach (t + d.rdN C.AR_DWELL u)).ch = d.ch := by simp [Dev.reach_eq]
    have hout : (d.reach (t + d.rdN C.AR_DWELL u)).outside = d.outside := by simp [Dev.reach_eq]
    have hask := (d.reach (t + d.rdN C.AR_DWELL u)).rngAsk_auto u volt (((d.ch u).rng volt).now - 1) false
      (by rw [hch]; exact Dev.steady_of_arFree hf) (by rw [hch]; omega)
    rwa [Dev.heldBack_reach, hch, hout] at hask
  · refine State.leads_of (t := s.on fun d => d.makeElapsed u volt) rfl ?_
    rw [State.dev_on, ← hd, Dev.makeElapsed, hph]
    simp only [Dev.reach_eq]
    exact ⟨by simp, by simp [Dev.modRng, Dev.modCh], by simp, by simp [Dev.modRng, Dev.modCh],
      fun v hv => by simp [Dev.ch_modRng_other _ _ _ _ _ hv]⟩

end Sys2Proof.Machine
end

section
/-! PROOFS (03_ranges_and_hearths). Transfers of a range link (R98–R106): both rows that start one end in `Dev.startTransfer`
at a later time; a first CHECK that does not match is repeated. -/

namespace Sys2Proof.Machine

open Sys2Proof

/-! ### A transfer that starts -/

/-- A transfer that a waiting change or a due INIT wants starts at the end of the one before it at the earliest (R99). -/
theorem Dev.transferStart_wanted (d : Dev) (k : Nat) (hup : d.linkUp k = true) (hx : (d.st k).link.xfer = none)
    (hw : ((d.st k).link.initDue || d.wantsTransfer k) = true) :
    d.transferStart k = (d.reachCc (d.st k).link.lastCc).startTransfer k (d.st k).link.initDue := by
  simp [Dev.transferStart, hup, hx, hw]

/-- A refresh starts once REFRESH cv have gone by (R102). -/
theorem Dev.refresh_due (d : Dev) (k : Nat) (hup : d.linkUp k = true) (hx : (d.st k).link.xfer = none)
    (hn : 0 < d.rdN S.REFRESH k) :
    d.refresh k = ((d.reach ((d.st k).link.lastTick + d.rdN S.REFRESH k)).reachCc (d.st k).link.lastCc).startTransfer k
      (d.st k).link.initDue := by
  simp [Dev.refresh, hup, hx, Nat.ne_of_gt hn]

/-- A transfer started on a device on which only time has passed. -/
theorem Dev.startTransfer_later (d e : Dev) (k : Nat) (init : Bool) (hst : e.st = d.st) (hch : e.ch = d.ch)
    (hdict : e.dict = d.dict) :
    ((e.startTransfer k init).st k).link = { (d.st k).link with
      xfer := some { pats := (e.startTransfer k init).stovePatterns k init, again := false, init := init,
                     due := e.clk.cc + 10240 }, initDue := false } ∧
    (∀ v volt, ((e.startTransfer k init).ch v).rng volt = if (!init && decide (stoveOf v = k)) = true
      then ((d.ch v).rng volt).join else (d.ch v).rng volt) ∧
    (e.startTransfer k init).clk = e.clk ∧ (e.startTransfer k init).dict = d.dict ∧
    ∀ m, m ≠ k → (e.startTransfer k init).st m = d.st m := by
  have h := e.startTransfer_eq k init
  rwa [hst, hch, hdict] at h

/-! ### A first CHECK that does not match -/

/-- The transfer `x` repeated after a first CHECK whose lowest wrong stage is `bad`, with no injection in it (R99). -/
def Transfer.repeated (x : Transfer) (bad : Nat) : Transfer :=
  { x with again := true, due := x.due + 10240, bad := bad, wasReal := true }

/-- The LOAD comparison counts in UPSETS and may report; nothing else (R99). -/
@[simp] theorem Dev.loadCheck_frame (d : Dev) (k load : Nat) (x : Transfer) :
    (d.loadCheck k load x).st = d.st ∧ (d.loadCheck k load x).chans = d.chans ∧ (d.loadCheck k load x).clk = d.clk ∧
    (d.loadCheck k load x).flt = d.flt := by
  unfold Dev.loadCheck
  dsimp only
  split <;> simp

/-- An object that lies apart from UPSETS of the stove reads as before the LOAD comparison. -/
theorem Dev.rd_loadCheck (d : Dev) (k load : Nat) (x : Transfer) (o : Obj) (u : Nat) (h : o.key u 0 ≠ S.UPSETS.key k 0) :
    (d.loadCheck k load x).rd o u = d.rd o u := by
  unfold Dev.loadCheck
  dsimp only
  split
  · rfl
  · exact Dev.rd_wr_other d _ _ _ _ _ h

/-- The LOAD comparison arms no injection and spends none. -/
theorem Dev.injArmed_loadCheck (d : Dev) (k load : Nat) (x : Transfer) (c : Checker) (inst : Nat) :
    (d.loadCheck k load x).injArmed c inst = d.injArmed c inst := by
  have hkey : D.FI_INJ_STATE.key 0 0 ≠ S.UPSETS.key k 0 := Obj.key_dev _ _ _ _ _ _ (by decide)
  simp [Dev.injArmed, Dev.rd_loadCheck _ _ _ _ _ _ hkey]

/-- A first CHECK that brings back other bits than were sent, and that no injection meets, is repeated (R99). -/
theorem Dev.checkDone_repeats (d : Dev) (k load ret : Nat) (x : Transfer) (hx : (d.st k).link.xfer = some x)
    (ha : x.again = false) (hr : ret ≠ frameBits x.pats) (hi : (d.reachCc x.due).injArmed .rangeLink k = false) :
    d.checkDone k load ret =
      ((((d.reachCc x.due).loadCheck k load x).wr S.FIRST_BAD_BIT k (firstBadBit (frameBits x.pats) ret)).bump
        S.RETRIES k 32 1).modSt k fun s =>
          { s with link := { s.link with xfer := some (x.repeated (firstBadBit (frameBits x.pats) ret)) } } := by
  simp [Dev.checkDone, hx, Dev.injArmed_loadCheck, hi, hr, Dev.checkFailed, ha, Transfer.repeated]

/-- Settles O26: a start is `Dev.startTransfer_later`, and the repeat is `Dev.checkDone_repeats`. -/
theorem rangeLinkTransfersStartAndRepeat : Obligations.range_link_transfers_start_and_repeat := by
  unfold Obligations.range_link_transfers_start_and_repeat
  intro s k d hd hup
  refine ⟨fun c e hce hx hw hn => ?_, fun x load ret hx ha hr hi => ?_⟩
  · simp only [List.mem_cons, Prod.mk.injEq, List.not_mem_nil, or_false] at hce
    rcases hce with ⟨rfl, rfl⟩ | ⟨rfl, rfl⟩
    · refine State.leads_of (t := s.on fun d => d.transferStart k) rfl ?_
      rw [State.dev_on, ← hd, Dev.transferStart_wanted _ _ hup hx (hw rfl)]
      exact d.startTransfer_later _ k _ (by simp [Dev.reachCc_eq]) (by simp [Dev.reachCc_eq]) (by simp [Dev.reachCc_eq])
    · refine State.leads_of (t := s.on fun d => d.refresh k) rfl ?_
      rw [State.dev_on, ← hd, Dev.refresh_due _ _ hup hx (hn rfl)]
      exact d.startTransfer_later _ k _ (by simp [Dev.reachCc_eq, Dev.reach_eq]) (by simp [Dev.reachCc_eq, Dev.reach_eq])
        (by simp [Dev.reachCc_eq, Dev.reach_eq])
  · refine State.leads_of (t := s.on fun d => d.checkDone k load.toNat ret.toNat) rfl ?_
    rw [State.dev_on, ← hd, Dev.checkDone_repeats _ _ _ _ _ hx ha hr hi]
    have hretries : ((d.reachCc x.due).loadCheck k load.toNat x).rd S.RETRIES k = d.rd S.RETRIES k := by
      rw [Dev.rd_loadCheck _ _ _ _ _ _ (Obj.key_apart _ _ _ _ _ _ (by decide)), Dev.reachCc_eq]
      simp
    refine ⟨⟨x.repeated (firstBadBit (frameBits x.pats) ret.toNat), ?_, rfl, rfl, rfl, rfl⟩, ?_, ?_, ?_, ?_⟩
    · simp [Dev.reachCc_eq]
    · simp [Dev.rd_bump_apart _ _ _ _ _ _ _ (show S.FIRST_BAD_BIT.apart S.RETRIES 0 0 = true by decide)]
    · simp [Dev.rd_wr_apart _ _ _ _ _ _ (show S.RETRIES.apart S.FIRST_BAD_BIT 0 0 = true by decide), hretries]
    · simp [Dev.reachCc_eq]
    · simp

end Sys2Proof.Machine
end

section
/-! PROOFS (03_ranges_and_hearths). STAGE_EN and ILK_N (R109–R114, R126): the three rows that drop a stove's pin end in
`Dev.dropStove`. -/

namespace Sys2Proof.Machine

open Sys2Proof

/-- The stove `k` of `d` dropped in `t`: its regulating channels are Off, or fenced where they are members, no other channel has
changed its state, and nothing beyond the work of channels has changed. -/
def Dev.droppedIn (d : Dev) (k : Nat) (t : Dev) : Prop :=
  ((fun v => (t.ch v).ctl.st) = fun v =>
    if stoveOf v = k ∧ (d.ch v).ctl.st.reg = true then (if d.isMember v then .fenced else .off) else (d.ch v).ctl.st) ∧
  t.beyond = d.beyond

/-- Dropping the stove of a device `e`, on which no channel's state differs from `d`, drops the stove of `d`; what follows and
keeps the states and what lies beyond changes nothing of it. -/
theorem Dev.droppedIn_of (d e t : Dev) (k : Nat) (hk : k < 16) (hc : d.cr = none) (hes : e.stc = d.stc)
    (heb : e.beyond = d.beyond) (hts : t.stc = (e.dropStove k).stc) (htb : t.beyond = (e.dropStove k).beyond) :
    d.droppedIn k t := by
  have hst : ∀ v, (e.ch v).ctl.st = (d.ch v).ctl.st := congrFun (congrArg Prod.fst hes)
  have hcr : e.cr = none := (congrArg Prod.snd hes).trans hc
  have hdrop := hts.trans (e.stc_dropStove k hk hcr)
  simp only [hst, Dev.isMember_of_beyond e d heb] at hdrop
  exact ⟨Dev.sts_of_stc _ _ _ hdrop, by rw [htb, Dev.beyond_dropStove, heb]⟩

/-- ILK_N low before the stove is dropped: SE_CMD cleared, the event counted and stamped (R110, R112, R113). -/
def Dev.ilkNoted (d : Dev) (k : Nat) : Dev :=
  (((d.modSt k fun s => { s with ilk := false }).wr S.SE_CMD k 0).bump S.ILK_EVENTS k 32 1).wr S.ILK_LAST k d.now2

@[simp] theorem Dev.ilkNoted_frame (d : Dev) (k : Nat) :
    (d.ilkNoted k).stc = d.stc ∧ (d.ilkNoted k).chans = d.chans ∧ (d.ilkNoted k).ch = d.ch ∧
    (d.ilkNoted k).beyond = d.beyond ∧ (d.ilkNoted k).st k = { d.st k with ilk := false } := by
  refine ⟨?_, rfl, rfl, ?_, ?_⟩ <;> simp [Dev.ilkNoted]

/-- What ILK_N low leaves in the objects of its stove. -/
theorem Dev.rd_ilkNoted (d : Dev) (k : Nat) :
    (d.ilkNoted k).rd S.SE_CMD k = 0 ∧
    (d.ilkNoted k).rd S.ILK_EVENTS k = min (d.rd S.ILK_EVENTS k + 1) (2 ^ 32 - 1) ∧
    (d.ilkNoted k).rd S.ILK_LAST k = d.now2 := by
  refine ⟨?_, ?_, ?_⟩ <;> unfold Dev.ilkNoted <;> simp (disch := decide) [Dev.rd_wr_apart, Dev.rd_bump_apart]

/-- ILK_N low on a stove where it was high. -/
theorem Dev.ilkLow_high (d : Dev) (k : Nat) (h : (d.st k).ilk = true) :
    d.ilkLow k = ((((d.ilkNoted k).dropStove k).raise (srcSt k 14)).report 0x2100 k 0).ftAbortIf (d.ftOnStove k) := by
  simp [Dev.ilkLow, h, Dev.ilkNoted]

/-- The pin found low from outside while the device drives it high (R111). -/
theorem Dev.seMismatch_driven (d : Dev) (k : Nat) (h : d.sePin k = true) :
    d.seMismatch k = (((d.modSt k fun s => { s with extLow := true }).dropStove k).raise (srcSt k 15)).report 0x2101 k 0 := by
  simp [Dev.seMismatch, h]

/-- A write of SE_CMD that is accepted and drops the pin. -/
theorem Dev.seWrite_drops (d : Dev) (p : Party) (k : Nat) (v : Int)
    (ha : d.writeStatus p S.SE_CMD k 0 v (d.seCheck k v) = .ok) (h : d.sePin k = true)
    (hv : (d.wr S.SE_CMD k v).sePin k = false) :
    d.seWrite p k v = ((d.wr S.SE_CMD k v).dropStove k).watchCuts.say .ok := by
  rw [Dev.seWrite, Dev.write_ok _ _ _ _ _ _ _ _ ha]
  simp [h, hv]

/-- A write of SE_CMD that is accepted where no channel of the stove regulates stores the value alone. -/
theorem Dev.seWrite_quiet (d : Dev) (p : Party) (k : Nat) (v : Int)
    (ha : d.writeStatus p S.SE_CMD k 0 v (d.seCheck k v) = .ok) (h : ∀ u, stoveOf u = k → (d.ch u).ctl.st.reg = false) :
    d.seWrite p k v = (d.wr S.SE_CMD k v).watchCuts.say .ok := by
  rw [Dev.seWrite, Dev.write_ok _ _ _ _ _ _ _ _ ha]
  simp [Dev.dropStove_quiet (d.wr S.SE_CMD k v) k (by simpa using h)]

/-- Settles O27: each row that drops the pin by `Dev.droppedIn_of`, and a stove without a regulating channel by
`Dev.dropStove_quiet`. -/
theorem stageEnableAndInterlockDropTheStove : Obligations.stage_enable_and_interlock_drop_the_stove := by
  unfold Obligations.stage_enable_and_interlock_drop_the_stove
  intro s p k d hd hk
  refine ⟨fun v ha hcheck hquiet => ?_, fun c hmem hc hwrite hmis hlow => ?_, fun hilk hquiet hft => ?_, ?_⟩
  · refine State.leads_of (t := s.on fun d => d.seWrite p k v) rfl ?_
    rw [State.dev_on, ← hd, Dev.seWrite_quiet _ _ _ _ (by rw [hcheck, hd]; exact ha) hquiet]
    exact ⟨rfl, (Dev.rdi_ws_stove _ _ S.SE_CMD k 0 hk (by decide)).trans (Dev.rd_wr_same _ _ _ _), by simp, by simp⟩
  · simp only [List.mem_cons, List.not_mem_nil, or_false] at hmem
    rcases hmem with rfl | rfl | rfl
    · obtain ⟨ha, hpin, hdrops⟩ := hwrite rfl
      refine State.leads_of (t := s.on fun d => d.seWrite p k 0) rfl ?_
      rw [State.dev_on, ← hd, Dev.seWrite_drops _ _ _ _ (by rw [hd]; exact ha) hpin hdrops]
      exact d.droppedIn_of (d.wr S.SE_CMD k 0) _ k hk hc (by simp) (by simp) (by simp) (by simp)
    · refine State.leads_of (t := s.on fun d => d.seMismatch k) rfl ?_
      rw [State.dev_on, ← hd, Dev.seMismatch_driven _ _ (hmis rfl)]
      exact d.droppedIn_of (d.modSt k fun s => { s with extLow := true }) _ k hk hc (by simp) (by simp) (by simp) (by simp)
    · refine State.leads_of (t := s.on fun d => d.ilkLow k) rfl ?_
      rw [State.dev_on, ← hd, Dev.ilkLow_high _ _ (hlow rfl)]
      exact d.droppedIn_of (d.ilkNoted k) _ k hk hc (by simp) (by simp) (by simp) (by simp)
  · refine State.leads_of (t := s.on fun d => d.ilkLow k) rfl ?_
    rw [State.dev_on, ← hd, Dev.ilkLow_high _ _ hilk, Dev.dropStove_quiet _ _ (by simpa using hquiet), hft]
    obtain ⟨hse, hevents, hlast⟩ := d.rd_ilkNoted k
    have hrd : ∀ o : Obj, (o.blk = .stove ∧ o.off < 16 ∧ o.sub + 0 < 256) →
        ((d.ilkNoted k).raise (srcSt k 14)).rd o k = (d.ilkNoted k).rd o k := fun o ho =>
      Dev.rdi_raise _ _ o k 0 (o.plainHs_stove k 0 ho.1 ⟨hk, ho.2⟩).1
    simp only [Dev.ftAbortIf, Bool.false_eq_true, if_false, Dev.report_frame]
    exact ⟨by simp, (hrd _ (by decide)).trans hse, (hrd _ (by decide)).trans hevents, (hrd _ (by decide)).trans hlast,
      by simp, by simp⟩
  · refine State.leads_of (t := s.on fun d => d.modSt k fun s => { s with ilk := true }) rfl ?_
    rw [State.dev_on, ← hd]
    exact ⟨by simp, rfl, rfl, rfl, fun m hm => Dev.st_modSt_other _ _ _ _ hm⟩

end Sys2Proof.Machine
end

section
/-! PROOFS (03_ranges_and_hearths). Members of a hearth (R116–R118, R371), and its next active set (R128, R132). -/

namespace Sys2Proof.Machine

open Sys2Proof

/-! ### A MEMBER entry -/

/-- The units of an entry written: the named one belongs to the hearth without an owner, the one that was there to none, and
no other unit changes its membership or its owner. -/
theorem Dev.setMember_units (d : Dev) (h e : Nat) (v : Int) (hq : v ≠ 0xFFFF → (d.sq v.toNat).st.active = false) :
    (v ≠ 0xFFFF → (d.setMember h e v).parentOf v.toNat = h ∧ ∃ x, (d.setMember h e v).ownRec v.toNat = noOwner x v.toNat) ∧
    (∀ m, d.member h e = some m → m ≠ v.toNat →
      (d.setMember h e v).parentOf m = 0 ∧ (d.setMember h e v).ownRec m = noOwner d m) ∧
    ∀ w, w ≠ v.toNat → d.member h e ≠ some w →
      (d.setMember h e v).parentOf w = d.parentOf w ∧ (d.setMember h e v).ownRec w = d.ownRec w := by
  obtain ⟨d1, hsome, hnone, hparent, hown, -⟩ := d.setMember_frame h e v hq
  have hkept : ∀ w, w ≠ v.toNat → (d.setMember h e v).parentOf w = d1.parentOf w ∧ (d.setMember h e v).ownRec w = d1.ownRec w := by
    intro w hw
    unfold Dev.parentOf Dev.ownRec
    rw [hparent, hown]
    split
    · exact ⟨rfl, rfl⟩
    · exact ⟨SMap.get_set_other _ _ _ _ _ _ hw, SMap.get_ins_other _ _ _ _ _ hw⟩
  refine ⟨fun hv => ?_, fun m hm hmv => ?_, fun w hw hwm => ?_⟩
  · unfold Dev.parentOf Dev.ownRec
    rw [hparent, hown, if_neg hv, if_neg hv]
    exact ⟨SMap.get_set_same _ _ _ _, d1, SMap.get_ins_same _ _ _ _⟩
  · obtain ⟨hp, ho⟩ := hsome m hm
    obtain ⟨hp1, ho1⟩ := hkept m hmv
    rw [hp1, ho1, Dev.parentOf, Dev.ownRec, hp, ho]
    exact ⟨SMap.get_set_same _ _ _ _, SMap.get_ins_same _ _ _ _⟩
  · obtain ⟨hp1, ho1⟩ := hkept w hw
    rw [hp1, ho1]
    cases hm : d.member h e with
    | none => rw [hnone hm]; exact ⟨rfl, rfl⟩
    | some m =>
      obtain ⟨hp, ho⟩ := hsome m hm
      have hne : w ≠ m := fun heq => hwm (by rw [hm, heq])
      unfold Dev.parentOf Dev.ownRec
      rw [hp, ho]
      exact ⟨SMap.get_set_other _ _ _ _ _ _ hne, SMap.get_ins_other _ _ _ _ _ hne⟩

/-- Writing a MEMBER entry changes no channel's state: the engine of the unit that joins is idle. -/
theorem Dev.stc_setMember (d : Dev) (h e : Nat) (v : Int) (hq : v ≠ 0xFFFF → (d.sq v.toNat).st.active = false) :
    (d.setMember h e v).stc = d.stc := by
  obtain ⟨-, -, -, -, -, hstc⟩ := d.setMember_frame h e v hq
  exact hstc

/-- A write of MEMBER that is accepted and changes the entry sets it. -/
theorem Dev.memberWrite_ok (d : Dev) (p : Party) (h e : Nat) (v : Int)
    (ha : d.writeStatus p C.MEMBER h e v (d.memberCheck p h e v) = .ok) (hv : d.rdi C.MEMBER h e ≠ v) :
    d.memberWrite p h e v = (d.setMember h e v).watchCuts.say .ok := by
  rw [Dev.memberWrite, Dev.write_ok _ _ _ _ _ _ _ _ ha, if_neg hv]

/-! ### The next active set -/

/-- A hearth whose minimum holds stays as it is (R132). -/
theorem Dev.checkMin_holds (d : Dev) (h g was : Nat) (hm : d.rdN C.MIN_MEMBERS g ≤ (d.active g).length) :
    d.checkMin h g was = d := by
  simp [Dev.checkMin, hm]

/-- Where every minimum holds under the next active set, no hearth is fenced as it comes into force (R128, R132). -/
theorem Dev.reshare_holds (d : Dev) (h : Nat)
    (hm : ∀ g ∈ (d.modHe h Hearth.next).hearthsIn h,
      (d.modHe h Hearth.next).rdN C.MIN_MEMBERS g ≤ ((d.modHe h Hearth.next).active g).length) :
    d.reshare h = (((d.modHe h Hearth.next).leadAnew h (d.leaderOf h)).degrade h).undegrade h := by
  unfold Dev.reshare
  dsimp only
  rw [foldl_id _ _ _ fun g hg => Dev.checkMin_holds _ _ _ _ (hm g (List.mem_reverse.mp hg))]

/-- A new leader changes neither membership nor states nor clocks (R131). -/
theorem Dev.leadAnew_frame (d : Dev) (h : Nat) (o : Option Nat) :
    (d.leadAnew h o).he = d.he ∧ (d.leadAnew h o).stc = d.stc ∧ (d.leadAnew h o).clk = d.clk := by
  have hlead : ∀ l, (d.newLeader h l).he = d.he ∧ (d.newLeader h l).stc = d.stc ∧ (d.newLeader h l).clk = d.clk := by
    intro l
    refine ⟨?_, ?_, ?_⟩ <;> simp [Dev.newLeader, Dev.hsFlag]
  unfold Dev.leadAnew
  split
  next l o _ =>
    split
    next => exact ⟨rfl, rfl, rfl⟩
    next => exact hlead l
  next => exact ⟨rfl, rfl, rfl⟩

/-- A re-share under which every minimum holds changes no channel's state, and of the hearths its own next set alone. -/
theorem Dev.reshare_frame (d : Dev) (h : Nat)
    (hm : ∀ g ∈ (d.modHe h Hearth.next).hearthsIn h,
      (d.modHe h Hearth.next).rdN C.MIN_MEMBERS g ≤ ((d.modHe h Hearth.next).active g).length) :
    (d.reshare h).he h = (d.he h).next ∧ (d.reshare h).stc = d.stc ∧ (d.reshare h).clk = d.clk := by
  obtain ⟨hhe, hstc, hclk⟩ := (d.modHe h Hearth.next).leadAnew_frame h (d.leaderOf h)
  have hcalm : ∀ x : Dev, ((x.degrade h).undegrade h).calm = x.calm := fun x => by simp
  rw [Dev.reshare_holds d h hm]
  refine ⟨?_, ?_, ?_⟩
  · have := congrArg (fun x : Dev => x.he h) (hcalm ((d.modHe h Hearth.next).leadAnew h (d.leaderOf h)))
    exact this.trans ((congrFun hhe h).trans (Dev.he_modHe_same _ _ _))
  · simp [hstc]
  · exact (congrArg Dev.clk (hcalm ((d.modHe h Hearth.next).leadAnew h (d.leaderOf h)))).trans hclk

/-- HEARTH_RESHARE where a next active set is due (R128). -/
theorem exec_hearthReshare_due (s : State) (h t : Nat) (hdue : (s.found.he h).due = some t) :
    exec (.hearthReshare h) s = .next (s.on fun d => ((d.reach t).reshare h).followLeader h) := by
  change execHearthReshare h s = _
  rw [State.found] at hdue
  simp [execHearthReshare, State.on, hdue]

/-- Settles O28: an entry's write by `Dev.setMember_units`, a re-share by `Dev.reshare_frame`. -/
theorem membersJoinAndLeaveAHearth : Obligations.members_join_and_leave_a_hearth := by
  unfold Obligations.members_join_and_leave_a_hearth
  intro s p h d hd
  refine ⟨fun e v ha hcheck hv hq => ?_, fun due e hdue he hm => ?_⟩
  · refine State.leads_of (t := s.on fun d => d.memberWrite p h e v) rfl ?_
    rw [State.dev_on, ← hd, Dev.memberWrite_ok _ _ _ _ _ (by rw [hcheck, hd]; exact ha) hv]
    obtain ⟨hjoined, hleft, hother⟩ := d.setMember_units h e v hq
    have hparent : ((d.setMember h e v).watchCuts.say .ok).parentOf = (d.setMember h e v).parentOf := by
      funext u; simp [Dev.parentOf]
    have hown : ((d.setMember h e v).watchCuts.say .ok).ownRec = (d.setMember h e v).ownRec := by
      funext u; simp [Dev.ownRec]
    rw [hparent, hown]
    refine ⟨rfl, fun hne => ?_, fun m hmem hmv => ?_, fun w hw hwm => hother w hw hwm, ?_⟩
    · obtain ⟨hp, x, ho⟩ := hjoined hne
      rw [hp, ho]
      exact ⟨rfl, rfl, rfl⟩
    · obtain ⟨hp, ho⟩ := hleft m hmem hmv
      rw [hp, ho]
      exact ⟨rfl, rfl, rfl⟩
    · exact Dev.sts_eq _ _ (by simp [Dev.stc_setMember d h e v hq])
  · refine State.leads_of (exec_hearthReshare_due s h due (by rw [← hd]; exact hdue)) ?_
    rw [State.dev_on, ← hd]
    obtain ⟨fhe, fstc, fclk, fbeyond⟩ := ((d.reach due).reshare h).followLeader_frame h
    subst he
    obtain ⟨rhe, rstc, rclk⟩ := (d.reach due).reshare_frame h hm
    rw [fhe, fclk, fbeyond, rhe, rclk]
    exact ⟨by simp [Dev.reach_eq], Dev.sts_eq _ _ (by rw [fstc, rstc]; simp [Dev.reach_eq]), rfl, by simp⟩

end Sys2Proof.Machine
end

section
/-! PROOFS (04_measurement). Apertures of a physical channel and the low-power mode of its converters (R138, R145–R149): both
rows that close an aperture end in `Dev.endAperture`, of which `Dev.endAperture_facts` gives what is published. -/

namespace Sys2Proof.Machine

open Sys2Proof

/-! ### An aperture that is published -/

/-- APERTURE_END where the aperture has all its samples (R149). -/
theorem exec_apertureEnd_full (s : State) (u : Nat) (a : Ap) (ha : (s.found.ch u).meas.ap = some a) (hf : a.full = true) :
    exec (.apertureEnd u) s = .next (s.on fun d => d.endAperture u) := by
  change execApertureEnd u s = _
  rw [State.found] at ha
  simp [execApertureEnd, State.on, ha, hf]

/-- The full scale of a physical channel's range is an object's value. -/
theorem Dev.fs_of_rdi {d e : Dev} (u : Nat) (volt : Bool) (j : Nat) (hu : u < 256) (h : d.rdi = e.rdi) :
    d.fs u volt j = e.fs u volt j := by
  simp [Dev.fs, Dev.fsPhys, hu, h]

/-- An aperture whose line event failed to come (R147). -/
def Ap.noLine (a : Ap) : Ap :=
  { a with flagV := a.flagV ||| 2 ^ mNoLine, flagI := a.flagI ||| 2 ^ mNoLine, ended := true }

/-- The device at LINE_TIMEOUT, with the aperture `a` closed but not yet published (R147). -/
def Dev.lineMissed (d : Dev) (u : Nat) (a : Ap) : Dev :=
  (d.reach a.lineDue).modMeas u fun m =>
    { m with ap := some a.noLine, lineSeen := false, lineWait := none, stepNext := none }

/-- LINE_TIMEOUT in a running aperture of AP_MODE 1 publishes it as one without its line event, and reports it (R147). -/
theorem Dev.lineTimeout_running (d : Dev) (u : Nat) (a : Ap) (ha : (d.ch u).meas.ap = some a) (hm : a.mode = 1)
    (he : a.ended = false) :
    d.lineTimeout u = ((d.lineMissed u a).endAperture u).report 0x120F u 0 := by
  simp [Dev.lineTimeout, ha, hm, he, Dev.closeNoLine, Dev.lineMissed, Ap.noLine]

/-- The line event that failed to come leaves every object as it reads, the ranges, and what lies beyond. -/
@[simp] theorem Dev.lineMissed_frame (d : Dev) (u : Nat) (a : Ap) :
    (d.lineMissed u a).rd = d.rd ∧ (d.lineMissed u a).rdi = d.rdi ∧ ((d.lineMissed u a).ch u).rngV = (d.ch u).rngV ∧
    ((d.lineMissed u a).ch u).meas.ap = some a.noLine ∧ (d.lineMissed u a).clk = (d.reach a.lineDue).clk ∧
    (d.lineMissed u a).beyond = d.beyond := by
  refine ⟨?_, ?_, ?_, ?_, ?_, ?_⟩ <;> simp [Dev.lineMissed, Dev.reach_eq]

/-! ### AP_RUN -/

/-- The running free aperture abandoned by a write of 0 to AP_RUN (R148). -/
theorem Dev.setApRun_abandons (d : Dev) (u : Nat) (a : Ap) (ha : (d.ch u).meas.ap = some a) (ho : a.owner = .free) :
    d.setApRun u 0 = (((d.wr C.AP_RUN u 0).modMeas u fun m => { m with ap := none }).bump C.ABANDONED u 32 1).modMeas u
      fun m => { m with freeNext := false } := by
  simp [Dev.setApRun, Dev.abandon, ha, ho]

/-- AP_RUN set where it was clear, no aperture runs or waits, and the channel's integrator runs (R146, R148). -/
theorem Dev.setApRun_starts (d : Dev) (u : Nat) (v : Int) (hv : v ≠ 0) (hwas : d.flag C.AP_RUN u = false)
    (hap : (d.ch u).meas.ap = none) (hnext : (d.ch u).meas.stepNext = none) (hst : (d.ch u).ctl.st.integrates = true) :
    d.setApRun u v = (d.wr C.AP_RUN u v).modMeas u fun m =>
      { m with freeNext := true, freeFrom := d.clk.tick + 1, lineSeen := false } := by
  simp [Dev.setApRun, hv, hwas, hap, hnext, hst]

/-! ### LP_MODE -/

/-- LP_SETTLE_END where the converters settle (R138). -/
theorem exec_lpSettleEnd_settling (s : State) (u due : Nat) (hs : (s.found.ch u).meas.settle = some due) :
    exec (.lpSettleEnd u) s = .next (s.on fun d => (d.reach due).modMeas u fun m => { m with settle := none }) := by
  change execLpSettleEnd u s = _
  rw [State.found] at hs
  simp [execLpSettleEnd, State.on, hs]

/-- Settles O29: what is published by `Dev.endAperture_facts`; AP_RUN by the two cases of `Dev.setApRun`. -/
theorem aperturesArePublishedOrAbandoned : Obligations.apertures_are_published_or_abandoned := by
  unfold Obligations.apertures_are_published_or_abandoned
  rintro s u d m hu hd rfl
  refine ⟨fun c a b e ha hrow hfull hline => ?_, fun p v hacc => ⟨fun hv a ha ho => ?_, fun hv hwas hap hnext hst => ?_⟩,
    fun p v hacc => ?_, fun due hdue => ?_⟩
  · simp only [List.mem_cons, Prod.mk.injEq, List.not_mem_nil, or_false] at hrow
    rcases hrow with ⟨rfl, rfl, rfl⟩ | ⟨rfl, rfl, rfl⟩
    · refine State.leads_of (exec_apertureEnd_full s u b (by rw [← hd]; exact ha) (hfull rfl)) ?_
      rw [State.dev_on, ← hd]
      obtain ⟨hvalue, hfV, hfI, hnV, hnI, hsV, hsI, hqV, hqI, hap, hclk⟩ := e.endAperture_facts u b hu ha
      exact ⟨hvalue, hfV, hfI, hnV, hnI, hsV, hsI, hqV, hqI, hap, hclk, by simp⟩
    · obtain ⟨hmode, hended⟩ := hline rfl
      refine State.leads_of (t := s.on fun d => d.lineTimeout u) rfl ?_
      rw [State.dev_on, ← hd, Dev.lineTimeout_running _ _ _ ha hmode hended]
      obtain ⟨hvalue, hfV, hfI, hnV, hnI, hsV, hsI, hqV, hqI, hap, hclk⟩ :=
        (d.lineMissed u a).endAperture_facts u a.noLine hu (by simp)
      rw [Dev.fs_of_rdi (e := d) _ _ _ hu (by simp)] at hvalue
      simp only [Dev.lineMissed_frame] at hvalue hqV hqI hclk
      simp only [Dev.report_frame]
      exact ⟨hvalue, hfV, hfI, hnV, hnI, hsV, hsI, hqV, hqI, hap, hclk, by simp⟩
  · subst hv
    refine State.leads_of (t := s.on fun d => d.write p C.AP_RUN u 0 0 .ok fun e => e.setApRun u 0) rfl ?_
    rw [State.dev_on, Dev.write_ok _ _ _ _ _ _ _ _ hacc, ← hd, Dev.setApRun_abandons _ _ _ ha ho]
    have hrun := fun e => Dev.rd_ws_chan e .ok C.AP_RUN u (by decide)
    have hcount := fun e => Dev.rd_ws_chan e .ok C.ABANDONED u (by decide)
    refine ⟨rfl, (hrun _).trans ?_, (hcount _).trans ?_, by simp, by simp, by simp⟩ <;>
      simp (disch := decide) [Dev.rd_bump_apart, Dev.rd_wr_apart]
  · refine State.leads_of (t := s.on fun d => d.write p C.AP_RUN u 0 v .ok fun e => e.setApRun u v) rfl ?_
    rw [State.dev_on, Dev.write_ok _ _ _ _ _ _ _ _ hacc, ← hd, Dev.setApRun_starts _ _ _ hv hwas hap hnext hst]
    exact ⟨rfl, (Dev.rd_ws_chan _ _ _ _ (by decide)).trans (by simp), by simp, by simp, by simp⟩
  · refine State.leads_of (t := s.on fun d => d.lpWrite p u v) rfl ?_
    have hphys : Status.state.when (decide (256 ≤ u)) = .ok := by simp [Status.when, hu]
    rw [State.dev_on, Dev.lpWrite, Dev.write_ok _ _ _ _ _ _ _ _ (by rw [hphys]; exact hacc), ← hd]
    exact ⟨rfl, (Dev.rd_ws_chan _ _ _ _ (by decide)).trans (by simp), by simp, by simp, by simp,
      fun w hw => by simp [Dev.ch_modMeas_other _ _ _ _ hw]⟩
  · refine State.leads_of (exec_lpSettleEnd_settling s u due (by rw [← hd]; exact hdue)) ?_
    rw [State.dev_on, ← hd, Dev.reach_eq]
    exact ⟨by simp, by simp, by simp, by simp, fun w hw => by simp [Dev.ch_modMeas_other _ _ _ _ hw]⟩

end Sys2Proof.Machine
end

section
/-! PROOFS (04_measurement). The auxiliary scan, the comparators and the test DAC of a stove (R175–R186): an equation per phase
in which a row acts, each a chain of writes to the stove's objects and one change of its scan. -/

namespace Sys2Proof.Machine

open Sys2Proof

/-! ### Starts and urgent requests (R179, R181, R182) -/

/-- What a change of the scan leaves as it is, and the scan it leaves. -/
@[simp] theorem Dev.modAux_frame (d : Dev) (k : Nat) (f : Aux → Aux) :
    (d.modAux k f).dict = d.dict ∧ (d.modAux k f).rd = d.rd ∧ (d.modAux k f).rdi = d.rdi ∧ (d.modAux k f).flag = d.flag ∧
    (d.modAux k f).chans = d.chans ∧ (d.modAux k f).clk = d.clk ∧
    ((d.modAux k f).st k).aux = f (d.st k).aux := by
  refine ⟨?_, ?_, ?_, ?_, ?_, ?_, ?_⟩ <;> simp [Dev.modAux]

/-- The scans of other stoves. -/
theorem Dev.st_modAux_other (d : Dev) (k j : Nat) (f : Aux → Aux) (h : j ≠ k) : (d.modAux k f).st j = d.st j :=
  Dev.st_modSt_other _ _ _ _ h

/-- A start of an idle scan begins its first entry at the second aux clock edge. -/
theorem Dev.auxStart_idle (d : Dev) (k : Nat) (c : Cause) (hon : d.pdOn (256 + k) = true) (hph : (d.st k).aux.ph = .idle) :
    d.auxStart k c = d.auxBegin k (d.auxEdge k) c := by
  simp [Dev.auxStart, hon, hph]

/-- Beginning the sequence changes the scan alone. -/
theorem Dev.auxBegin_modAux (d : Dev) (k t : Nat) (c : Cause) : ∃ f, d.auxBegin k t c = d.modAux k f := by
  unfold Dev.auxBegin
  exact ⟨_, rfl⟩

/-- A start of a scan whose sequence runs, interrupted or not, is an overrun. -/
theorem Dev.auxStart_running (d : Dev) (k : Nat) (c : Cause) (hon : d.pdOn (256 + k) = true)
    (hidle : (d.st k).aux.ph ≠ .idle) (hurg : (d.st k).aux.ph ≠ .urgent) :
    d.auxStart k c = (d.bump S.OVERRUNS k 32 1).report 0x2520 k 0 := by
  cases hph : (d.st k).aux.ph with
  | idle => exact absurd hph hidle
  | urgent => exact absurd hph hurg
  | seq n => simp [Dev.auxStart, hon, hph]
  | urgentIn n => simp [Dev.auxStart, hon, hph]

/-- An urgent request to a scan that is idle, or whose sequence it interrupts, begins at the second aux clock edge. -/
theorem Dev.auxUrgent_taken (d : Dev) (k : Nat) (c : Cause) (y : AuxPhase) (hon : d.pdOn (256 + k) = true)
    (hph : ((d.st k).aux.ph = .idle ∧ y = .urgent) ∨ ∃ n, (d.st k).aux.ph = .seq n ∧ y = .urgentIn n) :
    d.auxUrgent k c = d.modAux k fun a =>
      { a with ph := y, urg := d.rdN S.URG_ENTRY k, due := d.auxEdge k + d.auxTime k (d.rdN S.URG_ENTRY k), genU := c } := by
  rcases hph with ⟨hidle, rfl⟩ | ⟨n, hseq, rfl⟩
  · simp [Dev.auxUrgent, hon, hidle]
  · simp [Dev.auxUrgent, hon, hseq]

/-! ### A conversion's result (R178, R427) -/

/-- The result of a conversion of entry `entry` stored in place `i` of `oc` and `ov`, and checked. -/
def Dev.storeResult (d : Dev) (oc ov : Obj) (k i entry code : Nat) : Dev :=
  let r := d.auxValue entry code
  ((r.1.wri oc k i code).wri ov k i r.2).auxWatch k entry code r.2

/-- A result stored changes objects alone. -/
@[simp] theorem Dev.storeResult_frame (d : Dev) (oc ov : Obj) (k i entry code : Nat) :
    (d.storeResult oc ov k i entry code).st = d.st ∧ (d.storeResult oc ov k i entry code).chans = d.chans ∧
    (d.storeResult oc ov k i entry code).clk = d.clk := by
  obtain ⟨-, hst, hch, hclk⟩ := d.auxValue_frame entry code
  unfold Dev.storeResult
  dsimp only
  rw [Dev.st_of_stoves (Dev.auxWatch_frame _ _ _ _ _).2.1]
  simp [Dev.auxWatch_frame, Dev.st_of_stoves hst, hch, hclk]

/-- The objects a result leaves are those of two writes. -/
theorem Dev.rdi_storeResult (d : Dev) (oc ov : Obj) (k i entry code : Nat) :
    ∃ v, (d.storeResult oc ov k i entry code).rdi = ((d.wri oc k i code).wri ov k i v).rdi := by
  refine ⟨(d.auxValue entry code).2, Dev.rdi_of_dict ?_⟩
  rw [Dev.storeResult, (Dev.auxWatch_frame _ _ _ _ _).1]
  simp [Dev.wri, d.auxValue_frame entry code]

/-- The code is kept. -/
theorem Dev.rdi_storeResult_code (d : Dev) (oc ov : Obj) (k i entry code : Nat) (h : oc.apart ov i i = true) :
    (d.storeResult oc ov k i entry code).rdi oc k i = code := by
  obtain ⟨v, hv⟩ := d.rdi_storeResult oc ov k i entry code
  rw [hv, Dev.rdi_wri_apart _ _ _ _ _ _ _ _ h, Dev.rdi_wri_same]

/-- Any other object reads as before. -/
theorem Dev.rdi_storeResult_apart (d : Dev) (oc ov o : Obj) (k i j l entry code : Nat) (hc : o.apart oc l i = true)
    (hv : o.apart ov l i = true) : (d.storeResult oc ov k i entry code).rdi o j l = d.rdi o j l := by
  obtain ⟨v, hr⟩ := d.rdi_storeResult oc ov k i entry code
  rw [hr, Dev.rdi_wri_apart _ _ _ _ _ _ _ _ hv, Dev.rdi_wri_apart _ _ _ _ _ _ _ _ hc]

/-- An object of a stove keeps its value while events are raised. -/
theorem Dev.rdi_raiseC_stove (d : Dev) (src : Nat) (c : Cause) (o : Obj) (k i : Nat) (hk : k < 16)
    (h : o.blk = .stove ∧ o.off < 16 ∧ o.sub + i < 256) : (d.raiseC src c).rdi o k i = d.rdi o k i :=
  Dev.rdi_raiseC _ _ _ _ _ _ (o.plainHs_stove k i h.1 ⟨hk, h.2⟩).1

/-! ### The end of an entry of the sequence (R178–R181) -/

/-- The device at the end of entry `n` of the sequence, its result stored and its update noted. -/
def Dev.entryDone (d : Dev) (k n code : Nat) : Dev :=
  let a := (d.st k).aux
  let e := (d.reach a.due).storeResult S.AUX_CODE S.AUX_VALUE k (n - 1) (a.copy.getD (n - 1) 0) (min code 16383)
  e.modAux k fun a => { a with upd := SMap.ins a.upd n e.clk.cc }

/-- The device at the end of the sequence's last entry, the sequence counted and its event raised (R178, R181). -/
def Dev.seqDone (d : Dev) (k n code : Nat) : Dev :=
  (((d.entryDone k n code).wrap S.SEQ_COUNT k 32 1).wr S.SEQ_START k (d.st k).aux.start).raiseC (srcSt k 12) (d.st k).aux.gen

/-- The places of the sequence's results lie apart from one another and from the scan's other objects. -/
theorem auxResult_apart : ∀ i < 16, S.AUX_CODE.apart S.AUX_VALUE i i = true ∧
    S.AUX_CODE.apart S.SEQ_COUNT i 0 = true ∧ S.AUX_CODE.apart S.SEQ_START i 0 = true ∧
    ∀ o ∈ [S.AUX_LP, S.REPEAT, S.SEQ_COUNT], o.apart S.AUX_CODE 0 i = true ∧ o.apart S.AUX_VALUE 0 i = true := by
  decide

@[simp] theorem Dev.entryDone_frame (d : Dev) (k n code : Nat) :
    ((d.entryDone k n code).st k).aux =
      { (d.st k).aux with upd := SMap.ins (d.st k).aux.upd n (d.reach (d.st k).aux.due).clk.cc } ∧
    (d.entryDone k n code).chans = d.chans ∧ (d.entryDone k n code).clk = (d.reach (d.st k).aux.due).clk := by
  refine ⟨?_, ?_, ?_⟩ <;> simp [Dev.entryDone, Dev.reach_eq]

theorem Dev.rdi_entryDone_code (d : Dev) (k n code : Nat) (hn : n - 1 < 16) :
    (d.entryDone k n code).rdi S.AUX_CODE k (n - 1) = (min code 16383 : Nat) := by
  obtain ⟨hapart, -⟩ := auxResult_apart _ hn
  simp [Dev.entryDone, Dev.rdi_storeResult_code _ _ _ _ _ _ _ hapart]

theorem Dev.rd_entryDone (d : Dev) (k n code : Nat) (hn : n - 1 < 16) (o : Obj) (j : Nat)
    (ho : o ∈ [S.AUX_LP, S.REPEAT, S.SEQ_COUNT]) : (d.entryDone k n code).rd o j = d.rd o j := by
  obtain ⟨-, -, -, hapart⟩ := auxResult_apart _ hn
  obtain ⟨hc, hv⟩ := hapart o ho
  simp [Dev.entryDone, Dev.rd, Dev.rdi_storeResult_apart _ _ _ _ _ _ _ _ _ _ hc hv, Dev.reach_eq]

theorem Dev.auxTime_entryDone (d : Dev) (k n code entry : Nat) (hn : n - 1 < 16) :
    (d.entryDone k n code).auxTime k entry = d.auxTime k entry := by
  simp [Dev.auxTime, Dev.auxClock, Dev.flag, Dev.rd_entryDone d k n code hn]

@[simp] theorem Dev.seqDone_frame (d : Dev) (k n code : Nat) :
    (d.seqDone k n code).st = (d.entryDone k n code).st ∧ (d.seqDone k n code).chans = d.chans ∧
    (d.seqDone k n code).clk = (d.reach (d.st k).aux.due).clk := by
  refine ⟨?_, ?_, ?_⟩ <;> simp [Dev.seqDone]

/-- What the end of the sequence leaves in the objects of its stove. -/
theorem Dev.rdi_seqDone (d : Dev) (k n code : Nat) (hk : k < 16) (hn : n - 1 < 16) :
    (d.seqDone k n code).rdi S.AUX_CODE k (n - 1) = (min code 16383 : Nat) ∧
    (d.seqDone k n code).rd S.SEQ_COUNT k = (d.rd S.SEQ_COUNT k + 1) % 2 ^ 32 ∧
    (d.seqDone k n code).rd S.SEQ_START k = (d.st k).aux.start ∧
    (d.seqDone k n code).flag S.REPEAT k = d.flag S.REPEAT k := by
  obtain ⟨-, hcount, hstart, -⟩ := auxResult_apart _ hn
  have hrd := fun (e : Dev) o (h : o.blk = .stove ∧ o.off < 16 ∧ o.sub + 0 < 256) =>
    e.rdi_raiseC_stove (srcSt k 12) (d.st k).aux.gen o k 0 hk h
  refine ⟨?_, ?_, ?_, ?_⟩
  · refine (Dev.rdi_raiseC_stove _ _ _ _ _ _ hk ⟨rfl, by decide, by simp only [S.AUX_CODE]; omega⟩).trans ?_
    exact (Dev.rdi_wri_apart _ _ _ _ _ _ _ _ hstart).trans
      ((Dev.rdi_wri_apart _ _ _ _ _ _ _ _ hcount).trans (d.rdi_entryDone_code k n code hn))
  · refine (hrd _ _ (by decide)).trans ?_
    refine (Dev.rd_wr_apart _ _ _ _ _ _ (by decide)).trans ?_
    rw [Dev.rd_wrap_same, d.rd_entryDone k n code hn _ _ (by simp)]
    rfl
  · exact (hrd _ _ (by decide)).trans (Dev.rd_wr_same _ _ _ _)
  · have hrep : (d.seqDone k n code).rd S.REPEAT k = d.rd S.REPEAT k :=
      (hrd _ _ (by decide)).trans ((Dev.rd_wr_apart _ _ _ _ _ _ (by decide)).trans
        ((Dev.rd_wrap_apart _ _ _ _ _ _ _ (by decide)).trans (d.rd_entryDone k n code hn _ _ (by simp))))
    simp [Dev.flag, hrep]

/-- What follows an entry of the running sequence: the next one, or the sequence's end and its repeat. -/
theorem Dev.auxEnd_seq (d : Dev) (k n code : Nat) (hph : (d.st k).aux.ph = .seq n) :
    d.auxEnd k code =
      if n < (d.st k).aux.copy.length then (d.entryDone k n code).modAux k fun a =>
        { a with ph := .seq (n + 1), due := a.due + (d.entryDone k n code).auxTime k (a.copy.getD n 0) }
      else if (d.seqDone k n code).flag S.REPEAT k then (d.seqDone k n code).auxBegin k (d.st k).aux.due {}
      else (d.seqDone k n code).modAux k fun a => { a with ph := .idle } := by
  unfold Dev.auxEnd
  rw [hph]
  rfl

/-- The end of an entry that is not the last: the next one runs. -/
theorem Dev.auxEnd_next (d : Dev) (k n code : Nat) (hph : (d.st k).aux.ph = .seq n) (hn : n - 1 < 16)
    (hlt : n < (d.st k).aux.copy.length) :
    d.auxEnd k code = (d.entryDone k n code).modAux k fun a =>
      { a with ph := .seq (n + 1), due := a.due + d.auxTime k (a.copy.getD n 0) } := by
  simp only [d.auxEnd_seq k n code hph, if_pos hlt, d.auxTime_entryDone k n code _ hn]

/-- The end of the sequence's last entry: the scan is idle, unless REPEAT begins it anew. -/
theorem Dev.auxEnd_last (d : Dev) (k n code : Nat) (hph : (d.st k).aux.ph = .seq n)
    (hge : (d.st k).aux.copy.length ≤ n) :
    ∃ f, d.auxEnd k code = (d.seqDone k n code).modAux k f ∧
      ((d.seqDone k n code).flag S.REPEAT k = false → f = fun a => { a with ph := .idle }) := by
  rw [d.auxEnd_seq k n code hph, if_neg (Nat.not_lt.mpr hge)]
  split
  next hrep =>
    obtain ⟨f, hf⟩ := (d.seqDone k n code).auxBegin_modAux k (d.st k).aux.due {}
    exact ⟨f, hf, fun hoff => absurd hrep (by simp [hoff])⟩
  next => exact ⟨_, rfl, fun _ => rfl⟩

/-! ### The end of an urgent conversion (R178, R181, R182) -/

/-- The device at the end of the urgent conversion, its result stored and its event raised. -/
def Dev.urgDone (d : Dev) (k code : Nat) : Dev :=
  ((d.reach (d.st k).aux.due).storeResult S.URG_CODE S.URG_VALUE k 0 (d.st k).aux.urg (min code 16383)).raiseC (srcSt k 13)
    (d.st k).aux.genU

@[simp] theorem Dev.urgDone_frame (d : Dev) (k code : Nat) :
    (d.urgDone k code).st = d.st ∧ (d.urgDone k code).chans = d.chans := by
  refine ⟨?_, ?_⟩ <;> simp [Dev.urgDone, Dev.reach_eq]

theorem Dev.rd_urgDone_code (d : Dev) (k code : Nat) (hk : k < 16) :
    (d.urgDone k code).rd S.URG_CODE k = (min code 16383 : Nat) :=
  (Dev.rdi_raiseC_stove _ _ _ _ _ _ hk (by decide)).trans (Dev.rdi_storeResult_code _ _ _ _ _ _ _ (by decide))

/-- The end of an urgent conversion that interrupted no sequence: the scan is idle, unless a start was held. -/
theorem Dev.urgEnd_urgent (d : Dev) (k code : Nat) (hph : (d.st k).aux.ph = .urgent) :
    ∃ f, d.urgEnd k code = (d.urgDone k code).modAux k f ∧
      ((d.st k).aux.heldStart = false → f = fun a => { a with ph := .idle }) := by
  have hend : d.urgEnd k code = if (d.st k).aux.heldStart then
      (d.urgDone k code).auxBegin k (d.st k).aux.due (d.st k).aux.gen
      else (d.urgDone k code).modAux k fun a => { a with ph := .idle } := by
    unfold Dev.urgEnd
    dsimp only
    rw [hph]
    rfl
  rw [hend]
  split
  next hheld =>
    obtain ⟨f, hf⟩ := (d.urgDone k code).auxBegin_modAux k (d.st k).aux.due (d.st k).aux.gen
    exact ⟨f, hf, fun hoff => absurd hheld (by simp [hoff])⟩
  next => exact ⟨_, rfl, fun _ => rfl⟩

/-- The end of an urgent conversion that interrupted entry `n`: that entry runs again. -/
theorem Dev.urgEnd_urgentIn (d : Dev) (k n code : Nat) (hph : (d.st k).aux.ph = .urgentIn n) :
    d.urgEnd k code = (d.urgDone k code).modAux k fun a =>
      { a with ph := .seq n, due := (d.st k).aux.due + d.auxTime k ((d.st k).aux.copy.getD (n - 1) 0) } := by
  unfold Dev.urgEnd
  dsimp only
  rw [hph]
  rfl

/-- Where no urgent conversion runs, none ends. -/
theorem Dev.urgEnd_none (d : Dev) (k code : Nat) (hu : (d.st k).aux.ph ≠ .urgent)
    (hi : ∀ n, (d.st k).aux.ph ≠ .urgentIn n) : d.urgEnd k code = d := by
  cases hph : (d.st k).aux.ph with
  | idle => simp [Dev.urgEnd, hph]
  | seq n => simp [Dev.urgEnd, hph]
  | urgent => exact absurd hph hu
  | urgentIn n => exact absurd hph (hi n)

/-! ### Comparators and the test DAC (R183, R186) -/

/-- A crossing of an enabled comparator that starts no sequence: its output follows, and its event is raised in the direction
set (R183). -/
theorem Dev.cmpCross_taken (d : Dev) (k c : Nat) (high : Bool) (hk : k < 16) (hc : c < 12) (hon : d.pdOn (256 + k) = true)
    (hen : bit (d.rdiN S.CMP k c) 15 = true) (hwas : bit (d.st k).cmp c = !high)
    (hstart : bit (d.rdN S.CMP_START k) c = false) :
    d.cmpCross k c high =
      if high = bit (d.rdiN S.CMP k c) 14 then d.modSt k fun s => { s with cmp := setBit s.cmp c high }
      else (d.modSt k fun s => { s with cmp := setBit s.cmp c high }).raise (srcSt k c) := by
  have hrd : ∀ e : Dev, (e.raise (srcSt k c)).rdN S.CMP_START k = e.rdN S.CMP_START k := fun e =>
    congrArg Int.toNat (e.rdi_raiseC_stove (srcSt k c) {} S.CMP_START k 0 hk (by decide))
  have hcross : bit (d.st k).cmp c ≠ high := by simp [hwas]
  have hplace : ¬ 11 < c := by omega
  by_cases hdir : high = bit (d.rdiN S.CMP k c) 14
  · simp [Dev.cmpCross, hplace, hen, hcross, hon, ← hdir]
  · simp [Dev.cmpCross, hplace, hen, hcross, hon, hdir, hrd, hstart]

/-- Settles O31: each row by the equation of its phase, and what the chain of writes leaves by the rules above. -/
theorem auxiliaryScanComparatorsAndTestDac : Obligations.auxiliary_scan_comparators_and_test_dac := by
  unfold Obligations.auxiliary_scan_comparators_and_test_dac
  rintro s p k d a hd rfl hk hon
  refine ⟨fun hacc hidle => ?_, fun hacc hidle hurg => ?_, fun n code hph hn => ?_, fun y hph hacc => ?_, fun code => ?_,
    fun c high hc hen hwas hstart => ?_, fun v hacc hcheck => ?_⟩
  · refine State.leads_of (t := s.on fun d => d.write p S.AUX_START k 0 1 .ok fun e => e.auxStart k {}) rfl ?_
    rw [State.dev_on, Dev.write_ok _ _ _ _ _ _ _ _ hacc, ← hd, Dev.auxStart_idle _ _ _ hon hidle]
    exact ⟨rfl, by simp [Dev.auxBegin], by simp [Dev.auxBegin], by simp [Dev.auxBegin],
      fun j hj => by simp [Dev.auxBegin, Dev.st_modAux_other _ _ _ _ hj]⟩
  · refine State.leads_of (t := s.on fun d => d.write p S.AUX_START k 0 1 .ok fun e => e.auxStart k {}) rfl ?_
    rw [State.dev_on, Dev.write_ok _ _ _ _ _ _ _ _ hacc, ← hd, Dev.auxStart_running _ _ _ hon hidle hurg]
    exact ⟨rfl, by simp, (Dev.rdi_ws_stove _ _ S.OVERRUNS k 0 hk (by decide)).trans (Dev.rd_bump_same _ _ _ _ _), by simp,
      by simp⟩
  · refine State.leads_of (t := s.on fun d => d.auxEnd k code) rfl ?_
    rw [State.dev_on, ← hd]
    have hbeyond : (d.auxEnd k code).beyond = d.beyond := by simp
    by_cases hlt : n < (d.st k).aux.copy.length
    · rw [d.auxEnd_next k n code hph hn hlt] at hbeyond ⊢
      exact ⟨by simpa using d.rdi_entryDone_code k n code hn, fun _ => by simp, fun hge => absurd hlt (Nat.not_lt.mpr hge),
        by simp, by simp, hbeyond⟩
    · obtain ⟨f, hend, hidle⟩ := d.auxEnd_last k n code hph (Nat.not_lt.mp hlt)
      obtain ⟨hcode, hcount, hstart, hrep⟩ := d.rdi_seqDone k n code hk hn
      rw [hend] at hbeyond ⊢
      refine ⟨by simpa using hcode, fun h => absurd h hlt, fun _ hoff => ⟨?_, ?_, ?_⟩, by simp, by simp, hbeyond⟩
      · simp [hidle (hrep.trans hoff)]
      · simpa using hcount
      · simpa using hstart
  · refine State.leads_of (t := s.on fun d => d.write p S.URG_CMD k 0 1 .ok fun e => e.auxUrgent k {}) rfl ?_
    rw [State.dev_on, Dev.write_ok _ _ _ _ _ _ _ _ hacc, ← hd, Dev.auxUrgent_taken _ _ _ y hon hph]
    exact ⟨rfl, by simp, by simp, by simp⟩
  · refine State.leads_of (t := s.on fun d => d.urgEnd k code) rfl ?_
    rw [State.dev_on, ← hd]
    have hbeyond : (d.urgEnd k code).beyond = d.beyond := by simp
    cases hph : (d.st k).aux.ph
    case idle => simp [Dev.urgEnd_none, hph]
    case seq n => simp [Dev.urgEnd_none, hph]
    case urgent =>
      obtain ⟨f, hend, hidle⟩ := d.urgEnd_urgent k code hph
      rw [hend] at hbeyond ⊢
      exact ⟨by simp, fun _ hheld => by simp [hidle hheld], fun _ => by simpa using d.rd_urgDone_code k code hk, by simp,
        hbeyond⟩
    case urgentIn n =>
      rw [d.urgEnd_urgentIn k n code hph] at hbeyond ⊢
      exact ⟨fun m hm => by cases hm; simp, by simp, fun _ => by simpa using d.rd_urgDone_code k code hk, by simp, hbeyond⟩
  · refine State.leads_of (t := s.on fun d => d.cmpCross k c high) rfl ?_
    rw [State.dev_on, ← hd, Dev.cmpCross_taken _ _ _ _ hk hc hon hen hwas hstart]
    split <;> simp
  · refine State.leads_of (t := s.on fun d => d.tdWrite p k v) rfl ?_
    rw [State.dev_on, ← hd, Dev.tdWrite, Dev.write_ok _ _ _ _ _ _ _ _ (by rw [hcheck, hd]; exact hacc)]
    exact ⟨rfl, (Dev.rdi_ws_stove _ _ S.TD_ROUTE k 0 hk (by decide)).trans (Dev.rd_wr_same _ _ _ _), by simp, by simp⟩

end Sys2Proof.Machine
end

section
/-! PROOFS (05_sequences). The canonical form of the waveform memory and of the flash (R187, R477): it stands at reset, every
command keeps it, and so does every step. Most commands are an operation on the device; those that are not pass through the
accesses, the image, the boot or the console, whose own lemmas (Laws/Memories) say what they keep. -/

namespace Sys2Proof.Machine

open Sys2Proof

/-! ### Every command keeps the memories and the queue -/

/-- Segment data goes to the waveform memory where it is accepted (R187). -/
theorem State.leads_carries_segDataWrite (s : State) (p : Party) (bytes : List Byte) :
    s.leads (.segDataWrite p bytes) s.carries := by
  change ∃ t, execSegDataWrite p bytes s = .next t ∧ s.carries t
  unfold execSegDataWrite
  split
  · exact ⟨_, rfl, rfl, fun h => Mem.wf_write _ _ _ _ h, id⟩
  · exact ⟨_, rfl, State.carries_on _ _⟩

/-- A counter's write is the access of a number, or no access at all. -/
theorem State.leads_carries_counterClearWrite (s : State) (p : Party) (index sub : Nat) (v : Int) :
    s.leads (.counterClearWrite p index sub v) s.carries := by
  refine State.leads_of rfl ?_
  split
  · exact State.carries_ite _ (State.carries_putNum s p index sub v) (State.carries_on _ _)
  · exact State.carries_on _ _

/-- A sticky flag's write is the access of a number, or no access at all. -/
theorem State.leads_carries_stickyFlagClear (s : State) (p : Party) (index sub : Nat) (v : Int) :
    s.leads (.stickyFlagClear p index sub v) s.carries := by
  refine State.leads_of rfl ?_
  split
  · split
    · exact State.carries_putNum s p index sub v
    · exact State.carries_on _ _
  · exact State.carries_on _ _

/-- A Samovar frame is served with what waits before it, whether it waits already or arrives with the command. -/
theorem State.leads_carries_samovarRequest (s : State) (port src : Nat) (bytes : List Byte) :
    s.leads (.samovarRequest port src bytes) s.carries := by
  have harrive : s.carries (s.on fun d => d.arrive port src bytes) := State.carries_on _ _
  refine State.leads_of rfl (State.carries_ite _ (State.carries_on _ _) (State.carries_ite _ ?_ ?_))
  · exact State.carries_serve _ _ _
  · exact State.carries_ite _ (State.carries_trans harrive (State.carries_serve _ _ _)) harrive

/-- A console command leads to what its meaning keeps. -/
theorem State.leads_carries_command {s : State} {c : Instr} {scopes : List Nat} {f : State → State}
    (hx : exec c s = .next (s.command scopes f)) (hf : s.carries (f s)) : s.leads c s.carries :=
  State.leads_of hx (State.carries_command s scopes f hf)

/-- Every command leads to a state with the queue it found and the memories in canonical form where it found them so. -/
theorem State.leads_carries (s : State) (c : Instr) : s.leads c s.carries := by
  cases c
  case segDataWrite p bytes => exact s.leads_carries_segDataWrite p bytes
  case counterClearWrite p index sub v => exact s.leads_carries_counterClearWrite p index sub v
  case stickyFlagClear p index sub v => exact s.leads_carries_stickyFlagClear p index sub v
  case samovarRequest port src bytes => exact s.leads_carries_samovarRequest port src bytes
  case imgCmdErase p => exact State.leads_of rfl (s.carries_imgCmd p 1)
  case imgCmdCommit p => exact State.leads_of rfl (s.carries_imgCmd p 2)
  case imgDataWrite p bytes => exact State.leads_of rfl (s.carries_imgData p bytes)
  case imageFlashDone ok => exact State.leads_of rfl (State.carries_trans (s.carries_imgDone ok) (State.carries_flashFree _))
  case tlvWrite p index sub bytes => exact State.leads_of rfl (s.carries_writeTyped p index sub bytes)
  case tlvDomainWrite p index sub bytes => exact State.leads_of rfl (s.carries_writeDomain p index sub bytes)
  case dictWrite p index sub v => exact State.leads_of rfl (s.carries_writeVal p index sub v)
  case domainSwitchDone => exact State.leads_of rfl s.carries_switchDone
  case bootPhaseEnd => exact State.leads_of rfl s.carries_phaseEnd
  case calStoreComplete ok => exact State.leads_of rfl (State.carries_trans (State.carries_on _ _) (State.carries_flashFree _))
  case hist n => exact State.leads_of rfl (s.carries_flashCmd _ _)
  case flashVerify => exact State.leads_of rfl (s.carries_flashCmd _ _)
  case flashRead addr n => exact State.leads_of rfl (s.carries_flashCmd _ _)
  case consoleClear target => exact State.leads_of rfl (s.carries_clearCommand target 1)
  case consoleFence target => exact State.leads_of rfl (s.carries_clearCommand target 2)
  case consoleWr index sub v =>
    refine State.leads_carries_command rfl ?_
    cases v
    · exact s.carries_writeAny _ _ _ _
    · exact State.carries_on _ _
  case consoleDwr index sub bytes =>
    exact State.leads_carries_command rfl (State.carries_ite _ (State.carries_on _ _) (s.carries_writeDomain _ _ _ _))
  case consoleReset level =>
    exact State.leads_carries_command rfl (State.carries_ite _ (s.carries_putNum _ _ _ _) (State.carries_on _ _))
  case consoleRate rate => exact State.leads_carries_command rfl (s.carries_putNum _ _ _ _)
  case consoleBoot v => exact State.leads_carries_command rfl (s.carries_putNum _ _ _ _)
  case consoleEnter v => exact State.leads_carries_command rfl (s.carries_putNum _ _ _ _)
  case consoleMeter v => exact State.leads_carries_command rfl (s.carries_putNum _ _ _ _)
  case consoleHelp | consoleId | consoleStatus | consoleFaults | consoleRd | consoleDrd =>
    exact State.leads_carries_command rfl (State.carries_on _ _)
  -- every other command is an operation on the device alone
  all_goals exact State.leads_of rfl (State.carries_on _ _)

/-! ### Every step keeps the canonical form -/

/-- Where a command waits, the step is that command on the state with the queue's rest (log 1). -/
theorem step_of_pending_cons (s : State) (c : Instr) (rest : List Instr) (h : s.pending = c :: rest) :
    step s = exec c { s with pending := rest } := by
  unfold step
  rw [h]

/-- What has the queue of a state with memories in canonical form has them so too. -/
theorem State.memOk_of_carries {s t : State} (hm : s.memOk) (h : s.carries t) : t.memOk := by
  obtain ⟨hw, hf⟩ := hm
  obtain ⟨-, hwave, hflash⟩ := h
  exact ⟨hwave hw, hflash hf⟩

/-- A command keeps the canonical form of the memories. -/
theorem exec_keeps_memOk {s t : State} {c : Instr} (hm : s.memOk) (hx : exec c s = .next t) : t.memOk := by
  obtain ⟨r, hr, hc⟩ := s.leads_carries c
  obtain rfl : r = t := Host.Outcome.next.inj (hr.symm.trans hx)
  exact State.memOk_of_carries hm hc

/-- Settles O5: nothing stands in either memory after reset. -/
theorem resetMemoriesAreCanonical : Obligations.reset_memories_are_canonical :=
  ⟨Mem.wf_nil 0, Mem.wf_nil 0xFF⟩

/-- Settles O6: a step is one core cycle of the device, or the command at the front of the queue. -/
theorem everyStepKeepsTheMemoriesCanonical : Obligations.every_step_keeps_the_memories_canonical := by
  unfold Obligations.every_step_keeps_the_memories_canonical
  intro s t hm hstep
  cases hp : s.pending with
  | nil =>
    rw [step_of_pending_nil s hp] at hstep
    obtain rfl := Host.Outcome.next.inj hstep
    exact State.memOk_of_carries hm (State.carries_on s _)
  | cons c rest =>
    rw [step_of_pending_cons s c rest hp] at hstep
    exact exec_keeps_memOk (s := { s with pending := rest }) hm hstep

end Sys2Proof.Machine
end

section
/-! PROOFS (10_host_ports_and_samovar). Accesses and commands (R347–R349, R352): every command answers a next state, a write
answers the first code of R349, a refused command is a write that leaves all but the status, a failing TLV with ABORT_ON_ERROR
ends the request's execution, and a read asks for no ownership. -/

namespace Sys2Proof.Machine

open Sys2Proof

/-! ### Every command completes -/

/-- Settles O3: what every command carries over to its next state includes the queue of commands. -/
theorem everyCommandCompletesAndLeavesTheQueue : Obligations.every_command_completes_and_leaves_the_queue := by
  unfold Obligations.every_command_completes_and_leaves_the_queue
  intro s c
  obtain ⟨t, hexec, hpending, -⟩ := s.leads_carries c
  exact State.leads_of hexec hpending

/-! ### The first of several codes (R349) -/

/-- The first of two answers is one of them. -/
theorem Status.first_eq_or (a b : Status) : Status.first a b = a ∨ Status.first a b = b := by
  unfold Status.first
  split
  · exact .inr rfl
  · split
    · exact .inl rfl
    · split
      · exact .inr rfl
      · exact .inl rfl

/-- The first of two answers has no higher code than the left one, if that is a refusal. -/
theorem Status.first_code_le_left {a : Status} (b : Status) (ha : a ≠ .ok) : (Status.first a b).code ≤ a.code := by
  unfold Status.first
  rw [if_neg ha]
  split
  · exact le_rfl
  · split <;> omega

/-- The first of two answers has no higher code than the right one, if that is a refusal. -/
theorem Status.first_code_le_right (a : Status) {b : Status} (hb : b ≠ .ok) : (Status.first a b).code ≤ b.code := by
  unfold Status.first
  rw [if_neg hb]
  split
  · exact le_rfl
  · split <;> omega

/-- The first of the answers `a` and `xs` is one of them, and no refusal among them has a lower code. -/
theorem foldl_first_least (xs : List Status) (a : Status) :
    xs.foldl Status.first a ∈ a :: xs ∧ ∀ x ∈ a :: xs, x ≠ .ok → (xs.foldl Status.first a).code ≤ x.code := by
  induction xs generalizing a with
  | nil => simp
  | cons b xs ih =>
    obtain ⟨hmem, hle⟩ := ih (Status.first a b)
    rw [List.foldl_cons]
    have hhead : Status.first a b ≠ .ok → (xs.foldl Status.first (Status.first a b)).code ≤ (Status.first a b).code :=
      hle _ List.mem_cons_self
    refine ⟨?_, fun x hx hne => ?_⟩
    · rcases List.mem_cons.mp hmem with heq | htail
      · rw [heq]
        rcases Status.first_eq_or a b with h | h <;> simp [h]
      · simp [htail]
    · rcases List.mem_cons.mp hx with rfl | hx
      · exact (hhead fun h => hne ((Status.first_ok _ _).mp h).1).trans (Status.first_code_le_left b hne)
      · rcases List.mem_cons.mp hx with rfl | hx
        · exact (hhead fun h => hne ((Status.first_ok _ _).mp h).2).trans (Status.first_code_le_right a hne)
        · exact hle x (List.mem_cons_of_mem _ hx) hne

/-- Where there is a refusal, the first one is in the list. -/
theorem firstOf_mem {xs : List Status} (h : firstOf xs ≠ .ok) : firstOf xs ∈ xs :=
  (List.mem_cons.mp (foldl_first_least xs .ok).1).resolve_left h

/-- No refusal of the list has a lower code than the first. -/
theorem firstOf_code_le {xs : List Status} {x : Status} (hx : x ∈ xs) (hne : x ≠ .ok) : (firstOf xs).code ≤ x.code :=
  (foldl_first_least xs .ok).2 x (List.mem_cons_of_mem _ hx) hne

/-! ### What a write answers (R347, R349) -/

/-- The reasons for which a write that is served and names an object may be refused (R349). -/
def Dev.writeReasons (d : Dev) (p : Party) (o : Obj) (u : Nat) (v : Int) (extra : Status) : List Status :=
  [Status.access.when (o.acc == .ro || o.acc == .const_ || hearthRo o u), d.levelOk p o u,
    Status.value.when (!o.ty.holds v || !o.dom.accepts v), d.stateOk o u v, extra]

section
variable (d : Dev) (p : Party) (o : Obj) (u i : Nat) (v : Int) (extra : Status)

/-- A write that is not served answers what its gate does. -/
theorem Dev.writeStatus_unserved (h : d.gate p (o.index u) true ≠ .ok) :
    d.writeStatus p o u i v extra = d.gate p (o.index u) true := by
  unfold Dev.writeStatus
  split
  · contradiction
  · rfl

/-- A write to an object that the unit does not have. -/
theorem Dev.writeStatus_absent (hg : d.gate p (o.index u) true = .ok) (ht : o.there u i = false) :
    d.writeStatus p o u i v extra = .noObject := by
  simp [Dev.writeStatus, hg, ht]

/-- A write that is served and names an object answers the first reason against it. -/
theorem Dev.writeStatus_served (hg : d.gate p (o.index u) true = .ok) (ht : o.there u i = true) :
    d.writeStatus p o u i v extra = firstOf (d.writeReasons p o u v extra) := by
  simp [Dev.writeStatus, Dev.writeReasons, hg, ht]

end

/-- Settles O7: where the gate lets a write pass and the object is there, its answer is the first of the reasons. -/
theorem aWriteAnswersTheFirstCodeOfR349 : Obligations.a_write_answers_the_first_code_of_r349 := by
  unfold Obligations.a_write_answers_the_first_code_of_r349
  intro d p o u i v extra
  refine ⟨d.writeStatus_unserved p o u i v extra, d.writeStatus_absent p o u i v extra, fun hg ht why hwhy => ?_⟩
  have hfirst : d.writeStatus p o u i v extra = firstOf why := by
    rw [hwhy]
    exact d.writeStatus_served p o u i v extra hg ht
  rw [hfirst]
  exact ⟨firstOf_ok why, fun hne => ⟨firstOf_mem hne, fun x hx hx' => firstOf_code_le hx hx'⟩⟩

/-! ### A refused command (R347, R349, log 1) -/

/-- On the device as found, command `c` is the write of `v` to a place of an object, under the rule that answers `x`. -/
def State.writes (s : State) (p : Party) (c : Instr) (o : Obj) (u i : Nat) (v : Int) (x : Status) : Prop :=
  ∃ (f eff : Dev → Dev), exec c s = .next (s.on f) ∧ f s.found = s.found.write p o u i v x eff

/-- A command that is a write, where it is refused, leads to the refusal's status and changes nothing else. -/
theorem State.leads_refused_frame {s : State} {p : Party} {c : Instr} {o : Obj} {u i : Nat} {v : Int} {x y : Status}
    (hw : s.writes p c o u i v x) (hy : y = s.found.writeStatus p o u i v x) (hne : y ≠ .ok) :
    s.leads c fun t => t.dev = s.found.say y ∧ t.wmem = s.wmem ∧ t.flash = s.flash := by
  obtain ⟨f, eff, hexec, hf⟩ := hw
  subst hy
  exact State.leads_of hexec ⟨hf.trans (Dev.write_refused _ _ _ _ _ _ _ _ hne), rfl, rfl⟩

/-- A command to a channel is the write of its code to CH_CMD, under the checks of R38 and R40. -/
theorem State.writes_chCmd {s : State} {p : Party} {c : Instr} {u : Nat} (x : ChCmd)
    (hx : exec c s = .next (s.on fun d => d.chCmd p u x.code)) :
    s.writes p c C.CH_CMD u 0 x.code (s.found.chCheck u x) :=
  ⟨_, _, hx, Dev.chCmd_code _ _ _ x⟩

/-- FIRE_BITS is a write whose effect is a software event for each bit set. -/
theorem Dev.fireBits_write (d : Dev) (p : Party) (v : Int) :
    d.fireBits p v = d.write p D.FIRE_BITS 0 0 v .ok fun e =>
      foldUp (fun x i => if bit v.toNat i then x.raiseFlue (32 * d.rdpN p D.FIRE_BLOCK 0 + i) 0 else x) e 32 := rfl

/-- Settles O8: each of the commands is by its definition one write, under the rule of its object's chapter. -/
theorem aRefusedWriteChangesTheStatusAlone : Obligations.a_refused_write_changes_the_status_alone := by
  unfold Obligations.a_refused_write_changes_the_status_alone
  rintro s d p u i n v volt rfl c hc y hy hne
  refine State.leads_refused_frame ?_ hy hne
  simp only [List.mem_cons, List.not_mem_nil, or_false] at hc
  rcases hc with rfl | rfl | rfl | rfl | rfl | rfl | hc
  · exact State.writes_chCmd .off rfl
  · exact State.writes_chCmd .monitor rfl
  · exact State.writes_chCmd .source rfl
  · exact State.writes_chCmd .hold rfl
  · exact State.writes_chCmd .resume rfl
  · exact State.writes_chCmd .calibrate rfl
  -- every other command but FIRE_BITS is its write as it stands
  repeat' (rcases hc with rfl | hc)
  any_goals exact ⟨_, _, rfl, rfl⟩
  exact ⟨_, _, rfl, Dev.fireBits_write _ _ _⟩

/-! ### ABORT_ON_ERROR (R348) -/

/-- The answer NOT_DONE to a TLV that is not executed. -/
def Tlv.notDone (t : Tlv) : Tlv := ⟨t.ty ||| 0x80, tlvHead t .notDone⟩

/-- After a failure every TLV is answered with NOT_DONE, and none is executed. -/
theorem State.tlvs_dead (s : State) (n at_ : Nat) (abort : Bool) (ts out : List Tlv) :
    State.tlvs s n at_ abort ts true out = (s, out ++ ts.map Tlv.notDone) := by
  induction ts generalizing out with
  | nil => simp [State.tlvs]
  | cons t ts ih => simp [State.tlvs, ih, Tlv.notDone]

/-- A TLV that is executed is counted and answered, and with ABORT_ON_ERROR its failure ends the execution. -/
theorem State.tlvs_executed (s : State) (n at_ : Nat) (t : Tlv) (ts out : List Tlv) :
    State.tlvs s n at_ true (t :: ts) false out =
      State.tlvs ((s.tlv n at_ t).st.on fun d => d.countAcc n (s.tlv n at_ t).accs) n at_ true ts
        (decide ((s.tlv n at_ t).status ≠ .ok)) (out ++ [⟨t.ty ||| 0x80, (s.tlv n at_ t).val⟩]) := rfl

/-- Settles O23: the head of the list is executed, and its status says whether the rest is. -/
theorem abortOnErrorEndsTheExecution : Obligations.abort_on_error_ends_the_execution := by
  unfold Obligations.abort_on_error_ends_the_execution
  intro s n at_ out
  refine ⟨?_, rfl⟩
  rintro t ts _ rfl
  rw [s.tlvs_executed]
  refine ⟨fun hfail => ?_, fun hok => ?_⟩
  · rw [decide_eq_true hfail, State.tlvs_dead]
    rfl
  · rw [decide_eq_false (not_not_intro hok)]

/-! ### Reads (R352) -/

/-- Whether an access is served does not depend on the ownership. -/
theorem Dev.gate_own (d : Dev) (own : SMap Own) (p : Party) (ix : Nat) (write : Bool) :
    { d with own := own }.gate p ix write = d.gate p ix write := rfl

/-- A read that is served, of an object that is there and may be read, is accepted. -/
theorem Dev.readStatus_served (d : Dev) (p : Party) (o : Obj) (u i : Nat) (hg : d.gate p (o.index u) false = .ok)
    (ht : o.there u i = true) (ha : o.acc ≠ .wo) : d.readStatus p o u i = .ok := by
  simp [Dev.readStatus, hg, ht, Status.when, ha]

/-- Settles O24: a read asks its gate and its object's row, and neither asks for the owner. -/
theorem readsAreServedWhateverTheOwnership : Obligations.reads_are_served_whatever_the_ownership := by
  unfold Obligations.reads_are_served_whatever_the_ownership
  intro d p o u i own
  refine ⟨d.readStatus_served p o u i, ?_⟩
  unfold Dev.readStatus
  rw [Dev.gate_own]

end Sys2Proof.Machine
end

section
/-! PROOFS (14_power_reset_boot). The state of power-on reset: what each accessor answers where nothing is listed. -/

namespace Sys2Proof.Machine

open Sys2Proof

/-! ### Maps and masks in which nothing stands -/

/-- No bit of 0 is set. -/
theorem bit_zero_left (i : Nat) : bit 0 i = false := by simp [bit]

/-- A byte of a memory in which nothing stands reads as the memory's blank byte (log 7). -/
theorem Mem.byte_nil (blank : BitVec 8) (a : Nat) : Mem.byte blank [] a = blank := rfl

/-! ### The accessors in the state of power-on reset (R469) -/

/-- An object whose table row gives no default reads what log 5 puts in its place. -/
theorem State.reset_rdi (o : Obj) (u i : Nat) : State.reset.dev.rdi o u i = o.default u i := rfl

theorem State.reset_ch (u : Nat) : State.reset.dev.ch u = {} := rfl

theorem State.reset_sq (u : Nat) : State.reset.dev.sq u = {} := rfl

theorem State.reset_aq (u : Nat) : State.reset.dev.aq u = {} := rfl

/-- The defaults are those of R282 and R283: a fixed queue has its region and is enabled, a free queue is disabled. -/
theorem State.reset_qu (q : Nat) : State.reset.dev.qu q = Queue.initial q := rfl

/-- No domain of R464 is on before the boot. -/
theorem State.reset_pdOn (n : Nat) : State.reset.dev.pdOn n = false := bit_zero_left n

/-- A channel is Off with its output idle, in the ranges that I_NOW and V_NOW have for defaults (R89): the highest of each. -/
theorem State.reset_channel (u : Nat) :
    (State.reset.dev.ch u).ctl.st = .off ∧ (State.reset.dev.ch u).ctl.out = .idle ∧
      ((State.reset.dev.ch u).rng false).now = 7 ∧ ((State.reset.dev.ch u).rng true).now = 3 := by
  rw [State.reset_ch]
  exact ⟨rfl, rfl, rfl, rfl⟩

/-- The sequence engine and the acquisition unit of every unit are Idle. -/
theorem State.reset_engines (u : Nat) :
    (State.reset.dev.sq u).st = .idle ∧ (State.reset.dev.aq u).st = .idle := by
  rw [State.reset_sq, State.reset_aq]
  exact ⟨rfl, rfl⟩

/-- Waveform memory and queue memory read 0 (log 7). -/
theorem State.reset_memories (a : Nat) :
    Mem.byte 0 State.reset.wmem a = 0 ∧ Mem.byte 0 State.reset.dev.qmem a = 0 :=
  ⟨Mem.byte_nil 0 a, Mem.byte_nil 0 a⟩

/-- Settles O4: nothing is listed in the state of power-on reset, so every accessor answers its default; the power-on
reset is in force (log 6) and no command waits. -/
theorem resetLeavesDefaults : Obligations.reset_leaves_defaults := by
  unfold Obligations.reset_leaves_defaults
  refine ⟨State.reset_rdi, fun u => ?channel, State.reset_qu, State.reset_pdOn, ?held, ?fltLow,
    State.reset_memories, ?pending⟩
  case channel =>
    obtain ⟨hst, hout, hI, hV⟩ := State.reset_channel u
    obtain ⟨hsq, haq⟩ := State.reset_engines u
    exact ⟨hst, hout, hI, hV, hsq, haq⟩
  case held => rfl
  case fltLow => rfl
  case pending => rfl

end Sys2Proof.Machine
end

section
/-! PROOFS (01_architecture). The step of a queue in which a command waits: that command, on the state with the queue's rest
(log 1). -/

namespace Sys2Proof.Machine

open Sys2Proof

/-- Settles O1: the equation of `step` for a queue that is not empty. -/
theorem stepRunsTheFrontCommand : Obligations.step_runs_the_front_command := by
  unfold Obligations.step_runs_the_front_command
  intro s c cs hq
  exact step_of_pending_cons s c cs hq

end Sys2Proof.Machine
end
